-- ==== Sys2Proof/Word.lean ====
section
/-! DEFINITION. The words, pairs and identifiers that the commands and the state of the Vornak are
written in. Only types and their plainest arithmetic stand here. -/

namespace Sys2Proof

abbrev Byte := BitVec 8
abbrev Word16 := BitVec 16
abbrev Word32 := BitVec 32
abbrev Word64 := BitVec 64

/-- An FP32 value as its 32 bits (Table 3.3). -/
abbrev F32 := BitVec 32

/-- The two half dies (R20, R21). -/
inductive Half where
  | west
  | east
  deriving DecidableEq, Repr

/-- One thing per half die. -/
structure Both (α : Type) where
  west : α
  east : α
  deriving DecidableEq, Repr

/-- A store by the companion into its own memory: `len` bytes, little-endian, from `addr`. -/
structure CWrite where
  addr : Nat
  len : Nat
  value : Nat
  deriving DecidableEq, Repr

/-- What a block's own check finds while it does one piece of work (R367). -/
inductive BlockCheck where
  | ok
  | cleared (sub : Byte)
  | recurring (sub : Byte)
  deriving DecidableEq, Repr

/-- Bits of one 128-bit granule that have flipped since the last access of it (R265, R266, R271). -/
structure Upset where
  granule : Nat
  bits : Nat
  deriving DecidableEq, Repr

/-- The K-steps of a tile instruction's range, the group of 2^group segments that its DTB reduces (R212), and the cycle of issue (R194). -/
structure KRange where
  length : Nat
  group : Nat
  cycle : Nat
  deriving DecidableEq, Repr

/-- A write of HUB.SPDM_CONTROL_W or _E with GO = 1: the half, and REQUEST_LENGTH (Table 15.2). -/
structure SpdmGo where
  side : Half
  length : BitVec 13
  deriving DecidableEq, Repr

/-- What one scrub read covers: an SRAM word, or an HBM granule (R455). -/
inductive ScrubTarget where
  | sram (bank : Fin 7168) (word : Nat)
  | hbm (stack : Fin 8) (granule : Nat)
  deriving DecidableEq, Repr

/-- The pools and ports that are shared by grants (Table 11.6). -/
inductive SharedUnit where
  | dtb (index : Fin 96)
  | teller (index : Fin 192)
  | array (index : Fin 2688)
  | port (block : Word16) (output : Nat)
  deriving DecidableEq, Repr

/-- The traffic at a switch output or hub port, in the order it is served (R30). -/
inductive Traffic where
  | recovery
  | foreground
  | background
  deriving DecidableEq, Repr

/-- Ready work at a shared unit: its account, since which reading of the timer, and its charge; at a port, its traffic and the block that
requests. Recovery and background traffic is of no account. -/
structure Ready where
  account : BitVec 6
  since : Nat
  charge : Nat
  traffic : Traffic := .foreground
  block : Word16 := 0
  deriving DecidableEq, Repr

/-- The traffic ranks of a bank port, highest first (Table 8.5). -/
inductive Rank where
  | recovery
  | mover
  | dtbFeed
  | aabFeed
  | teller
  | background
  deriving DecidableEq, Repr

/-- What the words that an access reads hold, for the item that reads them (R373): part of a tensor, vault entry or kernel image; of a deck's
working copy or its home image; of an output block's context image; of a ledger or ticket state; of the journal. -/
inductive Holds where
  | object
  | workingCopy (deck : Fin 21504)
  | homeImage (deck : Fin 21504)
  | contextImage (block : Nat)
  | ledger
  | journal
  deriving DecidableEq, Repr

/-- The item that reads, 0 for none, and what the words hold for it. -/
structure Reader where
  item : Nat
  holds : Holds
  deriving DecidableEq, Repr

/-- A word of a bank, and the rank of the access (Table 8.5). -/
structure BankWord where
  rank : Rank
  word : Nat
  deriving DecidableEq, Repr

/-- A request at a bank port: its rank, its place in the bank, the item that reads, what it writes, and the cycles it has stalled (R262 to R265). -/
structure PortRequest where
  rank : Rank
  start : Nat
  length : Nat
  item : Nat := 0
  holds : Holds := .object
  write : Bool := false
  bytes : List Byte := []
  stalled : Nat := 0
  deriving DecidableEq, Repr

/-- What verification of one signed object finds outside the layout (R436, R437): the signature verifies
under the carried key, the key's digest is the ROM digest its index names, the code has the stated digest. -/
structure Verdict where
  signature : Bool
  keyDigest : Bool
  codeDigest : Bool
  deriving DecidableEq, Repr

/-- The VF header (Table 13.6). -/
structure VfHeader where
  version : Byte := 1
  type : Byte
  retransmit : Bool := false
  last : Bool := false
  sourcePort : BitVec 5
  source : BitVec 20
  account : BitVec 6
  dest : BitVec 20
  incarnation : Word32
  sequence : Word64
  acked : Word64 := 0
  ticket : Word32 := 0
  transit : Bool := false
  opcode : Bool := false
  toDeputy : Bool := false
  phase : Bool := false
  group : Byte := 0
  position : BitVec 20 := 0
  firstBlock : Word32 := 0
  blocks : Word16 := 0
  dust : Word32 := 0
  serial : Word32 := 0
  deriving DecidableEq, Repr

/-- A VF frame as received at a port or sent from one: its MAC addresses' octets, its optional VLAN tag,
its EtherType, header and payload (R405, R408). -/
structure VfFrame where
  destMac : List Byte
  sourceMac : List Byte
  tag : Option (BitVec 12) := none
  etherType : Word16
  header : VfHeader
  payload : List Byte
  deriving DecidableEq, Repr

/-- An operation on one tally as it reaches a tally unit (R314, R316). -/
inductive TallyOp where
  | signal (source : Word16) (n : Nat) (item : Nat)
  | take (source : Word16) (m : Nat) (item : Nat)
  | wait (source : Word16) (m : Nat) (item : Nat)
  deriving DecidableEq, Repr

/-- The item of a mover's signal, and the operations on the tally that reach its unit in the same cycle (R316). -/
structure SignalItem where
  item : Nat
  together : List TallyOp
  deriving DecidableEq, Repr

/-- Why an assay becomes due (R167). -/
inductive DueCause where
  | timer
  | temperature
  | request
  | powerUp
  deriving DecidableEq, Repr

/-- The outcome of the self-test of one block (R433): the block and the fault code the test found. -/
structure SelfTestFault where
  block : Word16
  code : Word16
  sub : Byte
  deriving DecidableEq, Repr

def Both.get (b : Both α) : Half → α
  | .west => b.west
  | .east => b.east

def Both.set (b : Both α) : Half → α → Both α
  | .west, a => { b with west := a }
  | .east, a => { b with east := a }

def Half.other : Half → Half
  | .west => .east
  | .east => .west

end Sys2Proof
end

