-- ==== Sys2Proof/Syntax.lean ====
section
/-! DEFINITION. The commands of the block: one constructor per row of spec/opcode_table.json, with the row's
operands. `t` is the reading of the hub's reference timer in ns (R371); `cw` are the companion's own stores to
its memory up to the device's read (log 2); `item` is a journal item identifier (R375). -/

namespace Sys2Proof

inductive Instr where
  /- Rings (R41 to R60) -/
  | bell (ep : Half) (ring : Byte) (word : Word64)
  | bellPageWriteIgnored (ep : Half) (ring : Byte) (offset size : Nat)
  | load (ep : Half) (ring : Byte) (word : Word64) (cw : List CWrite)
  | stop (ep : Half) (ring : Byte) (word : Word64)
  | drain (ep : Half) (ring : Byte) (word : Word64)
  | controlReservedCommand (ep : Half) (ring : Byte) (word : Word64)
  | ringIdle (ring : Byte)
  | slipConsume (ring : Byte) (cw : List CWrite)
  | groupTableReadDone (item : Nat) (cw : List CWrite)
  /- From bell to receipt (R71 to R84) -/
  | itemStart (item : Nat)
  | itemComplete (item : Nat)
  | receiptWriteDeferred (ring : Byte)
  /- The work of a started item, by family and opcode (Table 2.6) -/
  | gemmForward (item : Nat)
  | gemmForwardDigital (item : Nat)
  | forwardWide (item : Nat)
  | backwardData (item : Nat)
  | backwardWeight (item : Nat)
  | plain (item : Nat)
  | kernelRun (item : Nat)
  | loadImage (item : Nat) (cw : List CWrite)
  | clearOwnerReduce (item : Nat)
  | clearRingReduce (item : Nat)
  | clearDistribute (item : Nat)
  | copy (item : Nat)
  | moveLoad (item : Nat) (cw : List CWrite)
  | store (item : Nat)
  | declare (item : Nat)
  | retire (item : Nat)
  | settle (item : Nat)
  | stash (item : Nat)
  | recallItem (item : Nat)
  | signal (item : Nat)
  | wait (item : Nat)
  | take (item : Nat)
  | stepWriteStage (item : Nat)
  | stepWriteCommit (item : Nat)
  | fenceRing (item : Nat)
  | fenceAccount (item : Nat)
  /- Tallies (R312 to R333) -/
  | tallySignal (source : Word16) (account : BitVec 6) (number : Word16) (n : Nat) (signal : SignalItem)
  | waitIssue (item : Nat)
  | heldWaitEnqueue (region : Fin 4)
  | waitDeadline (item : Nat) (t : Nat)
  | updateStampDeadline (item : Nat) (t : Nat)
  | vksSignal (teller : Fin 192) (thread : Byte) (number : Word16) (n : Nat)
  | vksDrain (teller : Fin 192) (thread : Byte)
  | tallyMove (account : BitVec 6) (number : Word16) (region : Fin 4) (arrived : List TallyOp)
  /- Analogue arrays (R122 to R190) -/
  | evaluationIssue (aab : Fin 168) (descriptor : BitVec 256) (vector : Nat) (cycle : Nat) (check : BlockCheck)
  | referenceSequence (aab : Fin 168) (array : Fin 16) (cycle : Nat)
  | outputTileConvert (item : Nat) (tile : Nat)
  | spillPartial (item : Nat) (vector : Nat)
  | assayDue (deck : Fin 21504) (cause : DueCause) (t : Nat) (tj : Int)
  | assay (deck : Fin 21504) (t : Nat) (tj : Int)
  | assayApply (deck : Fin 21504)
  | tileMove (deck newDeck : Fin 21504) (t : Nat)
  | oldDeckZeroProgram (deck : Fin 21504) (t : Nat)
  | wearLevelCheck (aab : Fin 168) (t : Nat)
  | rowRefresh (deck : Fin 21504) (row : Fin 1024) (t : Nat)
  | wearImageWrite (t : Nat)
  | bindingRecordWrite (deck : Fin 21504) (t : Nat)
  | deckZeroProgram (deck : Fin 21504) (t : Nat)
  /- Digital tensor blocks (R191 to R224) -/
  | tileInstructionIssue (dtb : Fin 96) (item : Nat) (blockRow blockCol kStart : Nat) (range : KRange) (check : BlockCheck)
  | dtbTileConvert (item : Nat) (tile : Nat)
  | contextRestore (dtb : Fin 96) (item : Nat) (blockRow blockCol : Nat)
  /- Tellers (R250 to R259) -/
  | workUnitStart (teller : Fin 192) (thread : Byte) (item : Nat) (unit : Nat) (cycle : Nat) (check : BlockCheck)
  | secondPassStart (item : Nat)
  | unitTimeout (teller : Fin 192) (thread : Byte) (cycle : Nat)
  | tellerStateIssue (teller : Fin 192) (cycle : Nat)
  | imageLoadToTeller (teller : Fin 192) (slot : Fin 4) (item : Nat) (cycle : Nat)
  /- SRAM banks and HBM (R260 to R275, R455) -/
  | bankRead (bank : Fin 7168) (word : BankWord) (offset length : Nat) (upsets : List Upset) (reader : Reader) (check : BlockCheck)
  | bankWrite (bank : Fin 7168) (word : BankWord) (offset : Nat) (bytes : List Byte)
  | eccWriteback (bank : Fin 7168)
  | portStallAgeing (bank : Fin 7168) (reads writes : List PortRequest)
  | hbmRead (stack : Fin 8) (extent : Nat) (offset length : Nat) (upsets : List Upset) (reader : Reader)
  | hbmWrite (stack : Fin 8) (extent : Nat) (offset : Nat) (bytes : List Byte)
  | scrubRead (target : ScrubTarget) (upsets : List Upset)
  | vaultEvict (account : BitVec 6) (toSram : Bool)
  /- Frames received, and the transport's timers (R285 to R311, R403 to R410) -/
  | offer (port : BitVec 5) (frame : VfFrame) (t : Nat)
  | grant (port : BitVec 5) (frame : VfFrame) (t : Nat)
  | refuse (port : BitVec 5) (frame : VfFrame) (t : Nat)
  | busy (port : BitVec 5) (frame : VfFrame) (t : Nat)
  | offerRetry (item : Nat) (peer : BitVec 20) (t : Nat)
  | heldOfferExpiry (half : Half) (t : Nat)
  | data (port : BitVec 5) (frame : VfFrame) (t : Nat)
  | ack (port : BitVec 5) (frame : VfFrame) (t : Nat)
  | retransmitTimeout (half : Half) (peer : BitVec 20) (sequence : Word64) (t : Nat)
  | planeProbe (half : Half) (peer : BitVec 20) (plane : BitVec 3) (t : Nat)
  | probe (port : BitVec 5) (frame : VfFrame) (t : Nat)
  | abort (port : BitVec 5) (frame : VfFrame) (t : Nat)
  | lostNotice (port : BitVec 5) (frame : VfFrame) (t : Nat)
  | pauseFrame (port : BitVec 5)
  | peerLost (peer : BitVec 20) (t : Nat)
  | peerContextClose (half : Half) (peer : BitVec 20) (makeRoom : Bool) (t : Nat)
  | clearDeadline (item : Nat) (t : Nat)
  /- Sharing (R353 to R358) -/
  | grantPoint (unit : SharedUnit) (ready : List Ready) (t : Nat)
  | quantumExpiry (unit : SharedUnit) (t : Nat)
  /- Account commands (R340 to R364, R451) -/
  | admitAccount (ep : Half) (account : BitVec 6) (cw : List CWrite)
  | resize (ep : Half) (account : BitVec 6) (cw : List CWrite)
  | remove (ep : Half) (account : BitVec 6)
  | accountCommandMalformed (ep : Half) (value : Word64)
  | accountCommandDiscarded (ep : Half) (value : Word64)
  /- Faults, recovery and the charter (R365 to R393, R465, R466) -/
  | blockRecovery (block : Word16) (target : Option Word16)
  | livenessTimeout (block : Word16) (t : Nat)
  | regionFence (region : Fin 4) (failed : Word16) (poisonedWords : Nat) (t : Nat)
  | stewardHeartbeatTimeout (half : Half) (t : Nat)
  | hbmFenced (stack : Fin 8) (t : Nat)
  | bridgeLost (t : Nat)
  | fenceSelfTest (block : Word16) (passes : Bool) (t : Nat)
  | queuedRecoveryStart (t : Nat)
  | charterRenewal (half : Half) (cw : List CWrite) (reachable : Bool) (t : Nat)
  | leaseExpiry (half : Half) (t : Nat)
  | charterTake (half : Half) (cw : List CWrite) (t : Nat)
  | witnessReread (half : Half) (cw : List CWrite) (t : Nat)
  | charterRejection (half : Half) (winning : Word64)
  | epochCommand (block : Word16) (issuer : Half) (epoch epochC : Word64)
  | stewardRestart (ep : Half) (value : Word64)
  | fwUpdateStart (ep : Half) (value : Word64) (verdict : Verdict)
  | stewardRestartDone (half : Half) (passes : Bool) (verdict : Verdict) (t : Nat)
  | dumpRequest (ep : Half) (value : Word64)
  | auditDump (t : Nat)
  | dumpSelectOlder (ep : Half) (value : Word64)
  | dumpWindowRead (ep : Half) (offset size : Nat)
  /- Time (R328 to R330, R453) -/
  | exchangeRateRefresh (half : Half) (block : Word16) (sent marked t : Nat)
  | companionTimeWrite (ep : Half) (timeNs : Word64) (t : Nat)
  | companionTimeStale (t : Nat)
  /- Set-up registers and the SCL window (R394 to R402, R431, R446 to R450) -/
  | witnessBaseWrite (ep : Half) (value : Word64)
  | registerWrite (ep : Half) (offset : Nat) (value : Word64)
  | registerRetry (ep : Half) (offset : Nat) (write : Bool)
  | companionRequestError (ep : Half) (type : Byte) (offset size : Nat)
  | reservedOffsetAccess (ep : Half) (offset size : Nat) (write : Bool)
  | flashWindowWrite (ep : Half) (offset : Nat) (bytes : List Byte)
  | snoop (ep : Half) (line : Nat)
  | sclFlitCrcFailure (ep : Half) (sequence : BitVec 12)
  | sclLaneFailure (ep : Half) (lane : Fin 12)
  | sclWidthRetry (ep : Half) (lanesWorking : BitVec 12) (t : Nat)
  | sclRefclkLoss (ep : Half)
  /- VF ports (R403, R404) -/
  | vfPortPhyWrite (ep : Half) (port : BitVec 5) (value : Word64)
  | vfFullWidthRequest (ep : Half) (port : BitVec 5) (value : Word64)
  | vfLaneFailure (port : BitVec 5) (lane : BitVec 3)
  | vfTrainingDone (port : BitVec 5)
  /- Attestation (R441 to R445, R450) -/
  | spdmGetVersion (ep : Half) (go : SpdmGo)
  | spdmGetCapabilities (ep : Half) (go : SpdmGo)
  | spdmNegotiateAlgorithms (ep : Half) (go : SpdmGo)
  | spdmGetDigests (ep : Half) (go : SpdmGo)
  | spdmGetCertificate (ep : Half) (go : SpdmGo)
  | spdmChallenge (ep : Half) (go : SpdmGo)
  | spdmGetMeasurements (ep : Half) (go : SpdmGo)
  | spdmUnsupportedRequest (ep : Half) (go : SpdmGo)
  | spdmBadLength (ep side : Half) (length : BitVec 13)
  /- Telemetry and board management (R413, R456 to R462) -/
  | sampleMark (half : Half) (t : Nat)
  | telemetryExport (t : Nat)
  | i3cPageSelect (page : Byte)
  | i3cPageRead (length : Nat)
  | i3cPageUpdate (half : Half) (t : Nat)
  | i3cPageStale (t : Nat)
  | entdaa (address : BitVec 7)
  | setdasa (static : BitVec 7) (address : BitVec 7)
  | rstdaa
  | getpid
  | getbcr
  | getdcr
  | getstatus
  | getmwl
  | getmrl
  | enec (events : Byte)
  | disec (events : Byte)
  /- Power, start-up and throttling (R420 to R445) -/
  | enableRise (t : Nat)
  | bootVerify (loaders : Both Verdict) (slots : Both Verdict) (record : Both Verdict) (keyMatches : Both Bool) (t : Nat)
  | selfTest (failures : List SelfTestFault) (fittedGib : List Nat) (trainFailed : List (Fin 8)) (coldest : Int) (t : Nat)
  | startupAssay (tj : Int) (t : Nat)
  | ready (t : Nat)
  | enableFallDuringStartup (t : Nat)
  | shutdown (t : Nat)
  | inputOutOfRange (mv : Nat) (since t : Nat)
  | thermtrip (block : Word16) (celsius8 : Int) (t : Nat)
  | droopStep (block : Word16) (millivoltPermille : Nat) (t : Nat)
  | droopRecover (block : Word16) (permille : Nat) (t : Nat)
  | temperatureStep (block : Word16) (celsius8 : Int) (t : Nat)
  | temperatureRecover (block : Word16) (celsius8 : Int) (t : Nat)
  | powerLimit (watts : Nat)
  | inputInRange (mv : Nat) (t : Nat)
  | stewardHeartbeat (half : Half) (t : Nat)
  | livenessPulse (block : Word16) (t : Nat)
  | hbmRefresh (stack : Fin 8) (celsius : Int)
  deriving DecidableEq, Repr

end Sys2Proof
end

