-- ==== Sys2Proof/Decode.lean ====
section
/-! DEFINITION. The commands that a word spells by the bits of the command table. -/

namespace Sys2Proof

/-- The command a word of `nbits` bits spells. No row of the table gives bits: the commands are accesses, frames and
events, whose operands the manual lays out in registers, slips and frames, and not in an instruction word. -/
def decodeTableWord (_nbits _w : Nat) : Option Instr := none

end Sys2Proof
end

