-- ==== Sys2Proof/Config.lean ====
section
/-! DEFINITION. What an implementation fixes, and the free values: constants without a body, so that nothing can be
proved of their values (log 9 and the entries each names). -/

namespace Sys2Proof.Config

open Sys2Proof

/-- Base of the 1 GiB target window that the companion assigns at SCL enumeration (R397; log 10). -/
opaque windowBase : Nat

/-- Contents of an output that the manual leaves undefined (R77, R467): element `i` of undefined content `n` (log 16). -/
opaque undefinedCode : Nat → Nat → Nat

/-- Read error of an analogue column result, in units of 2^-16 LSB: evaluation, and the read within it (R160, R161; log 17). -/
opaque readError : Nat → Nat → Int

/-- A cell's recorded level in 1/64 level as an assay or a verify read finds it (R165, R177; log 18). -/
opaque cellRead : Nat → Nat → Nat

/-- Gain and offset trims that an assay or a reference sequence measures, by pair-column (R146, R166; log 18). -/
opaque trim : Nat → Int

/-- An FP32 value a kernel's work unit forms: (run's digest, output handle 0 to 2, element) (R241, R251, R255; log 19). -/
opaque kernelValue : Nat → Nat → Nat → F32

/-- Whether a kernel's unit accesses an element outside a tensor's shape (R254; log 19). -/
opaque kernelOutOfShape : Nat → Nat → Bool

/-- What the kernel run computes from, as one number: image bytes, operand contents, arguments, step record (R241; log 19). -/
opaque kernelDigest : List Nat → Nat

/-- Whether a kernel writes an element of an output: (run's digest, handle, element) (R254; log 19). -/
opaque kernelWrites : Nat → Nat → Nat → Bool

/-- Whether a kernel reads an element of an input: (run's digest, handle, element) (R119, R254; log 19). -/
opaque kernelReads : Nat → Nat → Nat → Bool

/-- Whether a kernel's own FP32 steps meet a NaN (0) or an infinity (1) (R114, R119; log 19). -/
opaque kernelSeen : Nat → Nat → Bool

/-- A reduction slot's partial of a work unit: (run's digest, slot, unit) (R258; log 19). -/
opaque kernelPartial : Nat → Nat → Nat → F32

/-- What a state record of an image says, which VKS defines: the operation of a lane, its operands' places, and the vector register that the
state writes, by the record's digest (R250, R255; log 19). -/
opaque laneOp : Nat → Nat → Nat
opaque laneSource : Nat → Nat → Nat → Nat
opaque laneTarget : Nat → Nat

/-- What a lane takes from the memory port, the switch or the state record, by the digest of all that a state computes from (R250, R254; log 19). -/
opaque portValue : Nat → Nat → Nat → Word32

/-- A lane's function as its hardware rounds it, and the lane steps that VKS defines (R251; log 19). -/
opaque laneFunction : Nat → Word32 → Word32
opaque laneOther : Nat → List Word32 → Word32

/-- The work unit that writes an element of an output: (run's digest, handle, element) (R258; log 19). -/
opaque kernelUnit : Nat → Nat → Nat → Nat

/-- The incarnation a sender picks for a new peer context (R307; log 20). -/
opaque incarnation : Nat → Word32

/-- The analogue fields that a reader of the pages sees where the manual only names them: rail readings (R461; log 21). -/
opaque railReading : Nat → Nat

/-- The I3C provisioned ID, BCR, DCR, maximum lengths and status, none of which the manual gives (R413; log 21). -/
opaque i3cPid : BitVec 48
opaque i3cBcr : Byte
opaque i3cDcr : Byte
opaque i3cMwl : Word16
opaque i3cMrl : Word16
opaque i3cStatus : Nat → Word16

/-- The length of an SPDM response, whose encoding the manual takes from DMTF (R443, R450; log 23). -/
opaque spdmLength : Nat → Nat

/-- A SHA3-256 digest, or an ML-DSA-44 signature, of what the attestation engine holds (R436, R444; log 14). -/
opaque sha3 : List Nat → BitVec 256
opaque mlDsaSign : Nat → BitVec 256 → Nat

/-- The half's derived identity key (R441; log 14). -/
opaque identityKey : Nat → Nat

/-- Where the device keeps an item's progress map (0) or its latest context image or vault decision (1), which the manual leaves to it
(Table 12.3; log 16). -/
opaque storePlace : Nat → Nat → Nat

/-- Block-time in ns that an item used, beyond the least (R358; log 17). -/
opaque blockTime : Nat → Nat

/-- What a switch of a shared unit costs, in ns (R357; log 18). -/
opaque switchCost : Nat → Nat

/-- What VKS says of one issued state: the next state (past the last one ends the unit) and whether it writes memory, by the digest of what it
computes from; and how long the thread waits for its memory reads (R252, R255; log 19). -/
opaque nextState : Nat → Nat
opaque readWait : Nat → Nat
opaque stateWrites : Nat → Bool

/-- Whether an object's bytes were among those lost or poisoned, which follows from where it lies: (event, object) (R371, R373; log 31). -/
opaque lostBytes : Nat → Nat → Bool

/-- Whether the device still holds a line of its last write when a snoop comes (R399; log 17). -/
opaque stillHeld : Nat → Bool

/-- The code of a boot ROM, which is in the mask (R444; log 14). -/
opaque bootRom : Nat → List Nat

/-- A choice the placer makes, where the manual leaves it the choice (R349; log 15). -/
opaque placerChoice : Nat → Nat

/-- The refresh rate an HBM stack's temperature readout requires (R412; log 21). -/
opaque refreshRate : Int → Nat

/-- The module's service time in ns before the reference timer's zero (R183; log 18). -/
opaque serviceBase : Nat

/-- Ihlizar's JEP106 code and a die's version in IDCODE, which the manual does not print (R416; log 67). -/
opaque manufacturer : Nat
opaque dieVersion : Nat

end Sys2Proof.Config
end

