-- ==== Sys2Proof/Machine/Table.lean ====
section
/-! DEFINITION. Sparse tables (lists of key and value with rising keys), byte memories over them, and the
bit-field and byte-order helpers that every structure of the manual is read and written with (R7, R8). -/

namespace Sys2Proof.Machine

open Sys2Proof

/-- A sparse table: its entries, keys strictly rising. -/
abbrev Table (α : Type) := List (Nat × α)

/-- The entry under a key, when there is one. -/
def find : Table α → Nat → Option α
  | [], _ => none
  | (k, v) :: rest, i => if k = i then some v else find rest i

/-- The table without the key. -/
def del : Table α → Nat → Table α
  | [], _ => []
  | (k, v) :: rest, i => if k = i then del rest i else (k, v) :: del rest i

/-- The entry set before the first greater key. -/
def place : Table α → Nat → α → Table α
  | [], i, a => [(i, a)]
  | (k, v) :: rest, i, a => if i < k then (i, a) :: (k, v) :: rest else (k, v) :: place rest i a

/-- The table with the key's entry set. -/
def ins (t : Table α) (i : Nat) (a : α) : Table α := place (del t i) i a

/-- The value under a key; `d` where nothing is listed. -/
def lookup (d : α) (t : Table α) (i : Nat) : α := (find t i).getD d

/-- The table with the key's value set; a value equal to the default is not listed. -/
def put [DecidableEq α] (d : α) (t : Table α) (i : Nat) (a : α) : Table α :=
  if a = d then del t i else ins t i a

/-- The table with the key's value changed by `f`. -/
def modify [DecidableEq α] (d : α) (t : Table α) (i : Nat) (f : α → α) : Table α :=
  put d t i (f (lookup d t i))

/-- The table with an entry that is present changed by `f`. -/
def adjust (t : Table α) (i : Nat) (f : α → α) : Table α :=
  match find t i with
  | some a => ins t i (f a)
  | none => t

/-- The table without the entries that hold the default. -/
def tidy [DecidableEq α] (d : α) : Table α → Table α
  | [] => []
  | (k, v) :: rest => if v = d then del (tidy d rest) k else (k, v) :: tidy d rest

/-- Every entry changed by `f`. -/
def mapValues (f : Nat → α → α) (t : Table α) : Table α := t.map fun p => (p.1, f p.1 p.2)

/-- Keys strictly rising. -/
def rising : Table α → Bool
  | [] => true
  | [_] => true
  | (a, _) :: (b, v) :: rest => decide (a < b) && rising ((b, v) :: rest)

/-- The canonical form of a table with default `d`: keys strictly rising, the default not listed. -/
def Canonical [DecidableEq α] (d : α) (t : Table α) : Bool := rising t && t.all fun p => decide (p.2 ≠ d)

/-- A byte memory. -/
abbrev Memory := List Host.Cell

/-- What a byte that nothing has written reads as (log 7). -/
def Memory.blank : Byte := 0

/-- The canonical form of a memory. -/
def Memory.wf (m : Memory) : Bool := Canonical Memory.blank m

/-- The byte at an address. -/
def readByte (m : Memory) (a : Nat) : Byte := lookup Memory.blank m a

/-- The memory with one byte stored. -/
def writeByte (m : Memory) (a : Nat) (b : Byte) : Memory := put Memory.blank m a b

/-- `n` bytes from an address. -/
def readBytes (m : Memory) (a : Nat) : Nat → List Byte
  | 0 => []
  | n + 1 => readByte m a :: readBytes m (a + 1) n

/-- Bytes stored from an address upward. -/
def writeBytes (m : Memory) (a : Nat) : List Byte → Memory
  | [] => m
  | b :: rest => writeBytes (writeByte m a b) (a + 1) rest

/-- Little-endian value of bytes (R8). -/
def ofLE : List Byte → Nat
  | [] => 0
  | b :: rest => b.toNat + 256 * ofLE rest

/-- The `n` little-endian bytes of a value (R8). -/
def toLE : Nat → Nat → List Byte
  | 0, _ => []
  | n + 1, v => BitVec.ofNat 8 v :: toLE n (v / 256)

/-- The `n` big-endian bytes of a value (R8: VF headers and payload fields). -/
def toBE (n v : Nat) : List Byte := (toLE n v).reverse

/-- Big-endian value of bytes (R8). -/
def ofBE (l : List Byte) : Nat := ofLE l.reverse

/-- The little-endian value of `n` bytes at an address. -/
def readLE (m : Memory) (a n : Nat) : Nat := ofLE (readBytes m a n)

/-- A value stored in `n` little-endian bytes. -/
def writeLE (m : Memory) (a n v : Nat) : Memory := writeBytes m a (toLE n v)

/-- Bits [hi:lo] of a value (R7). -/
def bits (v hi lo : Nat) : Nat := v / 2 ^ lo % 2 ^ (hi + 1 - lo)

/-- One bit of a value (R7). -/
def bit (v i : Nat) : Bool := v / 2 ^ i % 2 = 1

/-- A field of a value at bit `lo`, `width` bits wide, as its place in the whole. -/
def field (lo width v : Nat) : Nat := v % 2 ^ width * 2 ^ lo

def ofBool (b : Bool) : Nat := if b then 1 else 0

/-- One's complement within `w` bits. -/
def onesComplement (w v : Nat) : Nat := 2 ^ w - 1 - v % 2 ^ w

/-- The critical-value form: the value in the low half, its complement in the high half (R267). -/
def withComplement (w v : Nat) : Nat := v % 2 ^ w + onesComplement w v * 2 ^ w

/-- A two's-complement field of width `w` as an integer. -/
def signed (w v : Nat) : Int := if 2 ^ (w - 1) ≤ v % 2 ^ w then (v % 2 ^ w : Nat) - (2 ^ w : Nat) else (v % 2 ^ w : Nat)

/-- An integer as a two's-complement field of width `w`. -/
def twos (w : Nat) (i : Int) : Nat := (i % (2 ^ w : Nat)).toNat

/-- `a` is ahead of `b` modulo 2^32 (R46, R331). -/
def ahead32 (a b : Nat) : Bool :=
  let d := (a + 2 ^ 32 - b % 2 ^ 32) % 2 ^ 32
  decide (1 ≤ d) && decide (d ≤ 2 ^ 31 - 1)

/-- (a − b) mod 2^32 (R46). -/
def sub32 (a b : Nat) : Nat := (a + 2 ^ 32 - b % 2 ^ 32) % 2 ^ 32

/-- A count that saturates at the largest value of `w` bits (R84). -/
def saturate (w v : Nat) : Nat := if v < 2 ^ w then v else 2 ^ w - 1

def roundUp (v unit : Nat) : Nat := (v + unit - 1) / unit * unit

def ceilDiv (a b : Nat) : Nat := (a + b - 1) / b

/-- ⌈log2 n⌉ for n ≥ 1. -/
def ceilLog2 (n : Nat) : Nat := if n ≤ 1 then 0 else (n - 1).log2 + 1

/-- One step of the CRC-32 of IEEE 802.3 over one bit. -/
def crcBit (c : Nat) : Nat := if c % 2 = 1 then (c / 2) ^^^ 0xEDB88320 else c / 2

def crcByte (c : Nat) (b : Byte) : Nat :=
  crcBit (crcBit (crcBit (crcBit (crcBit (crcBit (crcBit (crcBit (c ^^^ b.toNat))))))))

/-- CRC-32 with the IEEE 802.3 polynomial (Tables 6.7, 8.3, 10.6, 15.5). -/
def crc32 (l : List Byte) : Nat := (l.foldl crcByte 0xFFFFFFFF) ^^^ 0xFFFFFFFF

/-- The companion's stores made before the device's read (log 2). -/
def applyStores (m : Memory) (cw : List CWrite) : Memory :=
  cw.foldl (fun m w => writeLE m w.addr w.len w.value) m

/-- The first element that meets a test, with its place. -/
def findIdx? (p : α → Bool) : List α → Nat → Option (Nat × α)
  | [], _ => none
  | a :: rest, i => if p a then some (i, a) else findIdx? p rest (i + 1)

def setAt (l : List α) (i : Nat) (a : α) : List α := l.set i a

/-- The element set before the first one it may stand before. -/
def insertBy (le : α → α → Bool) (a : α) : List α → List α
  | [] => [a]
  | b :: rest => if le a b then a :: b :: rest else b :: insertBy le a rest

/-- The list in order; equals keep theirs. -/
def sortBy (le : α → α → Bool) (l : List α) : List α := l.foldr (insertBy le) []

/-- A strictly rising list with the element. -/
def insertNat (l : List Nat) (n : Nat) : List Nat :=
  match l with
  | [] => [n]
  | a :: rest => if n < a then n :: a :: rest else if n = a then a :: rest else a :: insertNat rest n

end Sys2Proof.Machine
end

