-- ==== Sys2Proof/Machine/Numbers.lean ====
section
/-! DEFINITION. Numbers and formats (R89 to R121): exact values, the eleven formats, rounding, FP32 arithmetic,
block-scaled groups and tensor scales. -/

namespace Sys2Proof.Machine

open Sys2Proof

/-- The exact number m × 2^e. -/
structure Dy where
  m : Int
  e : Int
  deriving DecidableEq, Repr

def Dy.zero : Dy := ⟨0, 0⟩
def Dy.ofInt (i : Int) : Dy := ⟨i, 0⟩
def pow2 (n : Int) : Int := (2 ^ n.toNat : Nat)

/-- The integer m × 2^(e − g), for g ≤ e. -/
def Dy.at (x : Dy) (g : Int) : Int := x.m * pow2 (x.e - g)

def Dy.add (x y : Dy) : Dy :=
  let g := min x.e y.e
  ⟨x.at g + y.at g, g⟩

def Dy.neg (x : Dy) : Dy := ⟨-x.m, x.e⟩
def Dy.sub (x y : Dy) : Dy := x.add y.neg
def Dy.mul (x y : Dy) : Dy := ⟨x.m * y.m, x.e + y.e⟩
def Dy.abs (x : Dy) : Dy := ⟨x.m.natAbs, x.e⟩
def Dy.scale (x : Dy) (k : Int) : Dy := ⟨x.m, x.e + k⟩
def Dy.le (x y : Dy) : Bool :=
  let g := min x.e y.e
  decide (x.at g ≤ y.at g)
def Dy.lt (x y : Dy) : Bool := !(y.le x)
def Dy.isZero (x : Dy) : Bool := decide (x.m = 0)
def Dy.eqv (x y : Dy) : Bool := x.le y && y.le x
def Dy.max (x y : Dy) : Dy := if x.le y then y else x

/-- One spelling per number: an odd significand, or zero. -/
def Dy.reduce : Nat → Dy → Dy
  | 0, x => x
  | n + 1, x => if x.m = 0 then ⟨0, 0⟩ else if x.m % 2 = 0 then Dy.reduce n ⟨x.m / 2, x.e + 1⟩ else x
def Dy.norm (x : Dy) : Dy := Dy.reduce (x.m.natAbs.log2 + 1) x

/-- ⌊log2 |x|⌋ of a non-zero number. -/
def Dy.floorLog2 (x : Dy) : Int := (x.m.natAbs.log2 : Nat) + x.e

/-- ⌈log2 |x|⌉ of a non-zero number. -/
def Dy.ceilLog2 (x : Dy) : Int :=
  if x.m.natAbs = 2 ^ x.m.natAbs.log2 then x.floorLog2 else x.floorLog2 + 1

/-- The quotient of naturals rounded to nearest, ties to even. -/
def divNE (a b : Nat) : Nat :=
  let q := a / b
  let r := a % b
  if 2 * r < b then q else if b < 2 * r then q + 1 else if q % 2 = 0 then q else q + 1

/-- The nearest integer multiple of 2^g, ties to even, as its multiple (R108). -/
def Dy.grid (x : Dy) (g : Int) : Int :=
  if g ≤ x.e then x.at g
  else
    let q := divNE x.m.natAbs (2 ^ (g - x.e).toNat)
    if x.m < 0 then -(q : Int) else q

/-- The nearest integer to a quotient n / d of exact numbers, ties to even (R176). -/
def Dy.quotNearest (n d : Dy) : Int :=
  let g := min n.e d.e
  let q := divNE (n.at g).natAbs (d.at g).natAbs
  if decide (n.m < 0) != decide (d.m < 0) then -(q : Int) else q

/-- A decoded value: finite with its sign (so that zero keeps one), an infinity, or NaN. -/
inductive Val where
  | nan
  | inf (neg : Bool)
  | fin (neg : Bool) (mag : Nat) (e : Int)
  deriving DecidableEq, Repr

def Val.zero : Val := .fin false 0 0
def Val.ofDy (x : Dy) : Val := .fin (decide (x.m < 0)) x.m.natAbs x.e
def Val.toDy : Val → Dy
  | .fin neg mag e => ⟨if neg then -(mag : Int) else mag, e⟩
  | _ => Dy.zero
def Val.isFinite : Val → Bool
  | .fin .. => true
  | _ => false
def Val.isNan : Val → Bool
  | .nan => true
  | _ => false
def Val.isInf : Val → Bool
  | .inf _ => true
  | _ => false
def Val.isZero : Val → Bool
  | .fin _ 0 _ => true
  | _ => false
def Val.scale (v : Val) (k : Int) : Val :=
  match v with
  | .fin neg mag e => .fin neg mag (e + k)
  | v => v
def Val.negate : Val → Val
  | .nan => .nan
  | .inf n => .inf (!n)
  | .fin n m e => .fin (!n) m e

/-- The formats (Table 3.1). -/
inductive Fmt where
  | i4 | f4 | f6 | i8 | f8 | f8w | bf16 | fp16 | fp32 | aw3 | aw5 | aw7 | lg
  deriving DecidableEq, Repr

def Fmt.code : Fmt → Nat
  | .i4 => 1 | .f4 => 2 | .f6 => 3 | .i8 => 4 | .f8 => 5 | .f8w => 6 | .bf16 => 7 | .fp16 => 8
  | .fp32 => 9 | .aw3 => 10 | .aw5 => 11 | .aw7 => 12 | .lg => 13

def Fmt.ofCode : Nat → Option Fmt
  | 1 => some .i4 | 2 => some .f4 | 3 => some .f6 | 4 => some .i8 | 5 => some .f8 | 6 => some .f8w
  | 7 => some .bf16 | 8 => some .fp16 | 9 => some .fp32 | 10 => some .aw3 | 11 => some .aw5
  | 12 => some .aw7 | 13 => some .lg | _ => none

/-- Element width in bits (Table 3.1). -/
def Fmt.width : Fmt → Nat
  | .i4 => 4 | .f4 => 4 | .f6 => 6 | .i8 => 8 | .f8 => 8 | .f8w => 8 | .bf16 => 16 | .fp16 => 16
  | .fp32 => 32 | .aw3 => 3 | .aw5 => 5 | .aw7 => 7 | .lg => 192

/-- Formats that carry block scales and a tensor scale (R96). -/
def Fmt.scaled : Fmt → Bool
  | .i4 | .f4 | .f6 | .i8 | .f8 | .f8w => true
  | _ => false

/-- Formats whose group is a whole row (R96). -/
def Fmt.rowScaled : Fmt → Bool
  | .i4 | .i8 => true
  | _ => false

def Fmt.weightCode : Fmt → Bool
  | .aw3 | .aw5 | .aw7 => true
  | _ => false

/-- Exponent width, mantissa width and bias of a floating format (Table 3.3). -/
def Fmt.float : Fmt → Option (Nat × Nat × Nat)
  | .f4 => some (2, 1, 1) | .f6 => some (3, 2, 3) | .f8 => some (4, 3, 7) | .f8w => some (5, 2, 15)
  | .bf16 => some (8, 7, 127) | .fp16 => some (5, 10, 15) | .fp32 => some (8, 23, 127)
  | _ => none

/-- The format maximum of a scaled format (Table 3.4). -/
def Fmt.maxFmt : Fmt → Nat
  | .i4 => 7 | .f4 => 6 | .f6 => 28 | .i8 => 127 | .f8 => 448 | .f8w => 57344 | _ => 1

/-- The reference maximum of a scaled format (Table 3.4). -/
def Fmt.maxRef : Fmt → Nat
  | .f8w => 448
  | f => f.maxFmt

/-- Significand width in a product (Table 6.4). -/
def Fmt.significand : Fmt → Nat
  | .i4 => 3 | .f4 => 2 | .f6 => 3 | .i8 => 7 | .f8 => 4 | .f8w => 3 | .bf16 => 8 | .fp16 => 11 | _ => 24

/-- Largest code magnitude of a weight code (R93). -/
def Fmt.vMax : Fmt → Nat
  | .aw3 => 3 | .aw5 => 15 | _ => 63

/-- The value of an element code, before any scale (R91 to R93). -/
def Fmt.decode (f : Fmt) (code : Nat) : Val :=
  match f.float with
  | some (eb, mb, bias) =>
    let m := code % 2 ^ mb
    let ex := code / 2 ^ mb % 2 ^ eb
    let neg := bit code (eb + mb)
    let top : Bool := ex = 2 ^ eb - 1
    let special : Option Val :=
      match f with
      | .f4 => none
      | .f6 => none
      | .f8 => if top && m = 7 then some .nan else none
      | _ => if top then (if m = 0 then some (.inf neg) else some .nan) else none
    match special with
    | some v => v
    | none =>
      if ex = 0 then .fin neg m (1 - (bias : Int) - mb)
      else .fin neg (2 ^ mb + m) ((ex : Int) - bias - mb)
  | none => Val.ofDy (Dy.ofInt (signed f.width code))

/-- The canonical quiet NaN (Table 3.7); formats without one have none. -/
def Fmt.nanCode : Fmt → Nat
  | .f8 => 0x7F | .f8w => 0x7E | .bf16 => 0x7FC0 | .fp16 => 0x7E00 | .fp32 => 0x7FC00000 | _ => 0

/-- The code of an infinity of a sign, in F8W, BF16, FP16 and FP32 (Table 3.3). -/
def Fmt.infCode (f : Fmt) (neg : Bool) : Nat :=
  match f.float with
  | some (eb, mb, _) => ofBool neg * 2 ^ (eb + mb) + (2 ^ eb - 1) * 2 ^ mb
  | none => 0

/-- Largest finite magnitude of a floating format (Table 3.3). -/
def Fmt.maxFinite : Fmt → Dy
  | .f4 => ⟨6, 0⟩ | .f6 => ⟨28, 0⟩ | .f8 => ⟨448, 0⟩ | .f8w => ⟨57344, 0⟩
  | .bf16 => ⟨255, 120⟩ | .fp16 => ⟨65504, 0⟩ | .fp32 => ⟨16777215, 104⟩
  | .i4 => ⟨7, 0⟩ | .i8 => ⟨127, 0⟩ | .aw3 => ⟨3, 0⟩ | .aw5 => ⟨15, 0⟩ | .aw7 => ⟨63, 0⟩ | .lg => ⟨1, 0⟩

/-- A finite value on the grid of a floating format: its rounded magnitude as (multiple, grid exponent), with no
upper limit to the exponent (R108, R109). -/
def gridFloat (mb : Nat) (emin : Int) (mag : Nat) (e : Int) : Nat × Int :=
  if mag = 0 then (0, emin - mb)
  else
    let x : Dy := ⟨mag, e⟩
    let g := max x.floorLog2 emin - mb
    ((x.grid g).toNat, g)

/-- A rounded magnitude as exponent and mantissa fields. -/
def packFloat (mb bias : Nat) (q : Nat) (g : Int) : Nat :=
  if q < 2 ^ mb then q
  else
    let l := q.log2
    (((l : Int) + g + bias).toNat) * 2 ^ mb + (q / 2 ^ (l - mb) - 2 ^ mb)

/-- A value rounded once into a floating format (R108 to R110): a magnitude that rounds above the largest finite
becomes an infinity, where the format has one (R114). -/
def Fmt.encodeFloat (f : Fmt) (v : Val) : Nat :=
  match f.float with
  | none => 0
  | some (eb, mb, bias) =>
    match v with
    | .nan => f.nanCode
    | .inf neg => if f = .f8 then 0x7F else f.infCode neg
    | .fin neg mag e =>
      let r := gridFloat mb (1 - (bias : Int)) mag e
      let sign := ofBool neg * 2 ^ (eb + mb)
      if Dy.le ⟨r.1, r.2⟩ f.maxFinite then sign + packFloat mb bias r.1 r.2
      else if f = .f8 then 0x7F else f.infCode neg

/-- A finite value rounded to an integer code of two's complement (R92, R108, R110). -/
def Fmt.encodeInt (f : Fmt) (v : Val) : Nat := twos f.width (v.toDy.grid 0)

/-- An element code for a value already divided by its scales. -/
def Fmt.encode (f : Fmt) (v : Val) : Nat :=
  match f.float with
  | some _ => f.encodeFloat v
  | none => f.encodeInt v

/-! ### FP32 arithmetic (R108, R109, R114, R116) -/

def F32.val (x : F32) : Val := Fmt.fp32.decode x.toNat
def F32.ofVal (v : Val) : F32 := BitVec.ofNat 32 (Fmt.fp32.encodeFloat v)
def F32.ofDy (x : Dy) : F32 := F32.ofVal (Val.ofDy x)
def F32.zero : F32 := 0
def F32.one : F32 := 0x3F800000
def F32.nan : F32 := 0x7FC00000

/-- The exact sum of two values; opposite infinities, or a NaN, give NaN. -/
def Val.add : Val → Val → Val
  | .nan, _ => .nan
  | _, .nan => .nan
  | .inf a, .inf b => if a = b then .inf a else .nan
  | .inf a, _ => .inf a
  | _, .inf b => .inf b
  | .fin n1 m1 e1, .fin n2 m2 e2 =>
    if m1 = 0 ∧ m2 = 0 then .fin (n1 && n2) 0 0
    else Val.ofDy ((Val.fin n1 m1 e1).toDy.add (Val.fin n2 m2 e2).toDy)

/-- The exact product of two values; 0 × ∞, or a NaN, gives NaN. -/
def Val.mul : Val → Val → Val
  | .nan, _ => .nan
  | _, .nan => .nan
  | .inf a, .inf b => .inf (a != b)
  | .inf a, .fin b m _ => if m = 0 then .nan else .inf (a != b)
  | .fin a m _, .inf b => if m = 0 then .nan else .inf (a != b)
  | .fin a m1 e1, .fin b m2 e2 => .fin (a != b) (m1 * m2) (e1 + e2)

def F32.add (x y : F32) : F32 := F32.ofVal (Val.add (F32.val x) (F32.val y))
def F32.mul (x y : F32) : F32 := F32.ofVal (Val.mul (F32.val x) (F32.val y))
def F32.neg (x : F32) : F32 := F32.ofVal (F32.val x).negate
def F32.sub (x y : F32) : F32 := F32.add x (F32.neg y)

/-- A quotient of finite magnitudes to 60 bits or more, with a sticky low bit: rounding it rounds the exact quotient. -/
def quotSticky (a b : Dy) : Dy :=
  let sh := 64 + b.m.natAbs.log2 + 1
  let n := a.m.natAbs * 2 ^ sh
  let q := n / b.m.natAbs
  ⟨2 * q + (if n % b.m.natAbs = 0 then 0 else 1 : Nat), a.e - b.e - sh - 1⟩

/-- Correctly rounded FP32 quotient (R175, R251). -/
def F32.div (x y : F32) : F32 :=
  match F32.val x, F32.val y with
  | .nan, _ => F32.nan
  | _, .nan => F32.nan
  | .inf _, .inf _ => F32.nan
  | .inf a, .fin b _ _ => F32.ofVal (.inf (a != b))
  | .fin a _ _, .inf b => F32.ofVal (.fin (a != b) 0 0)
  | .fin a m1 e1, .fin b m2 e2 =>
    if m2 = 0 then (if m1 = 0 then F32.nan else F32.ofVal (.inf (a != b)))
    else if m1 = 0 then F32.ofVal (.fin (a != b) 0 0)
    else
      let q := quotSticky ⟨m1, e1⟩ ⟨m2, e2⟩
      F32.ofVal (.fin (a != b) q.m.toNat q.e)

/-- The largest r with r² ≤ n, from the top bit down. -/
def sqrtBits (n : Nat) : Nat → Nat → Nat
  | 0, r => r
  | k + 1, r =>
    let c := r + 2 ^ k
    sqrtBits n k (if c * c ≤ n then c else r)

def natSqrt (n : Nat) : Nat := sqrtBits n (n.log2 / 2 + 1) 0

/-- Correctly rounded FP32 square root (R181, R251). -/
def F32.sqrt (x : F32) : F32 :=
  match F32.val x with
  | .nan => F32.nan
  | .inf neg => if neg then F32.nan else F32.ofVal (.inf false)
  | .fin neg m e =>
    if m = 0 then F32.ofVal (.fin neg 0 0)
    else if neg then F32.nan
    else
      let sh := 2 * 64 + (if e % 2 = 0 then 0 else 1 : Nat)
      let n := m * 2 ^ sh
      let r := natSqrt n
      F32.ofVal (.fin false (2 * r + (if r * r = n then 0 else 1)) ((e - sh) / 2 - 1))

def bf16Round (v : Val) : Val := Fmt.bf16.decode (Fmt.bf16.encodeFloat v)

/-! ### Scaled groups (R96 to R100, R111 to R118) -/

/-- Elements of one group: columns of a row that share an E8M0 byte (R96). -/
def Fmt.groupOf (f : Fmt) (cols r c : Nat) : Nat :=
  if f.rowScaled then r else r * ceilDiv cols 32 + c / 32

/-- The value of a stored element: its code under its group's byte and the tensor scale (R96, R97). -/
def Fmt.value (f : Fmt) (code ebyte : Nat) (sExp : Int) : Val :=
  if f.scaled then
    if ebyte = 255 then .nan else (f.decode code).scale ((ebyte : Int) - 127 + sExp)
  else f.decode code

/-- The largest finite magnitude among values, zero where there is none (R103, R118). -/
def amaxOf (vals : List Val) : Dy :=
  vals.foldl (fun a v => if v.isFinite then Dy.max a v.toDy.abs else a) Dy.zero

/-- The smallest e with a ≤ M × 2^(e + s), for a > 0. -/
def fitExp (a : Dy) (maxFmt : Nat) (sExp : Int) : Int :=
  let m : Dy := Dy.ofInt maxFmt
  let c := a.floorLog2 - m.floorLog2 - sExp
  if a.le (m.scale (c - 1 + sExp)) then c - 1
  else if a.le (m.scale (c + sExp)) then c
  else c + 1

/-- The block exponent of a group: the smallest from −127 at which every finite magnitude fits (R100, R118). -/
def blockExp (f : Fmt) (vals : List Val) (sExp : Int) : Int :=
  let a := amaxOf vals
  if a.isZero then -127 else max (-127) (fitExp a f.maxFmt sExp)

/-- NaN and infinity in a format that cannot encode them make the group a NaN group (R117). -/
def nanGroup (f : Fmt) (vals : List Val) : Bool :=
  match f with
  | .f4 | .f6 | .i4 | .i8 => vals.any fun v => !v.isFinite
  | _ => false

/-- Whether a group overflows at cap 0 (R100); a NaN group has no element to overflow (log 22). -/
def groupCap (f : Fmt) (vals : List Val) (sExp : Int) : Nat :=
  if f.scaled && !nanGroup f vals then (blockExp f vals sExp).toNat else 0

/-- A converted group: its byte and its codes. -/
structure Group where
  ebyte : Nat
  codes : List Nat
  deriving DecidableEq, Repr

/-- A group converted at a cap that holds it (R100, R108, R117). `nanCodes` supplies the codes of a NaN group. -/
def convertGroup (f : Fmt) (vals : List Val) (sExp : Int) (nanCodes : Nat → Nat) : Group :=
  if nanGroup f vals then ⟨255, (List.range vals.length).map fun i => nanCodes i % 2 ^ f.width⟩
  else
    let e := blockExp f vals sExp
    ⟨(127 + e).toNat, vals.map fun v => f.encode (v.scale (-(e + sExp)))⟩

/-- An overflowing element in Orvane mode (Table 3.6). -/
def orvaneCode (f : Fmt) (v : Val) : Nat :=
  let neg := decide (v.toDy.m < 0)
  match f with
  | .f8 => 0x7F
  | .f8w => f.infCode neg
  | .i4 | .i8 => twos f.width (if neg then -(f.maxFmt : Int) else f.maxFmt)
  | _ => ofBool neg * 2 ^ (f.width - 1) + f.encodeFloat (Val.ofDy (Dy.ofInt f.maxFmt))

/-- A group converted in Orvane mode, cap 0 (R115). -/
def convertGroupOrvane (f : Fmt) (vals : List Val) (sExp : Int) (nanCodes : Nat → Nat) : Group :=
  if nanGroup f vals then ⟨255, (List.range vals.length).map fun i => nanCodes i % 2 ^ f.width⟩
  else
    let e := min 0 (blockExp f vals sExp)
    let limit := (Dy.ofInt f.maxFmt).scale (e + sExp)
    ⟨(127 + e).toNat, vals.map fun v =>
      if v.isFinite && Dy.lt limit v.toDy.abs then orvaneCode f v else f.encode (v.scale (-(e + sExp)))⟩

/-- ⌈log2(x)⌉ clamped to the range of a tensor scale (R98, R99). -/
def clampScale (k : Int) : Int := max (-96) (min 96 k)

/-- The tensor scale exponent for an estimate and headroom (R99). -/
def tensorScaleExp (f : Fmt) (est : Dy) (headroomLog2 : Nat) : Int :=
  if est.isZero then -96
  else
    let a := est.scale headroomLog2
    let c := a.floorLog2 - (Dy.ofInt f.maxRef).floorLog2
    clampScale (if a.le ((Dy.ofInt f.maxRef).scale (c - 1)) then c - 1
      else if a.le ((Dy.ofInt f.maxRef).scale c) then c else c + 1)

/-- The tensor scale exponent ⌈log2(A / M_fmt)⌉, 2^0 when A is 0 (R197, R273). -/
def ceilingScaleExp (f : Fmt) (a : Dy) : Int :=
  if a.isZero then 0
  else
    let c := a.floorLog2 - (Dy.ofInt f.maxFmt).floorLog2
    clampScale (if a.le ((Dy.ofInt f.maxFmt).scale (c - 1)) then c - 1
      else if a.le ((Dy.ofInt f.maxFmt).scale c) then c else c + 1)

/-- The FP32 word of the tensor scale 2^k. -/
def scaleWord (k : Int) : Nat := ((k + 127).toNat) * 2 ^ 23

/-- The exponent k of an FP32 word that is a power of two within R98. -/
def scaleOfWord (w : Nat) : Option Int :=
  if w % 2 ^ 23 = 0 ∧ w < 2 ^ 31 ∧ 31 ≤ w / 2 ^ 23 ∧ w / 2 ^ 23 ≤ 223 then some ((w / 2 ^ 23 : Nat) - 127) else none

/-- The magnitude ceiling of unscaled contents (R206): 2^(x+1) for the largest ⌊log2 a⌋, 0 when all are zero. -/
def ceilingOf (amax : Dy) : Dy := if amax.isZero then Dy.zero else ⟨1, amax.floorLog2 + 1⟩

/-- Classes (R66) and the formats each permits (Table 3.2). -/
def classPermits (cls : Nat) (f : Fmt) : Bool :=
  match cls with
  | 0 => match f with
    | .i4 | .f4 | .f6 | .i8 | .f8 | .bf16 | .fp16 | .fp32 => true
    | _ => false
  | 1 => f.weightCode
  | 2 => match f with
    | .f4 | .f8w | .bf16 | .fp32 => true
    | _ => false
  | 3 => match f with
    | .bf16 | .fp32 => true
    | _ => false
  | 4 => match f with
    | .fp32 => true
    | _ => false
  | _ => false

/-- Padded columns of an image (Table 3.5). -/
def Fmt.padded (f : Fmt) (cols : Nat) : Nat := if f.scaled then 32 * ceilDiv cols 32 else cols

/-- Bytes of the elements section (Table 3.5). -/
def elementsBytes (f : Fmt) (rows cols : Nat) : Nat := rows * f.padded cols * f.width / 8

/-- Number of groups of a tensor (Table 3.5). -/
def groupCount (f : Fmt) (rows cols : Nat) : Nat :=
  if f.scaled then (if f.rowScaled then rows else rows * (f.padded cols / 32)) else 0

/-- Bytes of a tensor's image (R101). -/
def imageBytes (f : Fmt) (rows cols : Nat) : Nat :=
  if f.scaled then roundUp (elementsBytes f rows cols + groupCount f rows cols) 8 + 8 else elementsBytes f rows cols

end Sys2Proof.Machine
end

