-- ==== Sys2Proof/Machine/State.lean ====
section
/-! DEFINITION. The state of the Vornak module as plain data, its faults and refusals, and the state after reset.
Tables are sparse: a key that is not listed reads as the entry's default. -/

namespace Sys2Proof.Machine

open Sys2Proof

/-! ### Rings, receipts and items (02, 12) -/

/-- The state of a ring (Table 2.3). -/
inductive RingState where
  | idle
  | running
  | stopping
  | error
  deriving DecidableEq, Repr

/-- One of the 256 rings: its entry as loaded (Table 2.1), its indices and its errors (R46 to R58). -/
structure Ring where
  state : RingState := .idle
  error : Nat := 0
  base : Nat := 0
  log2Size : Nat := 0
  completion : Bool := false
  account : Nat := 0
  completionRing : Nat := 0
  irqData : Nat := 0
  shadow : Nat := 0
  /-- furthest index accepted, as the west and the east endpoint keep it (R50, R402) -/
  bellWest : Nat := 0
  bellEast : Nat := 0
  consumer : Nat := 0
  producer : Nat := 0
  /-- the item consumed at the index below, since the last LOAD, and its status once it has ended (R75) -/
  lastItem : Option Nat := none
  lastStatus : Option Nat := none
  /-- finished items whose receipts wait for a slot, in order of completion (R78) -/
  kept : List Nat := []
  /-- bits in which the complement half of a stored index is not its one's complement: 0 west bell, 1 east bell, 2 consumer, 3 producer
  (R267, R268) -/
  flips : Table Nat := []
  deriving DecidableEq, Repr

/-- The vault decision of a STASH (R235). -/
inductive VaultDecision where
  | none
  | ordinary
  | reserve
  | marked
  | noFit
  deriving DecidableEq, Repr

/-- A context image as saved: Table 6.7's header fields and the planes (R222), and how the placer split the block's reduction (R212). -/
structure ContextImage where
  format : Nat := 1
  rows : Nat
  cols : Nat
  first : Nat
  group : Nat
  resident : Bool
  orvane : Bool
  saver : Nat
  item : Nat
  nextStep : Nat
  lambda : Int
  acc : Table Val
  residentAcc : Table Int
  flags : Table Nat
  pending : Table (Table Val)
  span : Option (Table Val)
  epoch : Nat
  epochC : Nat
  /-- CRC-32 over the planes' bytes as they were saved -/
  check : Nat
  deriving DecidableEq, Repr

/-- The partial totals of an output block over a group of its segments (R212): cells' totals, 72-bit integers and exception flags. -/
structure Partial where
  group : Nat := 0
  vals : Table Val := []
  ints : Table Int := []
  flags : Table Nat := []
  deriving DecidableEq, Repr

/-- A clearing group as last read (R278), with its live list (R280). -/
structure Group9 where
  serial : Nat := 0
  members : List Nat := []
  live : List Nat := []
  /-- an entry of the list had a bit of [31:20] set as it was read (R277, R279) -/
  stray : Bool := false
  deriving DecidableEq, Repr

/-- What a started item has done so far. -/
structure Work where
  /-- FP32 values formed, by row-major output element (R141, R209) -/
  results : Table F32 := []
  /-- output tiles (or blocks, or units) that are final -/
  tiles : List Nat := []
  /-- K-slice values of evaluations that wait for their tree (R142): vector, slice, column packed in the key -/
  slices : Table F32 := []
  /-- spill partials by vector and column, and the evaluations whose partials have arrived (R140, R145) -/
  spills : Table F32 := []
  spilled : List Nat := []
  /-- work units finished, per pass (R258) -/
  units : List Nat := []
  pass : Nat := 1
  /-- reduction slots: partials by slot and unit, and combined values (R258) -/
  partials : Table F32 := []
  combined : Table F32 := []
  /-- context images of unfinished output blocks (R222, R224), and partial totals of split reductions (R212); by block and first K-step -/
  images : Table ContextImage := []
  nodes : Table Partial := []
  /-- the anchor λ of the item's RESIDENT accumulation, read from the ceilings when it started (R207) -/
  anchor : Option Int := none
  /-- magnitudes that overflowed, and the replay exponent (R107, R111) -/
  replay : Nat := 0
  /-- the update item's new contents, landing together (R249) -/
  staged : Bool := false
  /-- every part of the work is final -/
  final : Bool := false
  /-- a SETTLE has read the master and computed its column scales (R179) -/
  begun : Bool := false
  /-- a class-weight operand as converted when the item started: codes, group bytes, tensor scale exponent (R197) -/
  wCodes : List Nat := []
  wBytes : List Nat := []
  wExp : Int := 0
  deriving DecidableEq, Repr

/-- A journal entry (Table 12.3) with the item's slip and what recovery and completion need. -/
structure Item where
  account : Nat := 0
  ring : Nat := 0
  slipIndex : Nat := 0
  family : Nat := 0
  opcode : Nat := 0
  stage : Nat := 0
  recoveries : Nat := 0
  fault : Nat := 0
  status : Nat := 0
  flags : Nat := 0
  doneUnits : Nat := 0
  producer : Nat := 0
  progress : Nat := 0
  context : Nat := 0
  epoch : Nat := 0
  /-- the 512 bits of the slip as read -/
  slip : Nat := 0
  rejectOffset : Nat := 0
  aux0 : Nat := 0
  aux1 : Nat := 0
  /-- block-time in ns, and whether any was used (R358) -/
  blockTime : Nat := 0
  /-- the item consumed at the index one below, and its status once it has ended (R75) -/
  prev : Option Nat := none
  prevStatus : Option Nat := none
  /-- PRE_WAIT: the time of issue, and whether it is satisfied (R321) -/
  preWaitAt : Option Nat := none
  preWaitDone : Bool := false
  /-- the wait of a WAIT slip -/
  waitAt : Option Nat := none
  waitDone : Bool := false
  /-- when the slip was consumed, or the later of its AFTER_PREVIOUS and PRE_WAIT conditions was met (R247, R290; log 29) -/
  readyAt : Nat := 0
  /-- since when a SETTLE that is ready waits for the forward pin or for another SETTLE (R179, R232) -/
  stampSince : Option Nat := none
  /-- a STOP or REMOVE has ended the item, which runs on to its stopping point (R467) -/
  stopping : Bool := false
  /-- group table read of a CLEAR is complete, and the group as that read left it (R278) -/
  groupRead : Bool := false
  group : Group9 := {}
  /-- last moment of progress of a CLEAR (R290) -/
  progressAt : Nat := 0
  decision : VaultDecision := .none
  decisionBytes : Nat := 0
  /-- the step record an update item reads at its start: words 0 to 7 (R248) -/
  snapshot : List Nat := []
  /-- values of the struck copy in force at the start (R197) -/
  struckVersion : Nat := 0
  work : Work := {}
  deriving DecidableEq, Repr

/-! ### Accounts (11, 07, 09) -/

/-- An account's parameters (Table 11.1, Table 15.4), "zero selects" already applied. -/
structure Params where
  sramQuota : Nat := 0
  hbmQuota : Nat := 0
  vaultQuota : Nat := 0
  fallbackQuota : Nat := 0
  contextSlots : Nat := 0
  decks : Nat := 0
  workingCopies : Nat := 0
  tallies : Nat := 0
  tickets : Nat := 0
  weight : Nat := 16
  deadline : Nat := 30000
  headroomLog2 : Nat := 2
  orvane : Bool := false
  clip : Bool := false
  groupTable : Nat := 0
  deriving DecidableEq, Repr

/-- HBM extents: their numbers, by stack (R270). -/
abbrev Extents := Table (List Nat)

/-- Where an object lies: in the SRAM of a region, or in HBM extents (R270, R349). -/
structure Place where
  sram : Option Nat := none
  extents : Extents := []
  deriving DecidableEq, Repr

/-- A vault entry or mark (R237), its place, and the journal item that made it, whose number is its order of consumption (R274, R275). -/
structure VaultEntry where
  mark : Bool := false
  reserve : Bool := false
  bytes : Nat := 0
  fmt : Fmt := .fp32
  rows : Nat := 0
  cols : Nat := 0
  sExp : Int := 0
  codes : Table Nat := []
  ebytes : Table Nat := []
  fill : Option Nat := none
  ceil : Dy := Dy.zero
  /-- in SRAM, or in the extents of the account's vault reservation (R274) -/
  place : Place := {}
  /-- complement halves of the entry's critical values that do not match: 0 tensor scale, 1 ceiling, 3 + g a group's scale byte (R267) -/
  flips : Table Nat := []
  sequence : Nat := 0
  poison : Nat := 0
  deriving DecidableEq, Repr

/-- One copy of the step record (Table 7.2): words 0 to 7 and their complements. -/
structure StepCopy where
  words : List Nat := [0, 0, 0, 0, 0, 0, 0, 0]
  complements : List Nat := List.replicate 8 (2 ^ 64 - 1)
  deriving DecidableEq, Repr

structure Account where
  params : Params := {}
  /-- a REMOVE is ending the account (R363) -/
  removing : Bool := false
  step : Both StepCopy := ⟨{}, {}⟩
  staged : List Nat := [0, 0, 0, 0, 0, 0, 0]
  /-- both copies failed and no commit has succeeded since (R230) -/
  stepLost : Bool := false
  /-- committed step numbers, newest first, and how many were committed (R104, R183) -/
  history : List Nat := []
  commits : Nat := 0
  vault : Table VaultEntry := []
  /-- the first STASH of a run that did not fit, and the marks decided, under the step number (R235, R237) -/
  runStart : Option Nat := none
  marks : Nat := 0
  groups : Table Group9 := []
  /-- the ring to serve next among those with ready items (R75) -/
  robin : Nat := 0
  /-- HBM extents of the whole vault quota (R274), and of the context slots (R343, R361) -/
  vaultExtents : Extents := []
  slotExtents : Extents := []
  /-- SRAM reservation after a region fence, MiB (R352) -/
  sramCut : Nat := 0
  deriving DecidableEq, Repr

/-! ### Objects (02, 03, 05, 10) -/

/-- Where part of a weight tile lies: deck-array, first row of K, rows, first column, columns (R350). -/
structure TilePart where
  deck : Nat
  firstRow : Nat
  rows : Nat
  firstCol : Nat
  cols : Nat
  deriving DecidableEq, Repr

/-- A tensor: its shape, the current version's contents (R96, R106), its estimate (R103 to R107) and, for class
weight, its columns' scales, tiles and fallback conversion (R175, R243, R350). -/
structure Tensor where
  rows : Nat := 0
  cols : Nat := 0
  fmt : Fmt := .fp32
  cls : Nat := 0
  sExp : Int := 0
  codes : Table Nat := []
  ebytes : Table Nat := []
  /-- undefined contents number, where the manual leaves the contents undefined -/
  fill : Option Nat := none
  ceil : Dy := Dy.zero
  poison : Nat := 0
  versionStep : Nat := 0
  corrected : Bool := false
  raised : Dy := Dy.zero
  /-- commits of the account at the correction `raised` and, in `observed`, at each observation (R103, R104, R107) -/
  raisedAt : Nat := 0
  observed : List (Nat × Dy) := []
  /-- tensor scale exponent of the version begun, whether nothing of it is written yet, and the item that began it (R106) -/
  vExp : Int := 0
  began : Bool := false
  beganBy : Nat := 0
  stamp : Nat := 0
  scales : Table F32 := []
  scaledCols : List Nat := []
  tiles : Table (List TilePart) := []
  pinned : Option Nat := none
  struckVersion : Nat := 0
  fallbackFmt : Option Fmt := none
  fallbackVersion : Nat := 0
  charge : Nat := 0
  fallbackCharge : Nat := 0
  deckCharge : Nat := 0
  /-- where the image lies; for class weight, where its fallback conversion lies (R242, R349) -/
  place : Place := {}
  /-- bits in which the complement half of a critical value is not its one's complement: 0 tensor scale, 1 ceiling, 2 amax estimate,
  3 + g the scale byte of group g; none listed when every value is sound (R267, R268) -/
  flips : Table Nat := []
  deriving DecidableEq, Repr

/-- A waiter of a tally's queue (Table 10.9). -/
structure Waiter where
  item : Nat
  m : Nat
  waitSlip : Bool
  held : Bool := false
  deriving DecidableEq, Repr

/-- A history entry of a tally (Table 10.9). -/
structure SignalEntry where
  item : Nat
  n : Nat
  source : Nat
  refused : Bool
  stamp : Nat
  count : Nat
  deriving DecidableEq, Repr

/-- A tally record (Table 10.1), its queue, its history and the unit that holds it. -/
structure Tally where
  count : Nat := 0
  countC : Nat := 2 ^ 32 - 1
  capacity : Nat := 1
  account : Nat := 0
  state : Nat := 1
  number : Nat := 0
  signals : Nat := 0
  lastFault : Nat := 0
  lastStamp : Nat := 0
  region : Nat := 0
  queue : List Waiter := []
  history : List SignalEntry := []
  deriving DecidableEq, Repr

/-- A kernel image object (Table 8.3, R256). -/
structure Image where
  bytes : Memory := []
  length : Nat := 0
  states : Nat := 0
  inputs : Nat := 0
  outputs : Nat := 0
  passes : Nat := 1
  reductions : Nat := 0
  vks : Nat := 0
  charge : Nat := 0
  place : Place := {}
  poison : Nat := 0
  deriving DecidableEq, Repr

/-! ### Blocks and units (01, 12, 15) -/

/-- A fault record (Table 12.1). -/
structure FaultRecord where
  code : Nat
  source : Nat
  sub : Nat := 0
  action : Nat := 0
  repeats : Nat := 0
  detail0 : Nat := 0
  detail1 : Nat := 0
  item : Nat := 0
  stamp : Nat := 0
  /-- when it was recorded, on the reference timer (R366's second) -/
  recordedAt : Nat := 0
  deriving DecidableEq, Repr

/-- A telemetry counter: 48 bits and its wrap flag (Table 15.6). -/
structure Counter where
  value : Nat := 0
  wrap : Bool := false
  deriving DecidableEq, Repr

/-- Every block and unit of Table 1.2: fault register, epoch, fences, throttling, counters (R25, R365, R388, R458). -/
structure Island where
  faults : List FaultRecord := []
  overwritten : Nat := 0
  epoch : Nat := 0
  epochC : Nat := 2 ^ 64 - 1
  fenced : Bool := false
  fencedAt : Nat := 0
  fences : Nat := 0
  withdrawn : Bool := false
  /-- items that used the block when it was fenced, still to be accounted for from the journal (R29) -/
  struck : List Nat := []
  pulseAt : Nat := 0
  droopSteps : Nat := 0
  droopAt : Nat := 0
  tempSteps : Nat := 0
  tempAt : Nat := 0
  celsius8 : Int := 0
  /-- the island counter's value and the reading of the timer at which it stood there (R328) -/
  countBase : Nat := 0
  countAt : Nat := 0
  counters : Table Counter := []
  latched : Table Counter := []
  sample : Nat := 0
  stamp : Nat := 0
  deriving DecidableEq, Repr

/-! ### Analogue arrays and deck-arrays (04, 05) -/

/-- A row's wear record (Table 5.6) with its credit and its settlements in the past hour (R182, R183). -/
structure Wear where
  pulses : Nat := 0
  settlements : Nat := 0
  lastDay : Nat := 0
  debased : Bool := false
  failed : Bool := false
  credit : Nat := 0
  creditBase : Nat := 0
  recent : List Nat := []
  deriving DecidableEq, Repr

/-- A binding record (R190), with the rows its tile skips (R350), and the CRC-32 over it as flash holds it. -/
structure Binding where
  account : Nat
  number : Nat
  tile : Nat
  part : TilePart
  fmt : Fmt
  rows : Nat
  cols : Nat
  scales : Table F32
  skip : List Nat := []
  check : Nat := 0
  deriving DecidableEq, Repr

/-- One deck of one array (R172 to R190). -/
structure Deck where
  /-- the tensor's handle, its tile, and the part mapped here -/
  bound : Option (Nat × Nat × TilePart) := none
  /-- rows that were debased when the tile was bound: its rows skip them (R350) -/
  skip : List Nat := []
  /-- struck copy, two bytes a pair: true level in [7:0], complement level in [15:8] (R172); pair p of row r at 768 r + p -/
  struck : Table Nat := []
  /-- levels an assay has measured and not yet applied (R168) -/
  measured : Option (Table Nat) := none
  /-- an SRAM working copy is present (R173) -/
  working : Bool := false
  wear : Table Wear := []
  /-- tracking gain as a count of 2^-16 from 1.0 (R164) -/
  gain : Int := 0
  /-- gain and offset trims by pair-column, in 2^-16 (R166) -/
  gainTrims : Table Int := []
  offsetTrims : Table Int := []
  /-- reference pair-columns: number, true level, complement level of every row (Table 5.2) -/
  refs : List (Nat × Nat × Nat) := [(768, 0, 0), (769, 3, 0), (770, 0, 3), (771, 2, 1)]
  /-- latest results of REF0 and REF3, by pair-column, kept for assay (R164) -/
  refResults : Table Int := []
  /-- class of Table 5.1 in force, 1 + 2 × band of Tj + aged, 0 none; and the read errors under it, newest first, by pair-column (R161) -/
  errorClass : Nat := 0
  errors : Table (List Int) := []
  /-- since when Tj has stood more than 8 °C from that of the latest assay (R167, R169) -/
  triggerAt : Option Nat := none
  assayed : Bool := false
  assayAt : Nat := 0
  assayTj : Int := 0
  due : Option Nat := none
  degraded : Bool := false
  badRun : Nat := 0
  goodRun : Nat := 0
  withdrawn : Bool := false
  /-- released and not yet zero-programmed and assayed (R360) -/
  dirty : Bool := false
  holds : List Nat := []
  /-- the deck a tile moves away from, to be zero-programmed (R187) -/
  leaving : Bool := false
  /-- the code each weight was last programmed to, in 7 bits, at 512 row + column (R185, R187) -/
  targets : Table Nat := []
  /-- the binding record, when it changed since it was written, and the record in flash (R190) -/
  binding : Option Binding := none
  bindingDirty : Option Nat := none
  flash : Option Binding := none
  /-- exempt passes begun since the last wear image, as flash records them (R189) -/
  exempt : Nat := 0
  deriving DecidableEq, Repr

/-- One array of an AAB. -/
structure ArrayState where
  busyUntil : Nat := 0
  reading : Bool := false
  ballast : Bool := false
  reference : Option Nat := none
  deriving DecidableEq, Repr

/-- A result in the output buffer: the evaluation's item, vector and deck-array, its column values, and the cycle they are ready. -/
structure OutputSlot where
  item : Nat
  vector : Nat
  deck : Nat
  values : List F32
  readyAt : Nat
  deriving DecidableEq, Repr

structure Aab where
  arrays : Table ArrayState := []
  /-- input slots hold an item's vector, until the last evaluation that reads it has ended (R150) -/
  inputs : Table (Nat × Nat × Nat) := []
  outputs : Table OutputSlot := []
  descriptors : List Nat := []
  lastRise : Option Nat := none
  lastFall : Option Nat := none
  movedAt : Option Nat := none
  deriving DecidableEq, Repr

/-! ### DTBs and tellers (06, 08) -/

/-- A DTB and the output block its cells hold (R191 to R224). -/
structure Dtb where
  item : Option Nat := none
  blockRow : Nat := 0
  blockCol : Nat := 0
  /-- the block's number in the output, and the group of 2^group segments from K-step `first` that this DTB reduces; 8: all of them (R212) -/
  block : Nat := 0
  first : Nat := 0
  group : Nat := 8
  nextStep : Nat := 0
  resident : Bool := false
  orvane : Bool := false
  lambda : Int := 0
  /-- CHUNKED: segment totals; RESIDENT: 72-bit integers; exception flags: bit 0 NaN, 1 +Inf, 2 −Inf; cell (r,c) at 128 r + c -/
  acc : Table Val := []
  residentAcc : Table Int := []
  flags : Table Nat := []
  /-- combine buffer: pending tree nodes by level and the span total (R203) -/
  pending : Table (Table Val) := []
  span : Option (Table Val) := none
  /-- operand space: the left and right elements of the last K-range filled, at 8192 r + k and 128 k + c (R196, R198) -/
  left : Table Val := []
  right : Table Val := []
  /-- drain registers: the totals of the last segment finished (R198) -/
  drain : Table Val := []
  busyUntil : Nat := 0
  /-- row groups active at `busyUntil`, and the cycles of the last rise and fall of their number (R194) -/
  active : Nat := 0
  lastRise : Option Nat := none
  lastFall : Option Nat := none
  account : Option Nat := none
  deriving DecidableEq, Repr

/-- A thread context of a teller (Table 8.1). -/
structure Thread where
  item : Option Nat := none
  account : Option Nat := none
  unit : Nat := 0
  startedAt : Nat := 0
  statePointer : Nat := 0
  readyAt : Nat := 0
  reads : Nat := 0
  writes : Nat := 0
  drained : Nat := 0
  registers : Table Word32 := []
  unitCounter : Nat := 0
  deriving DecidableEq, Repr

structure Teller where
  threads : Table Thread := []
  /-- configuration store: four resident images by handle -/
  store : Table Nat := []
  current : Option Nat := none
  robin : Nat := 0
  busyUntil : Nat := 0
  deriving DecidableEq, Repr

/-! ### SRAM and HBM (08, 13) -/

structure Bank where
  bytes : Memory := []
  upsets : Table Nat := []
  poisoned : List Nat := []
  writebacks : List Nat := []
  /-- cycles that the ports have run, and the requests that wait at each, oldest first (R262) -/
  cycle : Nat := 0
  readPort : List PortRequest := []
  writePort : List PortRequest := []
  /-- reads served: the cycle in which their data leaves the bank, the request, its bytes (R260) -/
  stages : List (Nat × PortRequest × List Byte) := []
  /-- item and bytes of the read data that leave in the present cycle -/
  data : Option (Nat × List Byte) := none
  /-- cycles of the last 65,536 in which a port served background while foreground waited (R454) -/
  readShare : List Nat := []
  writeShare : List Nat := []
  deriving DecidableEq, Repr

structure Stack where
  fittedGib : Nat := 0
  rate : Nat := 96
  fenced : Bool := false
  bytes : Memory := []
  zeroTags : List Nat := []
  upsets : Table Nat := []
  poisoned : List Nat := []
  refreshes : Nat := 0
  refreshRate : Nat := 0
  /-- item and bytes of the latest read (R271) -/
  data : Option (Nat × List Byte) := none
  deriving DecidableEq, Repr

/-! ### Clearing and the fabric (09, 13) -/

/-- A ticket record (Table 9.5) with what the clearing engine keeps beside it. -/
structure Ticket where
  ticket : Nat := 0
  ticketC : Nat := 2 ^ 32 - 1
  half : Half := .west
  account : Nat := 0
  role : Nat := 0
  group : Nat := 0
  owner : Nat := 0
  ring : Bool := false
  distribute : Bool := false
  toDeputy : Bool := false
  transitF4 : Bool := false
  scaleExp : Int := 0
  contributors : Nat := 0
  granted : Nat := 0
  finished : Nat := 0
  state : Nat := 0
  serial : Nat := 0
  poisonCount : Nat := 0
  firstPoison : Nat := 0
  dustCount : Nat := 0
  rows : Nat := 0
  cols : Nat := 0
  /-- receivers that granted this ticket's offer, senders this ticket granted, and offers out -/
  grantsIn : List Nat := []
  grantsOut : List Nat := []
  offered : List Nat := []
  busyAt : Table Nat := []
  /-- the item's member list, with its live list (R278, R280) -/
  list : Group9 := {}
  /-- transit blocks worked at a hop, or image units received (R301, R304) -/
  passed : Nat := 0
  /-- the ledger lies in SRAM, spread over the regions of the ticket's half, or else in HBM (R295, R309) -/
  inSram : Bool := false
  extents : Extents := []
  /-- ledger elements L and poisoned elements (R294, R297) -/
  ledger : Table Int := []
  poisoned : List Nat := []
  ownAdded : Bool := false
  /-- blocks received per peer, and whether its LAST frame came (R298) -/
  blocksFrom : Table Nat := []
  lastFrom : List Nat := []
  /-- frames of a ring that wait to be forwarded -/
  inbox : List VfFrame := []
  /-- a DISTRIBUTE's image and the ceiling that came with its offer (R304) -/
  bytes : Memory := []
  ceiling : Dy := Dy.zero
  escalated : Bool := false
  sentAll : Bool := false
  deriving DecidableEq, Repr

/-- A held offer (R288). -/
structure HeldOffer where
  frame : VfFrame
  half : Half
  port : Nat
  arrived : Nat
  deriving DecidableEq, Repr

/-- A frame that waits for its acknowledgement (R307). -/
structure Unacked where
  sequence : Nat
  frame : VfFrame
  plane : Nat
  port : Nat
  sentAt : Nat
  misses : Nat := 0
  deriving DecidableEq, Repr

/-- A peer context, both directions (R307, R409), and the planes' state toward the peer. -/
structure PeerContext where
  sendOpen : Bool := false
  sendIncarnation : Nat := 0
  nextSequence : Nat := 0
  unacked : List Unacked := []
  queued : List (VfFrame × Nat) := []
  recvOpen : Bool := false
  recvIncarnation : Nat := 0
  expected : Nat := 0
  waiting : Table VfFrame := []
  /-- last activity of each direction's context (R307) -/
  sendActive : Nat := 0
  recvActive : Nat := 0
  /-- incarnations of the last 10 s: those this half closed, and those it used toward the peer -/
  closedRecv : List (Nat × Nat) := []
  usedSend : List (Nat × Nat) := []
  /-- per plane: consecutive misses, and the moment it went down -/
  misses : Table Nat := []
  downSince : Table Nat := []
  probedAt : Table Nat := []
  deriving DecidableEq, Repr

structure Port where
  phy : Nat := 0
  highLanes : Bool := false
  fullWidth : Bool := false
  state : Nat := 0
  lanesFailed : List Nat := []
  narrowed : Bool := false
  deriving DecidableEq, Repr

/-! ### Sharing (11) -/

structure Pool where
  deficit : Table Int := []
  pointer : Nat := 0
  /-- the block served last, by account (R30) -/
  blocks : Table Nat := []
  deriving DecidableEq, Repr

structure Grant where
  account : Nat := 0
  start : Nat := 0
  quantum : Nat := 0
  charge : Nat := 0
  active : Bool := false
  deriving DecidableEq, Repr

/-! ### Stewards and recovery (12) -/

structure Steward where
  fenced : Bool := false
  fencedAt : Nat := 0
  withdrawn : Bool := false
  fences : Nat := 0
  heartbeatAt : Nat := 0
  /-- its belief that it holds the charter, its epoch and renewal count -/
  holder : Bool := false
  epoch : Nat := 0
  renewals : Nat := 0
  renewedAt : Nat := 0
  /-- the witness record it last read, and since when it has read unchanged (R387) -/
  seenEpoch : Nat := 0
  seenRenewals : Nat := 0
  seen : Bool := false
  unchangedSince : Nat := 0
  corruptWitness : Bool := false
  rereadAt : Nat := 0
  /-- the other half's hub has reported its own steward fenced (R371) -/
  peerFenced : Bool := false
  /-- renewal reports from the other half: the last one's time (R371) -/
  reportAt : Option Nat := none
  witnessLost : Bool := false
  /-- its journal as it stood when the steward was fenced or restarted; none while it mirrors the journal (R32) -/
  mirror : Option (Table Item) := none
  firmware : Nat := 0
  slotB : Bool := false
  restarting : Bool := false
  restartRequested : Bool := false
  firmwareDigest : Nat := 0
  deriving DecidableEq, Repr

/-- A recovery domain (R381 ff.). -/
inductive Domain where
  | region (r : Nat)
  | half (h : Half)
  | peer (p : Nat)
  deriving DecidableEq, Repr

structure Recovery where
  domain : Domain
  code : Nat
  block : Nat
  recorded : Nat
  bound : Nat
  /-- words that a region's salvage poisoned (R370) -/
  words : Nat := 0
  deriving DecidableEq, Repr

/-! ### Registers, dumps, telemetry, attestation, board management (10, 13, 14, 15) -/

structure HubRegs where
  moduleId : Nat := 0
  loadErrorRing : Nat := 0
  loadErrorCode : Nat := 0
  loadErrorCount : Nat := 0
  witnessBase : Nat := 0
  witnessWritten : Bool := false
  dumpRequest : Bool := false
  dumpOlder : Bool := false
  fwState : Nat := 0
  ringTableBase : Nat := 0
  accountTableBase : Nat := 0
  accountResult : Nat := 0
  accountCommand : Nat := 0
  accountNumber : Nat := 0
  accountCount : Nat := 0
  quantum : Nat := 2
  sramScrub : Nat := 6
  hbmScrub : Nat := 24
  telemetryBase : Nat := 0
  telemetryInterval : Nat := 0
  etherType : Nat := 0x88B5
  vlanId : Nat := 0
  vlanPcp : Nat := 0
  vlanEnable : Bool := false
  macPrefix : Nat := 0x0249
  deriving DecidableEq, Repr

/-- DMTF value types of measurement blocks (Table 14.9). -/
inductive MeasurementType where
  | immutableRom
  | mutableFirmware
  | hardwareConfiguration
  deriving DecidableEq, Repr

/-- A measurement block (R444). -/
structure Measurement where
  index : Nat
  type : MeasurementType
  digest : BitVec 256
  deriving DecidableEq, Repr

/-- What a responder answers (Table 14.8, R442 to R445). -/
inductive SpdmResponse where
  | none
  | version (major minor : Nat)
  | capabilities (cert chal : Bool) (meas : Nat) (measFresh : Bool) (dataTransfer maxMsg : Nat)
  | algorithms (hash meas asymId registry : Nat)
  | digests (slot0 : BitVec 256)
  | certificate (slot : Nat) (chain : List Byte)
  | challengeAuth (signature : Nat) (measurements : List Measurement)
  | measurements (blocks : List Measurement) (signature : Nat)
  | error (code : Nat)
  deriving DecidableEq, Repr

structure Mailbox where
  requestLength : Nat := 0
  done : Bool := false
  responseLength : Nat := 0
  request : Memory := []
  captured : List Byte := []
  response : SpdmResponse := .none
  deriving DecidableEq, Repr

/-- An exchange-rate entry (Table 10.4). -/
structure RateEntry where
  rate : Nat := 0
  islandCount : Nat := 0
  hubCount : Nat := 0
  spread : Nat := 0
  deriving DecidableEq, Repr

structure Dump where
  number : Nat
  reason : Nat
  trigger : Nat
  bytes : List Byte
  deriving DecidableEq, Repr

structure Telemetry where
  exports : Nat := 0
  exportedAt : Nat := 0
  newBase : Bool := true
  marks : Both Nat := ⟨0, 0⟩
  companionNs : Nat := 0
  companionAt : Option Nat := none
  stale : Bool := false
  deriving DecidableEq, Repr

structure I3c where
  address : Option Nat := none
  page : Nat := 0
  interrupts : Bool := false
  page0 : List Byte := List.replicate 64 0
  page4 : List Byte := List.replicate 64 0
  updatedAt : Nat := 0
  peakWatts : Nat := 0
  deriving DecidableEq, Repr

/-- An SCL endpoint's link (R394 to R399). -/
structure Link where
  /-- it has trained since power good (R431) -/
  trained : Bool := false
  lanes : Nat := 0xFFF
  width : Nat := 12
  oscillator : Bool := false
  replayFrom : Option Nat := none
  retryAt : Nat := 0
  deriving DecidableEq, Repr

/-! ### Power, start-up and flash (13, 14) -/

/-- The configuration record header (Table 14.7) and its certificate chains. -/
structure ConfigRecord where
  format : Nat := 0
  product : Nat := 0
  sku : Nat := 0
  hbmGib : Nat := 0
  keyIndex : Nat := 0
  serial : Nat := 0
  recordVersion : Nat := 0
  minFwVersion : Nat := 0
  length : Nat := 0
  certWLength : Nat := 0
  certELength : Nat := 0
  helperLength : Nat := 0
  reserved : Nat := 0
  certW : List Byte := []
  certE : List Byte := []
  deriving DecidableEq, Repr

/-- A wear image: the wear records of every deck-array, and its integrity check (R189). -/
structure WearImage where
  rows : Table (Table Wear) := []
  check : Nat := 0
  deriving DecidableEq, Repr

structure Flash where
  loaderW : Memory := []
  loaderE : Memory := []
  slotA : Memory := []
  slotB : Memory := []
  recordW : ConfigRecord := {}
  recordE : ConfigRecord := {}
  /-- the two alternating wear images, and which is newer (R189) -/
  wear0 : Option WearImage := none
  wear1 : Option WearImage := none
  newer1 : Bool := false
  wearAt : Nat := 0
  withdrawals : List Nat := []
  deriving DecidableEq, Repr

structure Power where
  enable : Bool := false
  inputInRange : Bool := false
  inputMv : Nat := 0
  rails : Nat := 0
  powerGood : Bool := false
  powerGoodAt : Nat := 0
  readyPin : Bool := false
  thermtripN : Bool := true
  thermtripSeen : Bool := false
  inOrder : Bool := true
  shuttingDown : Bool := false
  setpointsLowered : Nat := 0
  stage : Nat := 0
  record : ConfigRecord := {}
  recordValid : Bool := false
  keyMatches : Both Bool := ⟨true, true⟩
  halfFailed : Both Bool := ⟨false, false⟩
  deriving DecidableEq, Repr

/-- Messages the block sends: at the SCL endpoints, the VF ports, the I3C target and the contacts. -/
inductive Output where
  | done (ep : Half)
  | data (ep : Half) (bytes : List Byte)
  | retry (ep : Half)
  | error (ep : Half)
  | invalid (ep : Half)
  | bellForward (toward : Half) (ring index : Nat)
  | interrupt (data : Nat)
  | frame (port : Nat) (frame : VfFrame)
  | replayRequest (ep : Half) (sequence : Nat)
  /-- the endpoint replays every flit in flight -/
  | replay (ep : Half)
  | rejection (block : Nat) (toward : Half) (epoch : Nat)
  | renewalReport (toward : Half) (epoch : Nat)
  | fenceReport (toward : Half)
  | epochBroadcast (epoch : Nat)
  | i3c (bytes : List Byte)
  | i3cInterrupt (byte : Nat)
  deriving DecidableEq, Repr

/-! ### Stops -/

/-- Why the model stops with a fault. -/
inductive Fault where
  /-- Raised by a meaning whose command breaks WellFormed: it names a unit, an index or a size that the manual says does
  not exist (R40, R260, R270), or bits that spell another row. Safe: the hardware is never given such a command (log 11). -/
  | illFormed
  deriving DecidableEq, Repr

/-- Why the model refuses a command. -/
inductive Refusal where
  /-- Raised by Dispatch for a row without a meaning. Safe: nothing is claimed of it. -/
  | notModelled (mnemonic : String)
  deriving DecidableEq, Repr

/-! ### The whole state -/

structure State where
  pending : List Instr := []
  out : List Output := []
  free : Nat := 0
  now : Nat := 0
  cmem : Memory := []
  /-- the device's last write of companion memory, whose lines it may still hold (R399) -/
  lastWrite : Option (Nat × Nat) := none
  power : Power := {}
  flash : Flash := {}
  hub : HubRegs := {}
  stewards : Both Steward := ⟨{}, {}⟩
  /-- halves fenced by the loss of the bridge or of their firmware (R371, R433) -/
  halfFenced : Both Bool := ⟨false, false⟩
  bridgeUp : Bool := true
  /-- consumption pauses: the charter moves, or a hand-over is in progress (R380, R391) -/
  moving : Bool := false
  /-- both stewards were lost (R384) -/
  stopped : Bool := false
  rings : Table Ring := []
  accounts : Table Account := []
  tensors : Table Tensor := []
  tallies : Table Tally := []
  images : Table Image := []
  items : Table Item := []
  nextItem : Nat := 1
  /-- waits held by a steward because the unit's queue store is full, in arrival order: (tally, waiter) (R322) -/
  heldWaits : Table (List (Nat × Waiter)) := []
  islands : Table Island := []
  decks : Table Deck := []
  aabs : Table Aab := []
  dtbs : Table Dtb := []
  tellers : Table Teller := []
  banks : Table Bank := []
  hbmStacks : Table Stack := []
  tickets : Table Ticket := []
  offers : List HeldOffer := []
  /-- peer contexts of the west half at the module ID, of the east half at 2^20 + module ID -/
  peers : Table PeerContext := []
  lostPeers : List Nat := []
  ports : Table Port := []
  pools : Table Pool := []
  grants : Table Grant := []
  recovering : Option Recovery := none
  recoveryQueue : List Recovery := []
  links : Both Link := ⟨{}, {}⟩
  mail : Both Mailbox := ⟨{}, {}⟩
  rates : Both (Table RateEntry) := ⟨[], []⟩
  dumps : List Dump := []
  dumpCount : Nat := 0
  /-- dumps to take, oldest first: reason and fault code (R334) -/
  dumpDue : List (Nat × Nat) := []
  telemetry : Telemetry := {}
  i3c : I3c := {}
  deriving DecidableEq, Repr

/-- The machine at reset: every register at the Reset value of its field map (Tables 15.2, 15.3, 10.1, 7.2), no input
power, nothing stored; values the manual gives none for are those of log 8. -/
def State.reset : State := {}

end Sys2Proof.Machine
end

