-- ==== Sys2Proof/Machine/Ops.lean ====
section
/-! DEFINITION. The named operations over the state: block identifiers (R39, R40), fault records (R365, R366), telemetry
counters (R459), companion memory, frames out, the charter's view, and the time operand. -/

namespace Sys2Proof.Machine

open Sys2Proof

/-- What a meaning answers. -/
abbrev Result := Host.Outcome State Fault Refusal

/-! ### Block identifiers (Tables 1.5, 1.6) -/

def blockId (location kind index : Nat) : Nat := location * 2 ^ 13 + kind * 2 ^ 8 + index

def blockLocation (b : Nat) : Nat := b / 2 ^ 13
def blockKind (b : Nat) : Nat := b / 2 ^ 8 % 32
def blockIndex (b : Nat) : Nat := b % 256

/-- Index range of each kind on a region die and on a half die; 0 for a reserved kind (Table 1.6). -/
def kindCount (halfDie : Bool) (kind : Nat) : Nat :=
  if halfDie then
    match kind with
    | 0x10 | 0x11 | 0x14 | 0x15 | 0x16 => 1
    | 0x12 => 16
    | 0x13 => 4
    | _ => 0
  else
    match kind with
    | 0x00 => 42
    | 0x01 => 24
    | 0x02 => 48
    | 0x03 => 112
    | 0x04 | 0x05 | 0x06 => 1
    | _ => 0

/-- An identifier that names a block or unit of the module (R40). -/
def validBlock (b : Nat) : Bool :=
  decide (blockLocation b < 6) && decide (blockIndex b < kindCount (decide (4 ≤ blockLocation b)) (blockKind b))

def Half.location : Half → Nat
  | .west => 4
  | .east => 5

def aabBlock (i : Nat) : Nat := blockId (i / 42) 0 (i % 42)
def dtbBlock (i : Nat) : Nat := blockId (i / 24) 1 (i % 24)
def tellerBlock (i : Nat) : Nat := blockId (i / 48) 2 (i % 48)
/-- The bank group of a bank: 112 groups of 16 banks a region. -/
def bankGroupBlock (bank : Nat) : Nat := blockId (bank / 1792) 3 (bank % 1792 / 16)
def moverBlock (r : Nat) : Nat := blockId r 4 0
def tallyBlock (r : Nat) : Nat := blockId r 5 0
def switchBlock (r : Nat) : Nat := blockId r 6 0
def stewardBlock (h : Half) : Nat := blockId (Half.location h) 0x10 0
def endpointBlock (h : Half) : Nat := blockId (Half.location h) 0x11 0
def vfPortBlock (p : Nat) : Nat := blockId (4 + p / 16) 0x12 (p % 16)
def hbmBlock (stack : Nat) : Nat := blockId (4 + stack / 4) 0x13 (stack % 4)
def engineBlock (h : Half) : Nat := blockId (Half.location h) 0x14 0
def hubBlock (h : Half) : Nat := blockId (Half.location h) 0x15 0
def bridgeBlock (h : Half) : Nat := blockId (Half.location h) 0x16 0

/-- The half that serves a region (R21). -/
def halfOfRegion (r : Nat) : Half := if r < 2 then .west else .east
def halfOfPort (p : Nat) : Half := if p < 16 then .west else .east
def halfOfBlock (b : Nat) : Half :=
  if blockLocation b < 4 then halfOfRegion (blockLocation b) else if blockLocation b = 4 then .west else .east
/-- The region of a block of a region die. -/
def regionOf (b : Nat) : Option Nat := if blockLocation b < 4 then some (blockLocation b) else none

/-- Every block and unit of a location, in ascending identifier (R458). -/
def blocksOf (location : Nat) : List Nat :=
  (List.range 32).flatMap fun k => (List.range (kindCount (decide (4 ≤ location)) k)).map (blockId location k)

def allBlocks : List Nat := (List.range 6).flatMap blocksOf

/-- Deck-array numbering: ((AAB × 16) + array) × 8 + deck. -/
def deckAab (d : Nat) : Nat := d / 128
def deckArray (d : Nat) : Nat := d / 8 % 16
def deckDeck (d : Nat) : Nat := d % 8
def deckNumber (aab array deck : Nat) : Nat := aab * 128 + array * 8 + deck
def deckRegion (d : Nat) : Nat := deckAab d / 42

/-! ### Field updates of the state -/

def State.setRing (s : State) (n : Nat) (r : Ring) : State := { s with rings := put {} s.rings n r }
def State.ring (s : State) (n : Nat) : Ring := lookup {} s.rings n
def State.dropItem (s : State) (i : Nat) : State := { s with items := del s.items i }
def State.setAccount (s : State) (a : Nat) (x : Account) : State := { s with accounts := ins s.accounts a x }
def State.account? (s : State) (a : Nat) : Option Account := find s.accounts a
def State.setTensor (s : State) (h : Nat) (x : Tensor) : State := { s with tensors := ins s.tensors h x }
def State.setTally (s : State) (h : Nat) (x : Tally) : State := { s with tallies := ins s.tallies h x }
def State.setImage (s : State) (h : Nat) (x : Image) : State := { s with images := ins s.images h x }
def State.island (s : State) (b : Nat) : Island := lookup {} s.islands b
def State.setIsland (s : State) (b : Nat) (x : Island) : State := { s with islands := put {} s.islands b x }
/-- The two hubs' highest accepted epoch (R388, Table 15.2). -/
def hubEpoch (s : State) : Nat := max (s.island (hubBlock .west)).epoch (s.island (hubBlock .east)).epoch
/-- A journal entry written, under the charter epoch of the moment (Table 12.3). -/
def State.setItem (s : State) (i : Nat) (x : Item) : State := { s with items := ins s.items i { x with epoch := hubEpoch s } }
/-- Where the device keeps the item's progress map (0), its context image or its vault decision (1) (Table 12.3; log 16). -/
def Item.place (x : Item) (k : Nat) : Nat := Config.storePlace (x.ring * 2 ^ 32 + x.slipIndex) k
def State.deck (s : State) (d : Nat) : Deck := lookup {} s.decks d
def State.setDeck (s : State) (d : Nat) (x : Deck) : State := { s with decks := put {} s.decks d x }
def State.aab (s : State) (a : Nat) : Aab := lookup {} s.aabs a
def State.setAab (s : State) (a : Nat) (x : Aab) : State := { s with aabs := put {} s.aabs a x }
def State.dtb (s : State) (d : Nat) : Dtb := lookup {} s.dtbs d
/-- A DTB whose cells are free: its ramp runs on (R194). -/
def Dtb.freed (d : Dtb) : Dtb := { busyUntil := d.busyUntil, active := d.active, lastRise := d.lastRise, lastFall := d.lastFall, account := d.account }
def State.setDtb (s : State) (d : Nat) (x : Dtb) : State := { s with dtbs := put {} s.dtbs d x }
def State.teller (s : State) (f : Nat) : Teller := lookup {} s.tellers f
def State.setTeller (s : State) (f : Nat) (x : Teller) : State := { s with tellers := put {} s.tellers f x }
def State.bank (s : State) (b : Nat) : Bank := lookup {} s.banks b
def State.setBank (s : State) (b : Nat) (x : Bank) : State := { s with banks := put {} s.banks b x }
def State.stack (s : State) (k : Nat) : Stack := lookup {} s.hbmStacks k
def State.setStack (s : State) (k : Nat) (x : Stack) : State := { s with hbmStacks := put {} s.hbmStacks k x }
def State.setTicket (s : State) (i : Nat) (x : Ticket) : State := { s with tickets := ins s.tickets i x }
def State.dropTicket (s : State) (i : Nat) : State := { s with tickets := del s.tickets i }
def peerKey (h : Half) (peer : Nat) : Nat := (match h with | .west => 0 | .east => 2 ^ 20) + peer
def State.peer (s : State) (h : Half) (p : Nat) : PeerContext := lookup {} s.peers (peerKey h p)
def State.setPeer (s : State) (h : Half) (p : Nat) (x : PeerContext) : State :=
  { s with peers := put {} s.peers (peerKey h p) x }
def State.port (s : State) (p : Nat) : Port := lookup {} s.ports p
def State.setPort (s : State) (p : Nat) (x : Port) : State := { s with ports := put {} s.ports p x }
def State.steward (s : State) (h : Half) : Steward := s.stewards.get h
def State.setSteward (s : State) (h : Half) (x : Steward) : State := { s with stewards := s.stewards.set h x }
def State.setHub (s : State) (x : HubRegs) : State := { s with hub := x }
def State.setPower (s : State) (x : Power) : State := { s with power := x }
def State.setLink (s : State) (h : Half) (x : Link) : State := { s with links := s.links.set h x }

/-- A message leaves the block. -/
def State.emit (s : State) (o : Output) : State := { s with out := s.out ++ [o] }

/-- The reference timer has reached `t` (log 3). -/
def State.at (s : State) (t : Nat) : State := { s with now := max s.now t }

/-- The free value of the moment has been used (log 9). -/
def State.tick (s : State) : State := { s with free := s.free + 1 }

/-- The companion's stores up to the device's read (log 2). -/
def State.companion (s : State) (cw : List CWrite) : State := { s with cmem := applyStores s.cmem cw }

/-- The device's write into companion memory. -/
def State.poke (s : State) (a : Nat) (bytes : List Byte) : State := { s with cmem := writeBytes s.cmem a bytes, lastWrite := some (a, bytes.length) }

def ms : Nat := 1000000

/-! ### Island counters (R328) and telemetry counters (R459, R460) -/

/-- Nominal clock in MHz (Table 1.4). -/
def nominalMHz (b : Nat) : Nat :=
  if 4 ≤ blockLocation b then 1200
  else
    match blockKind b with
    | 0x00 => 1000
    | 0x01 => 2000
    | 0x02 => 1500
    | _ => 1600

/-- Clock steps of 1/16 in force: the slower of droop and temperature (R424 to R426). -/
def Island.steps (i : Island) : Nat := max i.droopSteps i.tempSteps

/-- The island counter at the present reading of the timer: one per island cycle, slowed by its steps (R328). -/
def islandCount (s : State) (b : Nat) : Nat :=
  let i := s.island b
  if s.power.powerGood then
    i.countBase + (s.now - max i.countAt s.power.powerGoodAt) * nominalMHz b * (16 - i.steps) / 16000
  else i.countBase

def bumpCounter (c : Counter) (n : Nat) : Counter :=
  ⟨(c.value + n) % 2 ^ 48, c.wrap || decide (2 ^ 48 ≤ c.value + n)⟩

/-- A telemetry slot of a block advances (Table 15.7). -/
def State.bump (s : State) (b slot n : Nat) : State :=
  let i := s.island b
  s.setIsland b { i with counters := modify {} i.counters slot fun c => bumpCounter c n }

/-- The steward whose half took the access, which counts ignored writes (Table 15.7). -/
def State.countIgnoredBell (s : State) (ep : Half) : State := s.bump (stewardBlock ep) 2 1
def State.countIgnoredWrite (s : State) (ep : Half) : State := s.bump (stewardBlock ep) 3 1

/-! ### Fault registers (R365, R366, R465) -/

def sameFault (a b : FaultRecord) : Bool :=
  decide (a.code = b.code) && decide (a.source = b.source) && decide (a.sub = b.sub) && decide (a.detail0 = b.detail0)

/-- Fold into an equal record of the last second, else add; the register keeps the 16 most recent (R366). -/
def addFault (i : Island) (r : FaultRecord) : Island :=
  match findIdx? (fun x => sameFault x r && decide (r.recordedAt ≤ x.recordedAt + 1000 * ms)) i.faults 0 with
  | some (k, x) => { i with faults := setAt i.faults k { x with repeats := min 255 (x.repeats + 1) } }
  | none =>
    if i.faults.length < 16 then { i with faults := i.faults ++ [r] }
    else { i with faults := i.faults.drop 1 ++ [r], overwritten := i.overwritten + 1 }

/-- A unit records a fault in its SOURCE's register, under its own island's count (R328, R365); a device-level fault also calls for an
audit dump (R334). -/
def State.recordBy (s : State) (unit : Nat) (r : FaultRecord) : State :=
  let r := { r with stamp := islandCount s unit, recordedAt := s.now }
  let s := s.setIsland r.source (addFault (s.island r.source) r)
  let s := if r.action = 1 then s.bump r.source 10 1 else s
  if decide (0x4000 ≤ r.code) && r.code != 0x4009 then { s with dumpDue := s.dumpDue ++ [(3, r.code)] }
  else if r.code = 0x4009 then { s with dumpDue := s.dumpDue ++ [(4, r.code)] }
  else if r.code = 0x3001 then { s with dumpDue := s.dumpDue ++ [(2, r.code)] }
  else s

/-- A block or unit records a fault of its own. -/
def State.recordFault (s : State) (r : FaultRecord) : State := s.recordBy r.source r

/-- COMPLEMENT_MISMATCH of a value kind (Table 12.2). -/
def State.complementFault (s : State) (source kind account item action : Nat) : State :=
  s.recordFault { code := 0x2201, source := source, action := action, detail0 := kind, detail1 := account, item := item }

/-- The account word of a fault that concerns none (Table 12.2). -/
def noAccount : Nat := 0xFFFFFFFF

/-! ### Fences and recoveries (R369, R374, R381, R382) -/

/-- A block is fenced; the third fence withdraws it for the rest of the service life (R374). -/
def State.fenceBlock (s : State) (b : Nat) : State :=
  let i := s.island b
  let s := s.setIsland b { i with fenced := true, fencedAt := s.now, fences := i.fences + 1, withdrawn := i.withdrawn || decide (2 ≤ i.fences) }
  if 2 ≤ i.fences then { s with flash := { s.flash with withdrawals := s.flash.withdrawals ++ [b] } } else s

/-- The recovery domain of a block (R381). -/
def domainOf (b : Nat) : Domain := match regionOf b with
  | some r => .region r
  | none => .half (halfOfBlock b)

/-- A fault's recovery begins, joins the recovery that runs in its domain, or queues (R382). -/
def State.recoverFrom (s : State) (r : Recovery) : State :=
  match s.recovering with
  | none => { s with recovering := some r }
  | some q =>
    if q.domain = r.domain then { s with recovering := some { r with bound := max q.bound r.bound } }
    else { s with recoveryQueue := s.recoveryQueue ++ [r] }

/-- No other domain's recovery is running. -/
def mayRecover (s : State) (d : Domain) : Bool := match s.recovering with
  | none => true
  | some q => decide (q.domain = d)

/-- Recoveries that a higher level's containment covers are abandoned (R28). -/
def State.abandon (s : State) (covered : Recovery → Bool) : State :=
  { s with
    recovering := if s.recovering.any covered then none else s.recovering
    recoveryQueue := s.recoveryQueue.filter fun r => !covered r }

/-- A recovery waits behind those whose faults were recorded before it (R382). -/
def State.queueRecovery (s : State) (r : Recovery) : State := { s with recoveryQueue := s.recoveryQueue ++ [r] }

/-- The recovery of a domain has ended. -/
def State.endRecovery (s : State) (d : Domain) : State :=
  if mayRecover s d then { s with recovering := none } else s

/-- Bounds of Table 12.5, in ns. -/
def boundBlock : Nat := 500 * ms
def boundRegion : Nat := 4000 * ms
def boundSteward : Nat := 2000 * ms
def boundHbm : Nat := 4000 * ms

/-! ### The charter's view (R32, R385 to R390) -/

/-- A steward that believes it holds the charter and is not fenced. -/
def believesHolder (s : State) (h : Half) : Bool := (s.stewards.get h).holder && !(s.stewards.get h).fenced

/-- The half whose steward acts as holder; of two that believe so, the blocks act on the higher epoch (R389). -/
def holderHalf (s : State) : Option Half :=
  if believesHolder s .west && (!believesHolder s .east || decide (s.stewards.east.epoch ≤ s.stewards.west.epoch)) then some .west
  else if believesHolder s .east then some .east
  else none

def charterHeld (s : State) : Bool := (holderHalf s).isSome

/-- A recovery at the device level may begin: it waits while no steward holds the charter (R382, R390). -/
def mayRecoverDevice (s : State) (d : Domain) : Bool := mayRecover s d && charterHeld s

/-- The background work of a half's regions and stacks is scheduled: by its steward, or for one that is lost or restarts by the holder
(R32, R380, R391). -/
def backgroundRuns (s : State) (h : Half) : Bool :=
  (!(s.steward h).fenced && !(s.steward h).restarting && !s.stopped) || charterHeld s

/-- A steward is able to serve steward-served registers (R401, R431, R446). -/
def stewardServes (s : State) : Bool := charterHeld s && !s.stopped && decide (s.power.stage = 7)

/-- Slips are consumed (R380, R384, R390, R391, R435). -/
def consumes (s : State) : Bool := stewardServes s && !s.moving && !s.power.shuttingDown

/-- A half that is out of service (R371, R433). -/
def halfOut (s : State) (h : Half) : Bool := s.halfFenced.get h

/-- The endpoint or engine that reports for the module: west, unless the west half is fenced (R465). -/
def reporter (s : State) : Half := if s.halfFenced.west then .east else .west

/-! ### Access guards -/

/-- The meaning of a command that WellFormed refuses. -/
def illFormed : Result := .fault .illFormed

def guardWf (ok : Bool) (r : Result) : Result := if ok then r else illFormed

/-- Commands per half: west then east. -/
def halves : List Half := [.west, .east]

end Sys2Proof.Machine
end

