-- ==== Sys2Proof/Machine/Operands.lean ====
section
/-! DEFINITION. The operand forms: slips and handles (Tables 2.4 to 2.7), ring table entries (Table 2.1), shadows
(Table 2.3), receipts (Table 2.8), account entries (Table 15.4), group entries (Table 9.1), image headers (Table 8.3),
the witness record (Table 12.6) and evaluation descriptors (Table 4.11). -/

namespace Sys2Proof.Machine

open Sys2Proof

/-! ### Slips (Table 2.4): a slip is its 512 bits -/

def slipMinor (w : Nat) : Nat := bits w 3 0
def slipMajor (w : Nat) : Nat := bits w 7 4
def slipVersion (w : Nat) : Nat := bits w 7 0
def slipFamily (w : Nat) : Nat := bits w 15 8
def slipOpcode (w : Nat) : Nat := bits w 23 16
def slipNotify (w : Nat) : Bool := bit w 24
def slipAfterPrevious (w : Nat) : Bool := bit w 25
def slipTag (w : Nat) : Nat := bits w 63 32
def slipHandle (w k : Nat) : Nat := bits w (127 + 64 * k) (64 + 64 * k)
def slipA (w : Nat) : Nat := slipHandle w 0
def slipB (w : Nat) : Nat := slipHandle w 1
def slipC (w : Nat) : Nat := slipHandle w 2
def slipD (w : Nat) : Nat := slipHandle w 3
def slipParam0 (w : Nat) : Nat := bits w 383 320
def slipParam1 (w : Nat) : Nat := bits w 415 384
def slipHints (w : Nat) : Nat := bits w 423 416
def slipPreWait (w : Nat) : Nat := bits w 479 448
def slipPostSignal (w : Nat) : Nat := bits w 511 480

/-- PRE_WAIT and POST_SIGNAL (Table 2.5). -/
def tallyField (f : Nat) : Nat := bits f 15 0
def amountField (f : Nat) : Nat := bits f 30 16
def enableField (f : Nat) : Bool := bit f 31

/-- Handles (Table 2.7). -/
def handleNumber (h : Nat) : Nat := bits h 55 0
def handleKind (h : Nat) : Nat := bits h 57 56
def handleAccount (h : Nat) : Nat := bits h 63 58
def mkHandle (account kind number : Nat) : Nat := account * 2 ^ 58 + kind * 2 ^ 56 + number
/-- The handle of a tally number of an account (R62). -/
def tallyHandle (account number : Nat) : Nat := mkHandle account 1 number

/-- Families (Table 2.6). -/
def famGemm : Nat := 1
def famKernel : Nat := 2
def famClear : Nat := 3
def famMove : Nat := 4
def famSettle : Nat := 5
def famStash : Nat := 6
def famRecall : Nat := 7
def famSignal : Nat := 8
def famWait : Nat := 9
def famTake : Nat := 10
def famStep : Nat := 11
def famFence : Nat := 12

/-- Receipt status codes (Table 2.9). -/
def stDone : Nat := 0x00
def stFlagged : Nat := 0x01
def stRetryable : Nat := 0x10
def stFinal : Nat := 0x11
def stCancelled : Nat := 0x12
def stMalformed : Nat := 0x20
def stVersion : Nat := 0x21
def stQuota : Nat := 0x22

/-! ### Ring table entries and shadows -/

/-- A ring table entry's 256 bits as a ring at the start of its life (Table 2.1). -/
def ringOfEntry (w : Nat) : Ring :=
  { base := bits w 63 0, log2Size := bits w 68 64, completion := bit w 69, account := bits w 77 72,
    completionRing := bits w 87 80, irqData := bits w 127 96, shadow := bits w 191 128 }

/-- Reserved bits of a ring table entry (Table 2.1). -/
def ringEntryReserved (w : Nat) : Bool :=
  decide (bits w 71 70 ≠ 0) || decide (bits w 79 78 ≠ 0) || decide (bits w 95 88 ≠ 0) || decide (bits w 255 192 ≠ 0)

def ringStateCode : RingState → Nat
  | .idle => 0
  | .running => 1
  | .stopping => 2
  | .error => 3

/-- The index a ring's shadow reports (Table 2.3). -/
def Ring.shadowIndex (r : Ring) : Nat := if r.completion then r.producer else r.consumer

/-- The 16 bytes of a shadow (Table 2.3). -/
def shadowBytes (index : Nat) (state : RingState) (error : Nat) : List Byte :=
  toLE 16 (withComplement 32 index + field 64 2 (ringStateCode state) + field 72 8 error)

/-- The furthest index accepted by either endpoint, as both keep it (R402). -/
def Ring.bellIndex (r : Ring) : Nat := if ahead32 r.bellEast r.bellWest then r.bellEast else r.bellWest

/-! ### Receipts (Table 2.8) -/

/-- PHASE at a producer index (R81). -/
def phaseOf (producer log2Size : Nat) : Nat := 1 - producer / 2 ^ log2Size % 2

/-- The block-time field in whole microseconds, rounded up and saturating (Table 2.8, R358). -/
def blockTimeField (ns : Nat) : Nat := saturate 24 (ceilDiv ns 1000)

/-- The 256 bits of a receipt. -/
def receiptWord (x : Item) (producer log2Size : Nat) : Nat :=
  field 0 32 (slipTag x.slip) + field 32 32 x.slipIndex + field 64 8 x.status + field 72 8 x.ring +
  field 80 16 x.flags + field 96 16 x.fault + field 112 8 (slipVersion x.slip) + field 120 8 x.rejectOffset +
  field 128 64 x.aux0 + field 192 32 x.aux1 +
  field 224 24 (if slipVersion x.slip = 0x32 then blockTimeField x.blockTime else 0) +
  field 255 1 (phaseOf producer log2Size)

/-! ### Account entries (Table 15.4, Table 11.1) -/

def zeroSelects (v d : Nat) : Nat := if v = 0 then d else v

def paramsOfEntry (w : Nat) : Params :=
  { sramQuota := bits w 15 0, hbmQuota := bits w 34 16, vaultQuota := bits w 54 36, fallbackQuota := bits w 82 64,
    contextSlots := bits w 96 84, decks := bits w 114 100, workingCopies := bits w 141 128, tallies := bits w 160 144,
    tickets := bits w 176 164, weight := zeroSelects (bits w 191 184) 16, deadline := zeroSelects (bits w 211 192) 30000,
    headroomLog2 := if bits w 214 212 = 0 then 2 else bits w 214 212 - 1, orvane := bit w 215, clip := bit w 216,
    groupTable := bits w 319 256 }

def accountEntryReserved (w : Nat) : Bool :=
  bit w 35 || decide (bits w 63 55 ≠ 0) || bit w 83 || decide (bits w 99 97 ≠ 0) || decide (bits w 127 115 ≠ 0) ||
  decide (bits w 143 142 ≠ 0) || decide (bits w 163 161 ≠ 0) || decide (bits w 183 177 ≠ 0) ||
  decide (bits w 255 217 ≠ 0) || decide (bits w 511 320 ≠ 0)

/-- Every parameter within its range, and the relations of R342. -/
def Params.wellFormed (p : Params) : Bool :=
  decide (p.sramQuota ≤ 28160) && decide (p.hbmQuota ≤ 477184) && decide (p.hbmQuota % 2 = 0) &&
  decide (p.vaultQuota ≤ 477184) && decide (p.vaultQuota % 2 = 0) && decide (p.fallbackQuota ≤ 477184) &&
  decide (p.fallbackQuota % 2 = 0) && decide (p.contextSlots ≤ 4096) && decide (p.decks ≤ 21168) &&
  decide (p.workingCopies ≤ 9216) && decide (p.tallies ≤ 65536) && decide (p.tickets ≤ 4096) &&
  decide (1 ≤ p.weight) && decide (p.weight ≤ 255) && decide (100 ≤ p.deadline) && decide (p.deadline ≤ 600000) &&
  decide (p.headroomLog2 ≤ 6) && decide (p.groupTable % 64 = 0) &&
  (decide (p.decks = 0) || decide (16 ≤ p.workingCopies)) && decide (3 * p.workingCopies ≤ 2 * p.sramQuota)

/-! ### Group entries (Table 9.1) -/

def groupList (w : Nat) : Nat := bits w 63 0
def groupMembers (w : Nat) : Nat := bits w 84 64
def groupSerial (w : Nat) : Nat := bits w 127 96
def groupReserved (w : Nat) : Bool := decide (bits w 95 85 ≠ 0) || decide (bits w 511 128 ≠ 0)

/-! ### CLEAR parameters (Table 9.2) -/

def clearTicket (w : Nat) : Nat := bits (slipParam0 w) 31 0
def clearOwner (w : Nat) : Nat := bits (slipParam0 w) 51 32
def clearDistribute (w : Nat) : Bool := bit (slipParam0 w) 52
def clearToDeputy (w : Nat) : Bool := bit (slipParam0 w) 53
def clearGroup (w : Nat) : Nat := bits (slipParam0 w) 63 56
def clearContributors (w : Nat) : Nat := bits (slipParam1 w) 20 0
def clearScaleExp (w : Nat) : Int := signed 8 (bits (slipParam1 w) 28 21)
def clearTransitF4 (w : Nat) : Bool := bit (slipParam1 w) 29
def clearRing (w : Nat) : Bool := decide (slipOpcode w = 1)

/-- Tickets (Table 9.4) and their generations' order (R285). -/
def ticketBucket (t : Nat) : Nat := bits t 19 0
def ticketGeneration (t : Nat) : Nat := bits t 31 20
def generationPrecedes (g1 g2 : Nat) : Bool :=
  let d := (g2 + 4096 - g1 % 4096) % 4096
  decide (1 ≤ d) && decide (d ≤ 2047)
def generationIncomparable (g1 g2 : Nat) : Bool := decide ((g2 + 4096 - g1 % 4096) % 4096 = 2048)

/-! ### Configuration image headers (Table 8.3) -/

def imgFormat (w : Nat) : Nat := bits w 7 0
def imgVksMinor (w : Nat) : Nat := bits w 11 8
def imgVksMajor (w : Nat) : Nat := bits w 15 12
def imgStates (w : Nat) : Nat := bits w 22 16
def imgInputs (w : Nat) : Nat := bits w 26 24
def imgOutputs (w : Nat) : Nat := bits w 29 27
def imgPasses (w : Nat) : Nat := bits w 31 30
def imgReductions (w : Nat) : Nat := bits w 34 32
def imgLength (w : Nat) : Nat := bits w 95 64
def imgCheck (w : Nat) : Nat := bits w 127 96
def imgReserved (w : Nat) : Bool := bit w 23 || decide (bits w 63 35 ≠ 0) || decide (bits w 511 128 ≠ 0)

/-- The header meets Table 8.3. -/
def imgHeaderOk (w : Nat) : Bool :=
  decide (imgFormat w = 1) && decide (1 ≤ imgStates w) && decide (imgStates w ≤ 64) && !imgReserved w &&
  (decide (imgPasses w = 1) || decide (imgPasses w = 2)) && decide (imgReductions w ≤ 4) &&
  decide (imgLength w = 64 + 4096 * imgStates w)

/-- The device accepts VKS 1.0 and 1.1 (HUB.VKS_VERSIONS, Table 15.2). -/
def vksAccepted (w : Nat) : Bool := decide (imgVksMajor w = 1) && decide (imgVksMinor w ≤ 1)

/-! ### The witness record (Table 12.6) -/

def witEpoch (w : Nat) : Nat := bits w 63 0
def witEpochC (w : Nat) : Nat := bits w 127 64
def witHolderEast (w : Nat) : Bool := bit w 128
def witValid (w : Nat) : Bool := bit w 129
def witRenewals (w : Nat) : Nat := bits w 191 160
/-- EPOCH_C is the one's complement of EPOCH (R466). -/
def witSound (w : Nat) : Bool := decide (witEpochC w = onesComplement 64 (witEpoch w))
def witnessWord (epoch : Nat) (holder : Half) (renewals : Nat) : Nat :=
  withComplement 64 epoch + field 128 1 (match holder with | .west => 0 | .east => 1) + 2 ^ 129 + field 160 32 renewals

/-! ### Evaluation descriptors (Table 4.11) -/

def descArray (w : Nat) : Nat := bits w 3 0
def descDeck (w : Nat) : Nat := bits w 6 4
def descCode (w : Nat) : Nat := bits w 8 7
def descI8 (w : Nat) : Bool := bit w 9
def descClip (w : Nat) : Bool := bit w 10
def descFirst (w : Nat) : Bool := bit w 11
def descInSlot (w : Nat) : Nat := bits w 17 12
def descOutSlot (w : Nat) : Nat := bits w 23 18
def descColumn (w : Nat) : Nat := bits w 32 24
def descColumns (w : Nat) : Nat := bits w 41 33
def descRows (w : Nat) : Nat := bits w 52 42
def descAccount (w : Nat) : Nat := bits w 58 53
def descItem (w : Nat) : Nat := bits w 127 64
def descEpoch (w : Nat) : Nat := bits w 191 128
def descEpochC (w : Nat) : Nat := bits w 255 192

/-! ### Set-up register offsets (Table 15.1) -/

def regIdentity : Nat := 0x0000
def regSerial : Nat := 0x0008
def regModuleId : Nat := 0x0010
def regAwcVersions : Nat := 0x0018
def regVksVersions : Nat := 0x0020
def regBootStatus : Nat := 0x0028
def regCharterEpoch : Nat := 0x0030
def regLoadError : Nat := 0x0038
def regWitnessBase : Nat := 0x0040
def regBellBase : Nat := 0x0048
def regDumpBase : Nat := 0x0050
def regDumpControl : Nat := 0x0058
def regCompanionTime : Nat := 0x0060
def regStewardRestart : Nat := 0x0068
def regFwControl : Nat := 0x0070
def regRingTableBase : Nat := 0x0080
def regAccountTableBase : Nat := 0x0088
def regAccountCommand : Nat := 0x0090
def regAccountStatus : Nat := 0x0098
def regQuantum : Nat := 0x00A0
def regBackground : Nat := 0x00A8
def regTelemetryBase : Nat := 0x00B0
def regTelemetryControl : Nat := 0x00B8
def regVfEtherType : Nat := 0x00C0
def regVfVlan : Nat := 0x00C8
def regVfMacPrefix : Nat := 0x00D0
def regVfPortPhy (p : Nat) : Nat := 0x0100 + 8 * p
def regSpdmW : Nat := 0x1000
def regSpdmE : Nat := 0x1008

end Sys2Proof.Machine
end

