-- ==== Sys2Proof/Machine/Flags.lean ====
section
/-! DEFINITION. Receipt flags (R83, Table 2.10) and the status they give (R82). -/

namespace Sys2Proof.Machine

open Sys2Proof

def flOutlierSpill : Nat := 0
def flOutlierClip : Nat := 1
def flScaleReplay : Nat := 2
def flNanSeen : Nat := 3
def flInfSeen : Nat := 4
def flDust : Nat := 5
def flFallbackWide : Nat := 6
def flRecomputeMarked : Nat := 7
def flEscalated : Nat := 8
def flBoundVoid : Nat := 9
def flAnalogDegraded : Nat := 10
def flPoisoned : Nat := 11
def flRecovered : Nat := 12

/-- The flags with one more set. -/
def setFlag (flags i : Nat) : Nat := flags ||| 2 ^ i

def setFlagIf (c : Bool) (flags i : Nat) : Nat := if c then setFlag flags i else flags

/-- NAN_SEEN and INF_SEEN for values an item reads or writes (R119). -/
def seenFlags (flags : Nat) (vals : List Val) : Nat :=
  setFlagIf (vals.any Val.isInf) (setFlagIf (vals.any Val.isNan) flags flNanSeen) flInfSeen

/-- STATUS of an item that succeeded: DONE_FLAGGED exactly when FLAGS is non-zero (R82). -/
def successStatus (flags : Nat) : Nat := if flags = 0 then stDone else stFlagged

/-- The statuses of an item that succeeded. -/
def isSuccess (status : Nat) : Bool := decide (status = stDone) || decide (status = stFlagged)

/-- The statuses of a rejection, whose FLAGS are 0 (R83). -/
def isRejection (status : Nat) : Bool := decide (stMalformed ≤ status)

/-- An item with a flag set. -/
def Item.flag (x : Item) (i : Nat) : Item := { x with flags := setFlag x.flags i }

def Item.flagIf (x : Item) (c : Bool) (i : Nat) : Item := { x with flags := setFlagIf c x.flags i }

/-- An item that read or wrote values (R119). -/
def Item.saw (x : Item) (vals : List Val) : Item := { x with flags := seenFlags x.flags vals }

/-- A fault strikes an item: its RECOVERIES, and its first fault (R377, Table 12.3). -/
def Item.strike (x : Item) (code : Nat) : Item :=
  { x with recoveries := min 3 (x.recoveries + 1), fault := if x.fault = 0 then code else x.fault }

end Sys2Proof.Machine
end

