-- ==== Sys2Proof/Machine/Slips.lean ====
section
/-! DEFINITION. The checks of a slip: version, form with the byte of each offence, quota (R14, R61 to R72, R85, R90, R463),
and the objects and outputs that a slip names (R68). -/

namespace Sys2Proof.Machine

open Sys2Proof

/-! ### What a slip is -/

def isGemm (w : Nat) : Bool := decide (slipFamily w = famGemm)
def isMove (w op : Nat) : Bool := decide (slipFamily w = famMove) && decide (slipOpcode w = op)
def isDeclare (w : Nat) : Bool := isMove w 3
def isRetire (w : Nat) : Bool := isMove w 4
def isRun (w : Nat) : Bool := decide (slipFamily w = famKernel) && decide (slipOpcode w = 0)
def isLoadImage (w : Nat) : Bool := decide (slipFamily w = famKernel) && decide (slipOpcode w = 1)
def isFence (w : Nat) : Bool := decide (slipFamily w = famFence)
def isClear (w : Nat) : Bool := decide (slipFamily w = famClear)

/-- The slip is of a family and opcode. -/
def isOp (family op w : Nat) : Bool := decide (slipFamily w = family) && decide (slipOpcode w = op)

/-- The opcodes of a family under a minor version (Table 2.6, R85). -/
def opcodeOk (family opcode minor : Nat) : Bool :=
  match family with
  | 1 | 4 => decide (opcode ≤ 4)
  | 2 | 3 => decide (opcode ≤ 1)
  | 5 | 6 | 7 | 8 | 9 | 10 | 11 => decide (opcode = 0)
  | 12 => decide (opcode = 0) || (decide (opcode = 1) && decide (2 ≤ minor))
  | _ => false

/-- The byte of the lowest set bit of bits [hi:lo], when one is set (R463). -/
def reservedByte (w hi lo : Nat) : List Nat :=
  let v := bits w hi lo
  if v = 0 then [] else [(lo + ((v.log2 + 1) - (v / (v &&& (v ^^^ (v - 1)))).log2 - 1)) / 8]

def offence (bad : Bool) (byte : Nat) : List Nat := if bad then [byte] else []

/-- The byte a handle field starts at (R463). -/
def handleByte (k : Nat) : Nat := 8 + 8 * k

/-- Kinds a handle field of an opcode takes, and whether the opcode requires it; no kinds: the opcode does not use it
(Table 2.6 and the chapters it names). -/
def handleUse (w k : Nat) : List Nat × Bool :=
  match slipFamily w, slipOpcode w, k with
  | 1, _, 3 => ([0], false)
  | 1, _, _ => ([0], true)
  | 2, 0, 3 => ([2], true)
  | 2, 0, _ => ([0], false)
  | 2, 1, 3 => ([2], true)
  | 3, _, 0 => ([0], false)
  | 3, _, 1 => ([0], false)
  | 4, 0, 0 => ([0], true)
  | 4, 0, 1 => ([0], true)
  | 4, 1, 0 => ([0], true)
  | 4, 2, 1 => ([0], true)
  | 4, 3, 0 => ([0, 1], true)
  | 4, 4, 0 => ([0, 1, 2], true)
  | 5, _, 0 => ([0], true)
  | 5, _, 1 => ([0], true)
  | 5, _, 3 => ([0], false)
  | 6, _, 0 => ([0], true)
  | 7, _, 0 => ([0], true)
  | 8, _, 0 => ([1], true)
  | 9, _, 0 => ([1], true)
  | 10, _, 0 => ([1], true)
  | _, _, _ => ([], false)

/-- Offences of one handle field, on its bits alone (R65). -/
def handleOffence (w account k : Nat) : List Nat :=
  let h := slipHandle w k
  let use := handleUse w k
  offence (if h = 0 then use.2
    else use.1.isEmpty || decide (handleAccount h ≠ account) || !use.1.contains (handleKind h) ||
      (decide (handleKind h = 1) && decide (bits h 55 16 ≠ 0))) (handleByte k)

/-- A disabled tally field that is not 0 (Table 2.5). -/
def tallyFieldOffence (f byte : Nat) : List Nat := offence (!enableField f && decide (f ≠ 0)) byte

/-- Reserved runs of PARAM0 and PARAM1 for an opcode (R63), as [hi:lo] within the slip. -/
def paramReserved (w : Nat) : List (Nat × Nat) :=
  match slipFamily w, slipOpcode w with
  | 1, 0 | 1, 1 => [(415, 360)]
  | 1, _ => [(327, 323), (415, 336)]
  | 2, _ => []
  | 3, _ => [(375, 374), (415, 414)]
  | 4, 1 => [(415, 384)]
  | 4, 2 => [(415, 392)]
  | 4, 3 => if handleKind (slipA w) = 1 then [(415, 352)] else [(415, 400)]
  | 5, _ => [(415, 321)]
  | 6, _ | 7, _ => [(415, 352)]
  | 8, _ | 9, _ | 10, _ => [(415, 384)]
  | 11, _ => [(415, 387)]
  | _, _ => [(415, 320)]

/-- FP32 bits that are finite with sign 0 (Table 4.10). -/
def outlierLevelOk (v : Nat) : Bool := decide (v < 0x7F800000)

/-- Offences of parameter values that no object decides. A disagreement of parameters counts at the lowest field that takes part;
OPCODE, which says what the fields mean, takes part in none (R463; log 72). -/
def paramOffence (w : Nat) : List Nat :=
  let p0 := slipParam0 w
  let p1 := slipParam1 w
  match slipFamily w, slipOpcode w with
  | 1, 1 => offence (!outlierLevelOk (bits p0 31 0)) 40 ++ offence (decide (bits p0 39 32 ≠ 1) && decide (bits p0 39 32 ≠ 4)) 44
  | 1, 2 | 1, 3 => offence (bit p0 1 || bit p0 2) 40
  | 2, 1 => offence (decide (bits p0 5 0 ≠ 0)) 40 ++ offence (decide (p1 < 4160) || decide (262208 < p1)) 48
  | 3, op =>
    let reduce := !clearDistribute w
    offence (decide (clearScaleExp w < -96) || decide (96 < clearScaleExp w)) 50 ++
    offence (decide (clearContributors w = 0) || decide (2 ^ 20 < clearContributors w)) 48 ++
    offence (reduce && clearToDeputy w) 46 ++ offence (reduce && decide (slipB w = 0)) 16 ++
    offence (clearTransitF4 w && reduce && decide (op = 1)) 51 ++
    offence (!reduce && (decide (clearScaleExp w ≠ 0) || clearTransitF4 w)) 46 ++
    offence (!reduce && clearToDeputy w && decide (clearContributors w ≠ 2)) 46
  | 4, 1 => offence (decide (bits p0 5 0 ≠ 0)) 40
  | 4, 2 => offence (decide (bits p0 5 0 ≠ 0)) 40 ++ offence (decide (9 < bits p1 7 0)) 48
  | 4, 3 =>
    if handleKind (slipA w) = 1 then offence (decide (bits p0 31 0 = 0) || decide (2 ^ 31 < bits p0 31 0)) 40
    else
      match Fmt.ofCode (bits p1 7 0) with
      | none => [48] ++ offence (decide (4 < bits p1 15 8)) 49
      | some .lg => [48] ++ offence (decide (4 < bits p1 15 8)) 49
      | some f =>
        if 4 < bits p1 15 8 then [49] else offence (!classPermits (bits p1 15 8) f) 48
  | 8, _ | 9, _ | 10, _ => offence (decide (2 ^ 31 < p0)) 40
  | 11, _ => offence ((decide (bits p1 2 0 = 1) && decide (bits p0 63 32 ≠ 0)) || (decide (bits p1 2 0 = 0) && decide (p0 = 0))) 40
  | _, _ => []

/-- A hint of 0b11 (R70). -/
def keepResident (w : Nat) : Bool :=
  (List.range 4).any fun k => decide (bits (slipHints w) (2 * k + 1) (2 * k) = 3)

/-- Offences that need no object (R14, R62, R63, R65, R85). -/
def formOffences (w account : Nat) : List Nat :=
  let minor := slipMinor w
  if slipFamily w = 0 ∨ 12 < slipFamily w then [1]
  else if opcodeOk (slipFamily w) (slipOpcode w) minor = false then [2]
  else
    reservedByte w 31 26 ++ offence (slipAfterPrevious w && decide (minor = 0)) 3 ++
    (List.range 4).flatMap (handleOffence w account) ++
    (paramReserved w).flatMap (fun r => reservedByte w r.1 r.2) ++ paramOffence w ++
    offence (keepResident w && decide (minor = 0)) 52 ++ reservedByte w 447 424 ++
    tallyFieldOffence (slipPreWait w) 56 ++ tallyFieldOffence (slipPostSignal w) 60

/-! ### Offences that objects decide, as far as they are declared -/

def State.tensor? (s : State) (h : Nat) : Option Tensor := if h = 0 then none else find s.tensors h

/-- Two declared tensors disagree. -/
def disagree (a b : Option Tensor) (bad : Tensor → Tensor → Bool) : Bool :=
  match a, b with
  | some x, some y => bad x y
  | _, _ => false

def tensorIs (a : Option Tensor) (bad : Tensor → Bool) : Bool :=
  match a with
  | some x => bad x
  | none => false

/-- HANDLE_D against R156 for a class-weight operand C, or any D where none may be given. `lowest` is the byte of the
lowest handle that takes part in a shape disagreement. -/
def correctionOffence (c d : Option Tensor) (lowest : Nat) : List Nat :=
  offence (tensorIs d fun y => decide (y.cls ≠ 0) || decide (y.fmt ≠ .bf16) || decide (y.cols = 0) || decide (32 < y.cols)) 32 ++
  offence (disagree c d fun x y => decide (y.rows ≠ x.rows + x.cols)) lowest

/-- Offences of a forward on a class-weight tensor (R157). -/
def analogueOffence (s : State) (w : Nat) : List Nat :=
  let a := s.tensor? (slipA w)
  let b := s.tensor? (slipB w)
  let c := s.tensor? (slipC w)
  let drive := bits (slipParam0 w) 39 32
  offence (decide (drive ≠ 1) && decide (drive ≠ 4)) 44 ++ offence (!outlierLevelOk (bits (slipParam0 w) 31 0)) 40 ++
  offence (tensorIs b fun y => y.fmt.rowScaled && (decide (drive ≠ y.fmt.code) || decide (bits (slipParam0 w) 31 0 ≠ 0))) 16 ++
  offence (tensorIs a fun x => decide (x.cls ≠ 0)) 8 ++ offence (tensorIs b fun y => decide (y.cls ≠ 0)) 16 ++
  offence (disagree a b fun x y => decide (x.rows ≠ y.rows)) 8 ++
  offence (disagree a c fun x z => decide (x.cols ≠ z.cols)) 8 ++
  offence (disagree b c fun y z => decide (y.cols ≠ z.rows)) 16 ++
  correctionOffence c (s.tensor? (slipD w)) 24

/-- Rows and columns of B and C as a PLAIN consumes them. -/
def plainShape (t : Tensor) (transpose : Bool) : Nat × Nat := if transpose then (t.cols, t.rows) else (t.rows, t.cols)

/-- Offences of a DTB GEMM (R215 to R217). -/
def digitalOffence (s : State) (w : Nat) : List Nat :=
  let a := s.tensor? (slipA w)
  let b := s.tensor? (slipB w)
  let c := s.tensor? (slipC w)
  let p0 := slipParam0 w
  let weight : Tensor → Bool := fun x => decide (x.cls = 1)
  let struck := bits p0 15 8
  let struckOffence := offence (decide (struck ≠ 0) && decide (struck ≠ 5) && decide (struck ≠ 7)) 41 ++
    offence (tensorIs c fun z => decide (z.cls = 1) != decide (struck ≠ 0)) 24
  let gradient := offence (tensorIs a fun x => decide (x.cls ≠ 2)) 8
  offence (tensorIs a weight) 8 ++ offence (tensorIs b weight) 16 ++
  match slipOpcode w with
  | 0 =>
    offence (decide (p0 ≠ 0) || decide (slipD w ≠ 0)) 24 ++
    offence (disagree a b fun x y => decide (x.rows ≠ y.rows)) 8 ++
    offence (disagree a c fun x z => decide (x.cols ≠ z.cols)) 8 ++
    offence (disagree b c fun y z => decide (y.cols ≠ z.rows)) 16
  | 2 =>
    gradient ++ struckOffence ++
    offence (disagree a b fun x y => decide (x.rows ≠ y.rows)) 8 ++
    offence (disagree a c fun x z => decide (x.cols ≠ z.rows)) 8 ++
    offence (disagree b c fun y z => decide (y.cols ≠ z.cols)) 16 ++
    (if tensorIs c (fun z => decide (z.cls ≠ 1)) then offence (decide (slipD w ≠ 0)) 24
     else correctionOffence c (s.tensor? (slipD w)) 24)
  | 3 =>
    gradient ++ struckOffence ++ offence (tensorIs c weight) 24 ++ offence (decide (slipD w ≠ 0)) 32 ++
    offence (disagree a b fun x y => decide (x.rows ≠ y.cols)) 8 ++
    offence (disagree a c fun x z => decide (x.cols ≠ z.cols)) 8 ++
    offence (disagree b c fun y z => decide (y.rows ≠ z.rows)) 16
  | _ =>
    struckOffence ++ offence (decide (slipD w ≠ 0)) 32 ++
    offence (disagree a b fun x y => decide (x.rows ≠ (plainShape y (bit p0 1)).1)) 8 ++
    offence (disagree a c fun x z => decide (x.cols ≠ (plainShape z (bit p0 2)).2)) 8 ++
    offence (disagree b c fun y z => decide ((plainShape y (bit p0 1)).2 ≠ (plainShape z (bit p0 2)).1)) 16

/-- An update item: a RUN whose HANDLE_A names a class master-weight tensor (R245). -/
def isUpdate (s : State) (w : Nat) : Bool :=
  isRun w && tensorIs (s.tensor? (slipA w)) fun x => decide (x.cls = 4)

/-- Offences of a KERNEL RUN (R245, R257). -/
def runOffence (s : State) (w : Nat) : List Nat :=
  (match find s.images (slipD w) with
   | some g => (List.range 3).flatMap fun k =>
       offence ((decide (slipHandle w k ≠ 0)) != (bit g.inputs k || bit g.outputs k)) (handleByte k)
   | none => []) ++
  if isUpdate s w then
    let a := s.tensor? (slipA w)
    let b := s.tensor? (slipB w)
    let c := s.tensor? (slipC w)
    offence (decide (slipB w = 0) || tensorIs b fun y => decide (y.cls ≠ 2)) 16 ++
    offence (disagree a b fun x y => decide (x.rows ≠ y.rows) || decide (x.cols ≠ y.cols)) 8 ++
    offence (tensorIs c fun z => decide (z.cls ≠ 3)) 24 ++
    offence (disagree a c fun x z => decide (x.rows ≠ z.rows) ||
      (if x.cols = 0 then decide (z.cols ≠ 0) else decide (z.cols % x.cols ≠ 0))) 8
  else []

/-- Offences that depend on declared objects. -/
def objectOffences (s : State) (w : Nat) : List Nat :=
  match slipFamily w, slipOpcode w with
  | 1, 0 =>
    match s.tensor? (slipC w) with
    | some c => if c.cls = 1 then analogueOffence s w else digitalOffence s w
    | none => []
  | 1, 1 => offence (tensorIs (s.tensor? (slipC w)) fun z => decide (z.cls ≠ 1)) 24 ++ analogueOffence s w
  | 1, _ => digitalOffence s w
  | 2, 0 => runOffence s w
  | 4, 0 =>
    offence (tensorIs (s.tensor? (slipA w)) fun x => decide (x.cls = 1)) 8 ++
    offence (disagree (s.tensor? (slipA w)) (s.tensor? (slipB w)) fun x y =>
      decide (x.rows ≠ y.rows) || decide (x.cols ≠ y.cols)) 8
  | 4, 1 => offence (tensorIs (s.tensor? (slipA w)) fun x => decide (x.cls = 1)) 8
  | 4, 2 =>
    let f := bits (slipParam1 w) 7 0
    offence (tensorIs (s.tensor? (slipB w)) fun y =>
      decide (y.cls = 1) && decide (f ≤ 9) && decide (f ≠ 5) && decide (f ≠ 7) && decide (f ≠ 9)) 16
  | 5, _ =>
    let a := s.tensor? (slipA w)
    let b := s.tensor? (slipB w)
    offence (tensorIs a fun x => decide (x.cls ≠ 1)) 8 ++ offence (tensorIs b fun y => decide (y.cls ≠ 4)) 16 ++
    offence (disagree a b fun x y => decide (x.rows ≠ y.rows) || decide (x.cols ≠ y.cols)) 8 ++
    correctionOffence a (s.tensor? (slipD w)) 8
  | 6, _ | 7, _ => offence (tensorIs (s.tensor? (slipA w)) fun x => decide (x.cls ≠ 0)) 8
  | _, _ => []

/-- The account has no group table (R342). -/
def groupTableOffence (s : State) (account w : Nat) : List Nat :=
  offence (isClear w && (match s.account? account with
    | some a => decide (a.params.groupTable = 0)
    | none => false)) 47

/-- Every offence of a slip at this moment. -/
def offences (s : State) (account w : Nat) : List Nat :=
  let f := formOffences w account
  if f = [1] ∨ f = [2] then f else f ++ objectOffences s w ++ groupTableOffence s account w

/-- The lowest byte (R463). -/
def lowestByte : List Nat → Option Nat
  | [] => none
  | a :: rest => match lowestByte rest with
    | none => some a
    | some b => some (min a b)

/-- VERSION_MAJOR is 3 and VERSION_MINOR one that HUB.AWC_VERSIONS advertises (R71, Table 2.12). -/
def versionOk (w : Nat) : Bool := decide (slipMajor w = 3) && decide (slipMinor w ≤ 2)

/-! ### Charges and quotas (R67, R242, R256, R344, Table 11.4) -/

def mib : Nat := 2 ^ 20
def kib4 : Nat := 4096

/-- Weight columns of a deck-array (Table 11.4). -/
def Fmt.deckColumns : Fmt → Nat
  | .aw3 => 384
  | .aw5 => 256
  | _ => 153

def deckArrays (f : Fmt) (rows cols : Nat) : Nat := ceilDiv rows 1024 * ceilDiv cols f.deckColumns

def declareFmt (w : Nat) : Fmt := (Fmt.ofCode (bits (slipParam1 w) 7 0)).getD .fp32
def declareClass (w : Nat) : Nat := bits (slipParam1 w) 15 8
def declareRows (w : Nat) : Nat := bits (slipParam0 w) 31 0
def declareCols (w : Nat) : Nat := bits (slipParam0 w) 63 32
def declaresTensor (w : Nat) : Bool := isDeclare w && decide (handleKind (slipA w) = 0)
def declaresTally (w : Nat) : Bool := isDeclare w && decide (handleKind (slipA w) = 1)
def declaresWeight (w : Nat) : Bool := declaresTensor w && decide (declareClass w = 1)

/-- Bytes of the SRAM and HBM pool that a slip's object will be charged. -/
def slipPool (w : Nat) : Nat :=
  if declaresTensor w && !declaresWeight w then roundUp (imageBytes (declareFmt w) (declareRows w) (declareCols w)) kib4 * ofBool (decide (declareRows w * declareCols w ≠ 0))
  else if isLoadImage w then roundUp (slipParam1 w) kib4
  else 0

def slipFallback (w : Nat) : Nat := if declaresWeight w then roundUp (2 * declareRows w * declareCols w) kib4 else 0
def slipDecks (w : Nat) : Nat := if declaresWeight w then deckArrays (declareFmt w) (declareRows w) (declareCols w) else 0
def slipTallies (w : Nat) : Nat := ofBool (declaresTally w)

def tableSum (t : Table α) (f : Nat → α → Nat) : Nat := t.foldl (fun n p => n + f p.1 p.2) 0

/-- An item that has not ended (R74, R75; log 28). -/
def Item.live (x : Item) : Bool := decide (x.stage ≤ 3)

/-- Charges that consumed and unfinished slips of an account will make. -/
def pendingCharge (s : State) (a : Nat) (f : Nat → Nat) : Nat :=
  tableSum s.items fun _ x => if x.account = a ∧ x.stage ≤ 2 then f x.slip else 0

def ofAccount (h a n : Nat) : Nat := if handleAccount h = a then n else 0

/-- The ledger of an owner-ledger REDUCE: 24 bytes an element and the poison bitmap, up to 4 KiB (Table 11.4). -/
def ledgerBytes (elements : Nat) : Nat := roundUp (24 * elements + ceilDiv elements 8) kib4

/-- An open ticket that holds a ledger: REDUCE, OWNER opcode, owner role. -/
def Ticket.holdsLedger (t : Ticket) : Bool :=
  decide (1 ≤ t.state) && decide (t.state ≤ 3) && decide (t.role = 0) && !t.ring && !t.distribute

/-- The SRAM part and the HBM part of an account's pool (Table 11.4, R352). -/
def Account.sramPool (x : Account) : Nat := (x.params.sramQuota - x.sramCut) * mib - x.params.workingCopies * (3 * mib / 2)
def Account.hbmPool (x : Account) : Nat := x.params.hbmQuota * mib

/-- Bytes of an account's ledgers in SRAM, or in HBM (R295). -/
def ledgerUsed (s : State) (a : Nat) (inSram : Bool) : Nat :=
  tableSum s.tickets fun _ t => if t.account = a ∧ t.holdsLedger = true ∧ t.inSram = inSram then ledgerBytes (t.rows * t.cols) else 0

def poolUsed (s : State) (a : Nat) : Nat :=
  tableSum s.tensors (fun h t => ofAccount h a t.charge) + tableSum s.images (fun h g => ofAccount h a g.charge) +
  tableSum s.tickets (fun _ t => if t.account = a ∧ t.holdsLedger = true then ledgerBytes (t.rows * t.cols) else 0) +
  pendingCharge s a slipPool

def fallbackUsed (s : State) (a : Nat) : Nat :=
  tableSum s.tensors (fun h t => ofAccount h a t.fallbackCharge) + pendingCharge s a slipFallback
def decksUsed (s : State) (a : Nat) : Nat :=
  tableSum s.tensors (fun h t => ofAccount h a t.deckCharge) + pendingCharge s a slipDecks
def talliesUsed (s : State) (a : Nat) : Nat :=
  tableSum s.tallies (fun h _ => ofAccount h a 1) + pendingCharge s a slipTallies

/-- The pool of SRAM_QUOTA less working copies, plus HBM_QUOTA (Table 11.4), under the SRAM reservation of R352. -/
def Account.pool (x : Account) : Nat := x.sramPool + x.hbmPool

/-- A GEMM whose opcode always runs on DTBs (R464), as far as HANDLE_C tells. -/
def alwaysDigital (s : State) (w : Nat) : Bool :=
  isGemm w && (decide (slipOpcode w ≠ 0) || tensorIs (s.tensor? (slipC w)) fun c => decide (c.cls ≠ 1))

/-- The slip fits the account's quotas (R67, R71, R344, R464). -/
def quotaOk (s : State) (a : Nat) (w : Nat) : Bool :=
  match s.account? a with
  | none => false
  | some x =>
    (decide (slipPool w = 0) || decide (poolUsed s a + slipPool w ≤ x.pool)) &&
    (decide (slipFallback w = 0) || decide (fallbackUsed s a + slipFallback w ≤ x.params.fallbackQuota * mib)) &&
    (decide (slipDecks w = 0) || decide (decksUsed s a + slipDecks w ≤ x.params.decks)) &&
    (decide (slipTallies w = 0) || decide (talliesUsed s a + slipTallies w ≤ x.params.tallies)) &&
    !(alwaysDigital s w && decide (x.params.contextSlots = 0))

/-! ### What a slip names and writes (R68, R77) -/

/-- The handles of a slip's four handle fields that are not 0. -/
def slipHandles (w : Nat) : List Nat := ((List.range 4).map (slipHandle w)).filter fun h => decide (h ≠ 0)

def preWaitTally (account w : Nat) : Option Nat :=
  if enableField (slipPreWait w) then some (tallyHandle account (tallyField (slipPreWait w))) else none
def postSignalTally (account w : Nat) : Option Nat :=
  if enableField (slipPostSignal w) then some (tallyHandle account (tallyField (slipPostSignal w))) else none

/-- A slip names an object (R68). -/
def names (account w h : Nat) : Bool :=
  (slipHandles w).contains h || decide (preWaitTally account w = some h) || decide (postSignalTally account w = some h)

/-- The tensors a slip writes, as far as handles and opcode tell; a RUN's are those its image declares. -/
def outputHandles (s : State) (w : Nat) : List Nat :=
  match slipFamily w, slipOpcode w with
  | 1, _ => [slipA w]
  | 2, 0 =>
    match find s.images (slipD w) with
    | some g => ((List.range 3).filter fun k => bit g.outputs k && decide (slipHandle w k ≠ 0)).map (slipHandle w)
    | none => []
  | 3, _ => if slipA w = 0 then [] else [slipA w]
  | 4, 0 | 4, 1 => [slipA w]
  | 5, _ => if slipD w = 0 then [] else [slipD w]
  | 7, _ => [slipA w]
  | _, _ => []

/-- A tensor operand has no elements, or the slip has no work units (R73). -/
def zeroSize (s : State) (w : Nat) : Bool :=
  match slipFamily w, slipOpcode w with
  | 2, 0 => decide (bits (slipParam0 w) 31 0 = 0) ||
      ((List.range 3).any fun k => tensorIs (s.tensor? (slipHandle w k)) fun t => decide (t.rows * t.cols = 0))
  | 4, 3 | 4, 4 => false
  | _, _ => (slipHandles w).any fun h => tensorIs (s.tensor? h) fun t => decide (t.rows * t.cols = 0)

end Sys2Proof.Machine
end

