-- ==== Sys2Proof/Machine/Tensors.lean ====
section
/-! DEFINITION. A tensor's contents and versions: element values, the amax estimate, conversion with block and tensor
scales, overflow, the magnitude ceiling (R96 to R119, R206), and the step record (R226 to R230). -/

namespace Sys2Proof.Machine

open Sys2Proof

/-! ### The step record -/

def StepCopy.sound (c : StepCopy) : Bool := decide (c.complements = c.words.map (onesComplement 64))

/-- The committed words: of a copy that passes its complement check (R230). -/
def Account.record (a : Account) : Option (List Nat) :=
  if a.step.west.sound then some a.step.west.words
  else if a.step.east.sound then some a.step.east.words
  else none

/-- The step number in force. While both copies of the record are lost it reads as 0 for versions, observations and pins, until a
commit succeeds: the manual gives no number there (DESIGN CHOICE, log 71). -/
def Account.stepNumber (a : Account) : Nat :=
  match a.record with
  | some (n :: _) => n
  | _ => 0

def stepNumber (s : State) (a : Nat) : Nat :=
  match s.account? a with
  | some x => x.stepNumber
  | none => 0

/-- Committed step numbers so far (R104, R183). -/
def commitsOf (s : State) (a : Nat) : Nat :=
  match s.account? a with
  | some x => x.commits
  | none => 0

def paramsOf (s : State) (a : Nat) : Params :=
  match s.account? a with
  | some x => x.params
  | none => {}

/-! ### Contents -/

/-- The code of element `i`, row-major; contents that the manual leaves undefined are free (log 16). -/
def Tensor.code (t : Tensor) (i : Nat) : Nat :=
  match find t.codes i with
  | some c => c
  | none => match t.fill with
    | none => 0
    | some n => Config.undefinedCode n i % 2 ^ t.fmt.width

/-- The E8M0 byte of group `g` (R96). -/
def Tensor.ebyte (t : Tensor) (g : Nat) : Nat :=
  match find t.ebytes g with
  | some c => c
  | none => match t.fill with
    | none => 0
    | some n => Config.undefinedCode n (2 ^ 64 + g) % 256

/-- The value of an element of a tensor not of class weight (R96, R97). -/
def Tensor.val (t : Tensor) (r c : Nat) : Val :=
  t.fmt.value (t.code (r * t.cols + c)) (t.ebyte (t.fmt.groupOf t.cols r c)) t.sExp

def Tensor.elements (t : Tensor) : Nat := t.rows * t.cols

/-- Every value, row-major. -/
def Tensor.vals (t : Tensor) : List Val :=
  (List.range t.elements).map fun i => t.val (i / t.cols) (i % t.cols)

/-- Stores a code; where contents are undefined a 0 is listed too. -/
def setCode (fill : Option Nat) (t : Table Nat) (i c : Nat) : Table Nat :=
  match fill with
  | none => put 0 t i c
  | some _ => ins t i c

/-- A list as a table, 0 not listed. -/
def tableOf (l : List Nat) : Table Nat := (l.zipIdx).filterMap fun p => if p.1 = 0 then none else some (p.2, p.1)

/-- The tensor scale of the version now written: that of a version begun and not yet written, else the contents' (R106). -/
def Tensor.scaleNow (t : Tensor) : Int := if t.began then t.vExp else t.sExp

/-- Contents that the manual leaves undefined, at the version's scale (R77, R106, R467). -/
def Tensor.undefined (t : Tensor) (n : Nat) : Tensor :=
  { t with codes := [], ebytes := [], fill := some n, began := false, sExp := t.scaleNow }

/-- The magnitude ceiling of a version (R206); undefined contents bound themselves. -/
def Tensor.ceiling (t : Tensor) : Dy :=
  match t.fill with
  | none => t.ceil
  | some _ => ceilingOf (amaxOf t.vals)

/-! ### The amax estimate (R103, R104, R107) -/

/-- The estimate at a commit count: the largest observation of the 16 step numbers before, raised by corrections. -/
def Tensor.est (t : Tensor) (commits : Nat) : Dy :=
  let window := t.observed.filter fun p => decide (p.1 < commits) && decide (commits ≤ p.1 + 16)
  let base := match window with
    | [] => Dy.ofInt 1
    | _ => window.foldl (fun a p => Dy.max a p.2) Dy.zero
  if t.raisedAt = commits then Dy.max base t.raised else base

/-- A magnitude as the FP32 value in which the device keeps an observation or an estimate (R120); one beyond FP32 counts as the
largest finite value, which gives the same tensor scale (DEDUCED, log 68). -/
def amaxFp32 (a : Dy) : Dy :=
  let v := F32.val (F32.ofDy a)
  if v.isFinite then v.toDy.norm else Fmt.fp32.maxFinite

/-- A magnitude joins the observation of the step number in force. -/
def Tensor.observe (t : Tensor) (commits : Nat) (a : Dy) : Tensor :=
  if a.isZero || !t.fmt.scaled then t
  else
    let old := match t.observed.find? fun p => decide (p.1 = commits) with
      | some p => p.2
      | none => Dy.zero
    let kept := t.observed.filter fun p => decide (p.1 ≠ commits) && decide (commits ≤ p.1 + 16)
    { t with observed := (commits, Dy.max old (amaxFp32 a)) :: kept, flips := del t.flips 2 }

/-- A correction (R107). -/
def Tensor.correct (t : Tensor) (commits : Nat) (a : Dy) : Tensor :=
  let old := if t.raisedAt = commits then t.raised else Dy.zero
  { t with raised := Dy.max old (amaxFp32 a), raisedAt := commits, corrected := true, flips := del t.flips 2 }

/-! ### Versions (R99, R106) -/

/-- The tensor scale a new version takes (R99). -/
def Tensor.newScale (t : Tensor) (commits headroom : Nat) : Int :=
  if t.fmt.scaled then tensorScaleExp t.fmt (t.est commits) headroom else 0

/-- An item that writes without replacing begins a new version (R106). -/
def Tensor.beginsVersion (t : Tensor) (step : Nat) : Bool := decide (t.versionStep < step) || t.corrected

/-- The version begins with an item: its S is fixed (R106). -/
def Tensor.begin (t : Tensor) (step commits headroom item : Nat) : Tensor :=
  if t.beginsVersion step then
    { t with versionStep := step, corrected := false, vExp := t.newScale commits headroom, began := true, beganBy := item }
  else t

/-- An item may write into the version: the item that began it converts the elements kept from the version before, and its own
results, first (R106; log 42). -/
def Tensor.writable (t : Tensor) (item : Nat) : Bool := !t.began || decide (t.beganBy = item)

/-! ### Conversion (R100, R108 to R118) -/

/-- Columns of one group, or of one row of an unscaled format, as (first, count). -/
def Fmt.chunks (f : Fmt) (cols : Nat) : List (Nat × Nat) :=
  if f.scaled && !f.rowScaled then
    (List.range (ceilDiv cols 32)).map fun b => (32 * b, min 32 (cols - 32 * b))
  else [(0, cols)]

/-- One group converted (R100, R111, R115), or one row of an unscaled format. -/
def convertChunk (f : Fmt) (orvane : Bool) (sExp : Int) (nan : Nat → Nat) (vs : List Val) : Group :=
  if f.scaled then (if orvane then convertGroupOrvane f vs sExp nan else convertGroup f vs sExp nan)
  else ⟨0, vs.map f.encode⟩

/-- The cap a group needs in native mode; Orvane mode never raises it (R111, R115). -/
def chunkCap (f : Fmt) (orvane : Bool) (sExp : Int) (vs : List Val) : Nat := if orvane then 0 else groupCap f vs sExp

/-- The ceiling a written group brings to its version, by its elements as written: 0 where all are zero (R206). -/
def groupCeiling (f : Fmt) (sExp : Int) (g : Group) : Dy :=
  let a := amaxOf (g.codes.map f.decode)
  if a.isZero then Dy.zero
  else if f.scaled then (if g.ebyte = 255 then Dy.zero else ⟨f.maxFmt, (g.ebyte : Int) - 127 + sExp⟩)
  else ceilingOf a

/-- Values as stored, for the flags of R119. -/
def groupSeen (f : Fmt) (sExp : Int) (vs : List Val) (g : Group) : List Val :=
  (vs ++ g.codes.map fun c => f.value c g.ebyte sExp).filter fun v => !v.isFinite

/-- A whole conversion: codes row-major, bytes by group, the largest cap needed, the largest magnitude that overflowed,
the largest finite magnitude, the ceiling, and the non-finite values met. -/
structure Conversion where
  codes : List Nat
  ebytes : List Nat
  cap : Nat
  exceeded : Dy
  amax : Dy
  ceil : Dy
  seen : List Val
  deriving DecidableEq, Repr

/-- Converts `rows × cols` values into a format at tensor scale 2^sExp; a group that `keep` gives stays as it is stored. -/
def convertKeeping (keep : Nat → Nat × Nat → Option Group) (f : Fmt) (rows cols : Nat) (sExp : Int) (orvane : Bool)
    (nan : Nat → Nat) (vals : Nat → Nat → Val) : Conversion :=
  let parts := (List.range rows).flatMap fun r => (f.chunks cols).map fun ch =>
    let vs := (List.range ch.2).map fun k => vals r (ch.1 + k)
    match keep r ch with
    | some g => (vs, g, true)
    | none => (vs, convertChunk f orvane sExp (fun i => nan (r * cols + ch.1 + i)) vs, false)
  let made := parts.filter fun p => !p.2.2
  { codes := parts.flatMap fun p => p.2.1.codes
    ebytes := if f.scaled then parts.map fun p => p.2.1.ebyte else []
    cap := made.foldl (fun k p => max k (chunkCap f orvane sExp p.1)) 0
    exceeded := made.foldl (fun a p => if 0 < chunkCap f orvane sExp p.1 then Dy.max a (amaxOf p.1) else a) Dy.zero
    amax := made.foldl (fun a p => Dy.max a (amaxOf p.1)) Dy.zero
    ceil := parts.foldl (fun a p => Dy.max a (groupCeiling f sExp p.2.1)) Dy.zero
    seen := made.flatMap fun p => groupSeen f sExp p.1 p.2.1 }

/-- Converts `rows × cols` values into a format at tensor scale 2^sExp. -/
def convert (f : Fmt) (rows cols : Nat) (sExp : Int) (orvane : Bool) (nan : Nat → Nat) (vals : Nat → Nat → Val) : Conversion :=
  convertKeeping (fun _ _ => none) f rows cols sExp orvane nan vals

/-- The whole contents replaced by a conversion at scale 2^sExp. -/
def Tensor.replace (t : Tensor) (sExp : Int) (c : Conversion) : Tensor :=
  { t with sExp := sExp, vExp := sExp, began := false, codes := tableOf c.codes, ebytes := tableOf c.ebytes, fill := none,
           ceil := c.ceil.norm, poison := 0 }

/-- Contents copied unchanged, with scales and ceiling (R237, R239, R273, R304). -/
def Tensor.copyFrom (t x : Tensor) : Tensor :=
  { t with sExp := x.sExp, vExp := x.sExp, began := false, codes := x.codes, ebytes := x.ebytes, fill := x.fill,
           ceil := x.ceil, poison := x.poison }

/-- The complement halves once a version's scale, ceiling and group bytes are all written anew: only the estimate's stands (R267, R268). -/
def Tensor.rewritten (t : Tensor) : Tensor := { t with flips := t.flips.filter fun p => decide (p.1 = 2) }

/-- A version that replaces the whole tensor begins; a COPY that converts takes its scale here (R99, R106, R273). -/
def Tensor.newVersion (t : Tensor) (step item : Nat) (scale : Option Int) : Tensor :=
  { t.rewritten with versionStep := step, corrected := false, vExp := scale.getD t.scaleNow, began := true, beganBy := item }

/-- The outcome of a conversion into a tensor for its item: flags, replay exponent and, where R113 ends it, the status. -/
def convertOutcome (x : Item) (c : Conversion) (sExp : Int) : Item :=
  let x := (x.saw c.seen).flagIf (decide (0 < c.cap)) flScaleReplay
  let x := { x with work := { x.work with replay := max x.work.replay (min c.cap 15) } }
  if c.cap ≤ 15 then x else { x with stage := 6, status := if sExp = 96 then stFinal else stRetryable }

/-- A conversion joins the estimate: observation and, on overflow in native mode, correction (R103, R107). -/
def Tensor.learn (t : Tensor) (commits : Nat) (c : Conversion) : Tensor :=
  let t := t.observe commits c.amax
  if 0 < c.cap && t.fmt.scaled then t.correct commits c.exceeded else t

/-! ### Tiles of 32 × 32 (R144, R210) -/

def tileCount (rows cols : Nat) : Nat := ceilDiv rows 32 * ceilDiv cols 32

/-- First row, rows, first column, columns of an output tile; tiles number row-major. -/
def tileBounds (rows cols tile : Nat) : Nat × Nat × Nat × Nat :=
  let across := ceilDiv cols 32
  let r := tile / across
  let c := tile % across
  (32 * r, min 32 (rows - 32 * r), 32 * c, min 32 (cols - 32 * c))

/-- The contents a version starts from at its first write: nothing of the old one remains to be read (R106). -/
def Tensor.openVersion (t : Tensor) : Tensor :=
  if t.began then { t with began := false, sExp := t.vExp, codes := [], ebytes := [], fill := none, ceil := Dy.zero, poison := 0 }
  else t

/-- The conversion of one tile at the version's scale: groups whole, so a row-scaled format takes its whole rows. -/
def tileConversion (t : Tensor) (orvane : Bool) (nan : Nat → Nat) (tile : Nat) (vals : Nat → Nat → Val) : Conversion :=
  let (r0, rs, c0, cs) := tileBounds t.rows t.cols tile
  if t.fmt.rowScaled then convert t.fmt rs t.cols t.sExp orvane nan fun r c => vals (r0 + r) c
  else convert t.fmt rs cs t.sExp orvane nan fun r c => vals (r0 + r) (c0 + c)

/-- One tile written. -/
def Tensor.writeTile (t : Tensor) (tile : Nat) (c : Conversion) : Tensor :=
  let (r0, rs, c0, cs) := tileBounds t.rows t.cols tile
  let width := if t.fmt.rowScaled then t.cols else cs
  let off := if t.fmt.rowScaled then c0 else 0
  let codes := (List.range (rs * cs)).foldl (fun m i =>
    setCode t.fill m ((r0 + i / cs) * t.cols + c0 + i % cs) (c.codes.getD (i / cs * width + off + i % cs) 0)) t.codes
  let ebytes := if t.fmt.scaled then
      (List.range rs).foldl (fun m r => setCode t.fill m (t.fmt.groupOf t.cols (r0 + r) c0) (c.ebytes.getD r 0)) t.ebytes
    else t.ebytes
  { t with codes := codes, ebytes := ebytes, ceil := (Dy.max t.ceil c.ceil).norm }

/-! ### Undefined outputs (R77) -/

/-- The contents of a tensor become undefined. -/
def State.undefineTensor (s : State) (h : Nat) : State :=
  match find s.tensors h with
  | none => s
  | some t => if t.cls = 1 then s else { s with free := s.free + 1, tensors := ins s.tensors h (t.undefined s.free) }

/-- The outputs of an item that failed or was cancelled (R77); update items keep theirs (R249). -/
def State.undefineOutputs (s : State) (w : Nat) : State :=
  if isUpdate s w then s else (outputHandles s w).foldl State.undefineTensor s

/-! ### Images of tensors (R101) -/

/-- The packed elements of one row: element j at bits [j w + w − 1 : j w]. -/
def packRow (width : Nat) (codes : List Nat) : Nat := codes.foldr (fun c n => c % 2 ^ width + 2 ^ width * n) 0

/-- The bytes of an image: elements, block scales, tensor scale word (Table 3.5). -/
def imageOf (f : Fmt) (rows cols : Nat) (code ebyte : Nat → Nat) (sExp : Int) : List Byte :=
  let rowBytes := f.padded cols * f.width / 8
  let elements := (List.range rows).flatMap fun r =>
    toLE rowBytes (packRow f.width ((List.range cols).map fun c => code (r * cols + c)))
  let scales := (List.range (groupCount f rows cols)).map fun g => BitVec.ofNat 8 (ebyte g)
  let body := elements ++ scales
  if f.scaled then
    body ++ List.replicate (roundUp body.length 8 - body.length) 0 ++ toLE 8 (withComplement 32 (scaleWord sExp))
  else body

/-- The element code at a row and column of an image at an address. -/
def imageCode (m : Memory) (addr : Nat) (f : Fmt) (cols r c : Nat) : Nat :=
  let rowBytes := f.padded cols * f.width / 8
  bits (readLE m (addr + r * rowBytes + c * f.width / 8) ((f.width + 15) / 8)) (c * f.width % 8 + f.width - 1) (c * f.width % 8)

/-- The E8M0 byte of a group of an image. -/
def imageEbyte (m : Memory) (addr : Nat) (f : Fmt) (rows cols g : Nat) : Nat :=
  readLE m (addr + elementsBytes f rows cols + g) 1

/-- The tensor scale word of an image. -/
def imageScaleWord (m : Memory) (addr : Nat) (f : Fmt) (rows cols : Nat) : Nat :=
  readLE m (addr + imageBytes f rows cols - 8) 8

end Sys2Proof.Machine
end

