-- ==== Sys2Proof/Machine/TallyUnit.lean ====
section
/-! DEFINITION. The region tally units: signal, take, wait, satisfaction from the head of the queue, the queue store, and
the removal of waiters (R312 to R322). -/

namespace Sys2Proof.Machine

open Sys2Proof

/-- COUNT passes its complement check (R267, R268). -/
def Tally.sound (t : Tally) : Bool := decide (t.countC = onesComplement 32 t.count)

/-- COUNT written, with its complement. -/
def Tally.setCount (t : Tally) (n : Nat) : Tally := { t with count := n, countC := onesComplement 32 n }

/-- The head of the queue is satisfied while COUNT covers it (R314, R315); the fuel is the queue's length. -/
def drain : Nat → Tally → Tally × List (Waiter × Nat)
  | 0, t => (t, [])
  | n + 1, t =>
    match t.queue with
    | [] => (t, [])
    | w :: rest =>
      if w.m ≤ t.count then
        let t := { t.setCount (t.count - w.m) with queue := rest }
        let r := drain n t
        (r.1, (w, t.count) :: r.2)
      else (t, [])

/-- A satisfied wait wakes its item at a moment; a WAIT's receipt will hold COUNT (R247, R314, R320). -/
def Item.woken (x : Item) (waitSlip : Bool) (count now : Nat) : Item :=
  if waitSlip then { x with waitDone := true, aux0 := count } else { x with preWaitDone := true, readyAt := now }

def State.wake (s : State) (p : Waiter × Nat) : State :=
  { s with items := adjust s.items p.1.item fun x => x.woken p.1.waitSlip p.2 s.now }

/-- The unit has applied an operation on the tally: LAST_STAMP (Table 10.1). -/
def stamped (s : State) (t : Tally) : Tally := { t with lastStamp := islandCount s (tallyBlock t.region) }

/-- The tally, with the waits its COUNT now covers satisfied and their items woken. -/
def State.settleTally (s : State) (h : Nat) (t : Tally) : State :=
  let r := drain t.queue.length t
  r.2.foldl State.wake ((s.setTally h (if r.2.isEmpty then r.1 else stamped s r.1)).bump (tallyBlock t.region) 1 r.2.length)

/-- A fault recorded against a tally, in its unit's register and in LAST_FAULT (R317, R318, R268). -/
def State.tallyFault (s : State) (h code item : Nat) : State :=
  match find s.tallies h with
  | none => s
  | some t =>
    let s := s.setTally h { t with lastFault := code }
    if code = 0x2201 then s.complementFault (tallyBlock t.region) 1 (handleAccount h) item 7
    else s.recordFault { code := code, source := tallyBlock t.region, action := 7, detail0 := t.number,
                         detail1 := handleAccount h, item := item }

def pushHistory (t : Tally) (e : SignalEntry) : Tally := { t with history := (e :: t.history).take 10 }

/-- A signal of n reaches the unit: the new state and, where it was refused, the fault code (R314, R317, R268). -/
def State.signalTally (s : State) (h n source item : Nat) : State × Option Nat :=
  if n = 0 then (s, none)
  else
    match find s.tallies h with
    | none => (s, none)
    | some t =>
      let e : SignalEntry := { item := item, n := n, source := source, refused := false,
                               stamp := islandCount s (tallyBlock t.region), count := t.count + n }
      if !t.sound then (s.tallyFault h 0x2201 item, some 0x2201)
      else if t.capacity < t.count + n then
        ((s.setTally h (pushHistory t { e with refused := true, count := t.count })).tallyFault h 0x2101 item, some 0x2101)
      else ((s.bump (tallyBlock t.region) 0 1).settleTally h (pushHistory { (stamped s t).setCount (t.count + n) with signals := t.signals + 1 } e), none)

/-- A take of m: the new state, the fault code where it underflows, and COUNT after it (R314, R318). -/
def State.takeTally (s : State) (h m item : Nat) : State × Option Nat × Nat :=
  match find s.tallies h with
  | none => (s, none, 0)
  | some t =>
    if !t.sound then (s.tallyFault h 0x2201 item, some 0x2201, t.count)
    else if m = 0 then (s, none, t.count)
    else if t.count < m then (s.tallyFault h 0x2102 item, some 0x2102, t.count)
    else ((s.bump (tallyBlock t.region) 2 1).settleTally h ((stamped s t).setCount (t.count - m)), none, t.count - m)

/-- Queued waits of a region's unit (R322). -/
def queuedWaits (s : State) (region : Nat) : Nat :=
  tableSum s.tallies fun _ t => if t.region = region then t.queue.length else 0

def heldOf (s : State) (region : Nat) : List (Nat × Waiter) := lookup [] s.heldWaits region

/-- The store of queued waits of one unit (R322). -/
def waitStore : Nat := 32768

/-- A wait of m reaches the unit: satisfied at once, queued, or held by the steward (R314, R315, R322). -/
def State.waitTally (s : State) (h : Nat) (w : Waiter) : State :=
  match find s.tallies h with
  | none => s
  | some t =>
    let held := heldOf s t.region
    if w.m = 0 then s.wake (w, t.count)
    else if decide (t.queue = []) && decide (w.m ≤ t.count) && !(held.any fun p => decide (p.1 = h)) then
      s.settleTally h { t with queue := [w] }
    else if held = [] ∧ queuedWaits s t.region < waitStore then s.setTally h { stamped s t with queue := t.queue ++ [w] }
    else (({ s with heldWaits := put [] s.heldWaits t.region (held ++ [(h, { w with held := true })]) } : State).bump (tallyBlock t.region) 3 1)

/-- The wait of an item leaves its queue or its steward, and the unit applies R315 from the new head (R321). -/
def State.leaveQueue (s : State) (h item : Nat) : State :=
  match find s.tallies h with
  | none => s
  | some t =>
    let s := { s with heldWaits := put [] s.heldWaits t.region ((heldOf s t.region).filter fun p => decide (p.2.item ≠ item)) }
    if t.queue.any fun w => decide (w.item = item) then
      s.settleTally h { t with queue := t.queue.filter fun w => decide (w.item ≠ item) }
    else s

/-- The waits of an item leave wherever they stand. -/
def State.leaveQueues (s : State) (x : Item) (item : Nat) : State :=
  let s := match preWaitTally x.account x.slip with
    | some h => s.leaveQueue h item
    | none => s
  if slipFamily x.slip = famWait then s.leaveQueue (slipA x.slip) item else s

end Sys2Proof.Machine
end

