-- ==== Sys2Proof/Machine/Frames.lean ====
section
/-! DEFINITION. What the device sends over the fabric: peer contexts, sequence numbers, planes and ports, the 1,024-frame
window, retransmission (R306, R307, R405 to R409), and the frames of a ticket. -/

namespace Sys2Proof.Machine

open Sys2Proof

def frameData : Nat := 1
def frameAck : Nat := 2
def frameOffer : Nat := 3
def frameGrant : Nat := 4
def frameRefuse : Nat := 5
def frameBusy : Nat := 6
def frameAbort : Nat := 7
def frameLost : Nat := 8
def frameProbe : Nat := 9

/-- The frames a sender keeps unacknowledged toward one peer (R409). -/
def frameWindow : Nat := 1024

/-- MAC address of a port of a module (R406). -/
def macOf (macPrefix port moduleId : Nat) : List Byte := toBE 2 macPrefix ++ toBE 1 port ++ toBE 3 moduleId

/-- Planes up for a peer at a half (R307). -/
def planesUp (c : PeerContext) : List Nat := (List.range 8).filter fun p => (find c.downSince p).isNone

/-- The first port of a half (R306). -/
def portBase : Half → Nat
  | .west => 0
  | .east => 16

/-- The state of a port that is up (Table 15.3: 2 at 1.6 Tb/s, 3 at 800 Gb/s). -/
def Port.up (p : Port) : Bool := decide (p.state = 2) || decide (p.state = 3)

/-- The port of a plane at a half: one that is up, where one is (R306, R404). -/
def portOf (s : State) (h : Half) (plane seq : Nat) : Nat :=
  let first := portBase h + plane + 8 * (seq / 8 % 2)
  let second := portBase h + plane + 8 * ((seq / 8 + 1) % 2)
  if (s.port first).up || !(s.port second).up then first else second

/-- The octets of a VF header, as they leave a port: one 512-bit number, most significant octet first (R8, R407, Table 13.6). -/
def headerOctets (h : VfHeader) : List Byte :=
  toBE 64 (field 504 8 h.version.toNat + field 496 8 h.type.toNat + field 481 1 (ofBool h.retransmit) + field 480 1 (ofBool h.last) +
    field 475 5 h.sourcePort.toNat + field 448 20 h.source.toNat + field 442 6 h.account.toNat + field 416 20 h.dest.toNat +
    field 384 32 h.incarnation.toNat + field 320 64 h.sequence.toNat + field 256 64 h.acked.toNat + field 224 32 h.ticket.toNat +
    field 223 1 (ofBool h.transit) + field 222 1 (ofBool h.opcode) + field 221 1 (ofBool h.toDeputy) + field 220 1 (ofBool h.phase) +
    field 212 8 h.group.toNat + field 192 20 h.position.toNat + field 160 32 h.firstBlock.toNat + field 144 16 h.blocks.toNat +
    field 96 32 h.dust.toNat + field 64 32 h.serial.toNat)

/-- The octets of a frame before its check sequence: MAC addresses, tag with PCP, EtherType, header, payload (R405, R406). -/
def frameOctets (pcp : Nat) (f : VfFrame) : List Byte :=
  f.destMac ++ f.sourceMac ++ (match f.tag with
    | some v => toBE 2 0x8100 ++ toBE 2 (pcp * 2 ^ 13 + v.toNat)
    | none => []) ++ toBE 2 f.etherType.toNat ++ headerOctets f.header ++ f.payload

/-- Bytes of a frame: MAC addresses, tag, EtherType, header, payload and check sequence (R405). -/
def frameBytes (tagged : Bool) (f : VfFrame) : Nat := 82 + (if tagged then 4 else 0) + f.payload.length

/-- A frame as it leaves a port (R405, R406). -/
def State.transmit (s : State) (port : Nat) (f : VfFrame) : State :=
  let tag := if s.hub.vlanEnable then some (BitVec.ofNat 12 s.hub.vlanId) else none
  ((s.bump (vfPortBlock port) 0 1).bump (vfPortBlock port) 6 (frameBytes s.hub.vlanEnable f)).emit (.frame port { f with
    destMac := macOf s.hub.macPrefix port f.header.dest.toNat, sourceMac := macOf s.hub.macPrefix port s.hub.moduleId,
    tag := tag, etherType := BitVec.ofNat 16 s.hub.etherType,
    header := { f.header with sourcePort := BitVec.ofNat 5 port } })

/-- Incarnations used toward a peer in the last 10 s (R307). -/
def recentOf (now : Nat) (l : List (Nat × Nat)) : List (Nat × Nat) := l.filter fun p => decide (now < p.2 + 10000 * ms)

/-- An incarnation that is none of those: the sender's choice, stepped past them (log 20). -/
def pickIncarnation (used : List Nat) : Nat → Nat → Nat
  | 0, c => c
  | n + 1, c => if used.contains c then pickIncarnation used n ((c + 1) % 2 ^ 32) else c

/-- Contexts a half holds open: each direction of a peer is a context of its own and counts as one (R307; log 73). -/
def openContexts (s : State) (h : Half) : Nat :=
  tableSum s.peers fun p c => if p / 2 ^ 20 = (match h with | .west => 0 | .east => 1) then ofBool c.sendOpen + ofBool c.recvOpen else 0

def contextStore : Nat := 65536

/-- The send context opened where it is closed and there is room (R307). -/
def State.openSend (s : State) (h : Half) (peer : Nat) : State :=
  let c := s.peer h peer
  if c.sendOpen || decide (contextStore ≤ openContexts s h) then s
  else
    let used := (recentOf s.now c.usedSend).map Prod.fst
    let inc := pickIncarnation used used.length (Config.incarnation s.free).toNat
    ({ s with free := s.free + 1 } : State).setPeer h peer
      { c with sendOpen := true, sendIncarnation := inc, nextSequence := 0, sendActive := s.now,
               usedSend := recentOf s.now c.usedSend ++ [(inc, s.now)] }

/-- The first transmission of a sequenced frame over one of the planes that are up (R306, R307). -/
def State.launch (s : State) (h : Half) (peer : Nat) (f : VfFrame) : State :=
  let c := s.peer h peer
  let up := planesUp c
  let plane := up.getD (c.nextSequence % up.length) (c.nextSequence % 8)
  let port := portOf s h plane c.nextSequence
  let f := { f with header := { f.header with incarnation := BitVec.ofNat 32 c.sendIncarnation,
                                               sequence := BitVec.ofNat 64 c.nextSequence,
                                               sourcePort := BitVec.ofNat 5 port } }
  let kept : Unacked := { sequence := c.nextSequence, frame := f, plane := plane, port := port, sentAt := s.now }
  let c := { c with nextSequence := c.nextSequence + 1, sendActive := s.now, unacked := c.unacked ++ [kept] }
  (s.setPeer h peer c).transmit port f

/-- A sequenced frame is sent, or waits while the window is full, no plane is up or no context can open (R307, R409). -/
def State.send (s : State) (h : Half) (peer : Nat) (f : VfFrame) : State :=
  let s := s.openSend h peer
  let c := s.peer h peer
  if c.sendOpen && decide (c.unacked.length < frameWindow) && decide (planesUp c ≠ []) && decide (c.queued = []) then
    s.launch h peer f
  else s.setPeer h peer { c with queued := c.queued ++ [(f, 0)] }

/-- Frames that waited are sent while the window has room. -/
def flushQueue (h : Half) (peer : Nat) : Nat → State → State
  | 0, s => s
  | n + 1, s =>
    let s := s.openSend h peer
    let c := s.peer h peer
    match c.queued with
    | [] => s
    | (f, _) :: rest =>
      if c.sendOpen && decide (c.unacked.length < frameWindow) && decide (planesUp c ≠ []) then
        flushQueue h peer n ((s.setPeer h peer { c with queued := rest }).launch h peer f)
      else s

def State.flush (s : State) (h : Half) (peer : Nat) : State := flushQueue h peer (s.peer h peer).queued.length s

/-- An acknowledgement, which carries no sequence number of its own (R307, R408). -/
def State.sendAck (s : State) (port : Nat) (f : VfFrame) : State :=
  s.transmit port { destMac := [], sourceMac := [], etherType := 0, payload := [], header :=
    { type := BitVec.ofNat 8 frameAck, sourcePort := 0, source := BitVec.ofNat 20 s.hub.moduleId, account := f.header.account,
      dest := f.header.source, incarnation := f.header.incarnation, sequence := 0, acked := f.header.sequence } }

/-- A header from this module to a peer on behalf of a ticket. -/
def ticketHeader (s : State) (t : Ticket) (type peer position : Nat) : VfHeader :=
  { type := BitVec.ofNat 8 type, sourcePort := 0, source := BitVec.ofNat 20 s.hub.moduleId,
    account := BitVec.ofNat 6 t.account, dest := BitVec.ofNat 20 peer, incarnation := 0, sequence := 0,
    ticket := BitVec.ofNat 32 t.ticket, transit := t.transitF4, opcode := t.ring, toDeputy := t.toDeputy,
    phase := t.distribute, group := BitVec.ofNat 8 t.group, position := BitVec.ofNat 20 position,
    serial := BitVec.ofNat 32 t.serial }

def bareFrame (h : VfHeader) (payload : List Byte) : VfFrame :=
  { destMac := [], sourceMac := [], etherType := 0, header := h, payload := payload }

/-- A group of an account (R278, R280). -/
def groupOf (s : State) (account group : Nat) : Group9 :=
  match s.account? account with
  | some a => lookup {} a.groups group
  | none => {}

/-- The position of a module in a group's member list (R277). -/
def positionOf (g : Group9) (moduleId : Nat) : Option Nat :=
  match findIdx? (fun m => decide (m = moduleId)) g.members 0 with
  | some p => some p.1
  | none => none

def ownPosition (s : State) (t : Ticket) : Nat := (positionOf t.list s.hub.moduleId).getD 0

/-- The aborts of a ticket that ends without completing, to every peer it exchanged a grant with (R291). -/
def State.abortPeers (s : State) (t : Ticket) (fault : Nat) : State :=
  (t.grantsIn ++ t.grantsOut).eraseDups.foldl (fun s p =>
    (s.send t.half p (bareFrame (ticketHeader s t frameAbort p (ownPosition s t)) (toBE 2 fault))).bump (engineBlock t.half) 5 1) s

end Sys2Proof.Machine
end

