-- ==== Sys2Proof/Machine/Products.lean ====
section
/-! DEFINITION. The arithmetic of the digital tensor blocks: exact products, CHUNKED and RESIDENT accumulation, totals as
FP32 (R199 to R213), and FP32 dot products of the outlier and correction units (R140, R143). -/

namespace Sys2Proof.Machine

open Sys2Proof

/-! ### The binary tree over an index (R142, R203, R258) -/

/-- One level of the binary tree over an index: adjacent pairs added, a last odd entry passes (R142, R203, R258). -/
def pairSum (add : α → α → α) : List α → List α
  | a :: b :: rest => add a b :: pairSum add rest
  | l => l

/-- The binary tree over an index, level by level. -/
def treeSum (add : α → α → α) : Nat → List α → List α
  | 0, l => l
  | n + 1, l => treeSum add n (pairSum add l)

/-- The tree's value; `z` for no entry. -/
def treeFold (add : α → α → α) (z : α) (l : List α) : α := (treeSum add (ceilLog2 l.length + 1) l).headD z

/-! ### Exception flags (R201) -/

/-- Exception flags of a cell: bit 0 NaN, bit 1 +Inf, bit 2 −Inf (R201). -/
def productFlag (p : Val) : Nat :=
  match p with
  | .nan => 1
  | .inf false => 2
  | .inf true => 4
  | .fin .. => 0

def orFlags (flags : Nat) (p : Val) : Nat := flags ||| productFlag p

/-! ### CHUNKED (R202 to R204) -/

/-- Rounding to the total format: 24-bit significand with a 12-bit exponent, or binary32 in Orvane mode (R204). -/
def roundTotal (orvane : Bool) (v : Val) : Val :=
  if orvane then F32.val (F32.ofVal v)
  else
    match v with
    | .fin neg mag e => let r := gridFloat 23 (-2046) mag e; .fin neg r.1 r.2
    | v => v

def addTotal (orvane : Bool) (a b : Val) : Val := roundTotal orvane (Val.add a b)

/-- ⌊log2 a⌋ + ⌊log2 b⌋ of a non-zero finite product. -/
def productLog (a b : Val) : Option Int :=
  match a, b with
  | .fin _ m1 e1, .fin _ m2 e2 =>
    if m1 = 0 ∨ m2 = 0 then none else some ((Dy.mk m1 e1).floorLog2 + (Dy.mk m2 e2).floorLog2)
  | _, _ => none

/-- The chunk anchor (R202). -/
def chunkAnchor (pairs : List (Val × Val)) : Option Int :=
  pairs.foldl (fun a p => match a, productLog p.1 p.2 with
    | none, l => l
    | some x, some y => some (max x y)
    | some x, none => some x) none

/-- The exact sum of a chunk's products on its grid (R202). -/
def chunkSum (pairs : List (Val × Val)) : Val :=
  match chunkAnchor pairs with
  | none => Val.zero
  | some a =>
    let g := a - 22
    Val.ofDy ⟨pairs.foldl (fun n p => let q := Val.mul p.1 p.2; if q.isFinite then n + q.toDy.grid g else n) 0, g⟩

/-- Slices of a list, `n` long each. -/
def slicesOf (n : Nat) : Nat → List α → List (List α)
  | 0, _ => []
  | k + 1, l => if l.isEmpty then [] else l.take n :: slicesOf n k (l.drop n)

def inSlices (n : Nat) (l : List α) : List (List α) := slicesOf n (ceilDiv l.length n) l

/-- A segment's total: its chunk sums, each rounded, added in order from +0 (R203). -/
def segmentTotal (orvane : Bool) (pairs : List (Val × Val)) : Val :=
  (inSlices 128 pairs).foldl (fun t c => addTotal orvane t (roundTotal orvane (chunkSum c))) Val.zero

/-- A span's total: the binary tree over its segments (R203). -/
def spanTotal (orvane : Bool) (pairs : List (Val × Val)) : Val :=
  treeFold (addTotal orvane) Val.zero ((inSlices 8192 pairs).map (segmentTotal orvane))

/-- The total of a CHUNKED reduction (R203). -/
def chunkedTotal (orvane : Bool) (pairs : List (Val × Val)) : Val :=
  (inSlices (2 ^ 20) pairs).foldl (fun t c => addTotal orvane t (spanTotal orvane c)) Val.zero

/-! ### RESIDENT (R206, R207) -/

/-- The anchor λ of a RESIDENT item (R207). -/
def residentAnchor (ceilA ceilB : Dy) (k : Nat) : Int := (ceilA.mul ceilB).ceilLog2 + (ceilLog2 k : Int) - 70

/-- Saturation of the 72-bit accumulator (R207). -/
def clamp72 (i : Int) : Int := max (-(pow2 71)) (min (pow2 71 - 1) i)

def residentStep (lambda : Int) (acc : Int) (a b : Val) : Int :=
  let p := Val.mul a b
  if p.isFinite then clamp72 (acc + p.toDy.grid lambda) else acc

/-- The integer of a RESIDENT reduction. -/
def residentSum (lambda : Int) (pairs : List (Val × Val)) : Int :=
  pairs.foldl (fun n p => residentStep lambda n p.1 p.2) 0

/-! ### The total as FP32 (R209) -/

def pairFlags (pairs : List (Val × Val)) : Nat := pairs.foldl (fun f p => orFlags f (Val.mul p.1 p.2)) 0

def totalWith (flags : Nat) (total : Val) : Val :=
  if bit flags 0 || (bit flags 1 && bit flags 2) then .nan
  else if bit flags 1 then .inf false
  else if bit flags 2 then .inf true
  else if total.isZero then Val.zero
  else total

/-- A RESIDENT total; `lambda` is none where a ceiling is 0 (R207). -/
def residentTotal (lambda : Option Int) (pairs : List (Val × Val)) : Val := match lambda with
  | none => Val.zero
  | some l => Val.ofDy ⟨residentSum l pairs, l⟩

/-- What the total's own rounding met: an infinity where it lies beyond FP32, or beyond binary32 on the way in Orvane mode, whatever the
exception flags make of the value (R114, R209). -/
def totalSeen (total : Val) : List Val := if (F32.val (F32.ofVal total)).isFinite then [] else [.inf false]

/-- A reduction's FP32 value. -/
def residentValue (lambda : Option Int) (pairs : List (Val × Val)) : F32 :=
  F32.ofVal (totalWith (pairFlags pairs) (residentTotal lambda pairs))

def chunkedValue (orvane : Bool) (pairs : List (Val × Val)) : F32 :=
  F32.ofVal (totalWith (pairFlags pairs) (chunkedTotal orvane pairs))

/-- The pairs of one output element, in K order. -/
def pairsOf (k : Nat) (a b : Nat → Val) : List (Val × Val) := (List.range k).map fun i => (a i, b i)

/-- A CHUNKED dot product of FP32 vectors (R181). -/
def dotF32 (orvane : Bool) (k : Nat) (a b : Nat → F32) : F32 :=
  chunkedValue orvane (pairsOf k (fun i => F32.val (a i)) fun i => F32.val (b i))

/-! ### The outlier and correction units (R140, R143, R218) -/

/-- Σ a × b in order, accumulated in FP32 from +0: each exact product is added with one rounding (R108, R140, R143). -/
def fmaChain (l : List (Val × Val)) : F32 :=
  l.foldl (fun acc p => F32.ofVal (Val.add (F32.val acc) (Val.mul p.1 p.2))) F32.zero

/-- t rounded to BF16 (R143). -/
def bf16Of (x : F32) : Val := bf16Round (F32.val x)

end Sys2Proof.Machine
end

