-- ==== Sys2Proof/Machine/Struck.lean ====
section
/-! DEFINITION. Weights on the decks: slices and levels, the struck copy, column scales, range codes, homeless tiles, and
the conversion of a class-weight operand (R122 to R126, R137, R163, R172 to R176, R197, R350, R351). -/

namespace Sys2Proof.Machine

open Sys2Proof

/-! ### Slices of a code (R125) -/

def sgn (v : Int) : Int := if v < 0 then -1 else if v = 0 then 0 else 1

/-- sign(v) × min(3, ⌊(|v| + half) / step⌋) (R125). -/
def slicePart (v : Int) (half step : Nat) : Int := sgn v * (min 3 ((v.natAbs + half) / step) : Nat)

/-- The slice value of each pair of a weight, in the order of Table 4.2. -/
def slices (f : Fmt) (v : Int) : List Int :=
  match f with
  | .aw3 => [v, v]
  | .aw5 =>
    let h := slicePart v 2 4
    [h, h, v - 4 * h]
  | _ =>
    let h := slicePart v 8 16
    let r := v - 16 * h
    let m := slicePart r 2 4
    [h, h, m, m, r - 4 * m]

/-- Twice the combination weight of each pair (Table 4.7). -/
def pairWeights (f : Fmt) : List Int :=
  match f with
  | .aw3 => [1, 1]
  | .aw5 => [4, 4, 2]
  | _ => [16, 16, 4, 4, 2]

def Fmt.pairs (f : Fmt) : Nat := (pairWeights f).length

/-- Target levels of a pair of a slice value: true cell, complement cell (R124). -/
def pairLevels (slice : Int) : Nat × Nat := if 0 ≤ slice then (slice.toNat, 0) else (0, (-slice).toNat)

/-! ### The struck copy (R172) -/

def pairKey (row pair : Nat) : Nat := 768 * row + pair

def recTrue (word : Nat) : Nat := bits word 7 0
def recComp (word : Nat) : Nat := bits word 15 8
def recWord (t c : Nat) : Nat := t % 256 + 256 * (c % 256)

/-- A pair's recorded level difference in 1/64 slice units. -/
def pairDiff (struck : Table Nat) (row pair : Nat) : Int :=
  let w := lookup 0 struck (pairKey row pair)
  (recTrue w : Int) - recComp w

/-- The physical row of the k-th usable row: rows debased at binding are skipped (R350). -/
def physRow (skip : List Nat) (k : Nat) : Nat := skip.foldl (fun r b => if b ≤ r then r + 1 else r) k

/-- The struck value of weight column `col` of row `row` of a deck (R126). -/
def deckValue (d : Deck) (f : Fmt) (row col : Nat) : Dy :=
  ⟨((pairWeights f).zipIdx).foldl (fun n p => n + p.1 * pairDiff d.struck row (f.pairs * col + p.2)) 0, -7⟩

/-! ### Tiles (R350) -/

def tilesAcross (t : Tensor) : Nat := ceilDiv t.cols t.fmt.deckColumns
def tileOf (t : Tensor) (i j : Nat) : Nat := i / 1024 * tilesAcross t + j / t.fmt.deckColumns

/-- The part of a tile that holds a row of K. -/
def partOf (t : Tensor) (i j : Nat) : Option TilePart :=
  (lookup [] t.tiles (tileOf t i j)).find? fun p => decide (p.firstRow ≤ i) && decide (i < p.firstRow + p.rows)

/-- The struck value of a weight (R126, R172); a weight that no deck holds is at level 0 (R175). -/
def struckValue (s : State) (t : Tensor) (i j : Nat) : Dy :=
  match partOf t i j with
  | some p =>
    let d := s.deck p.deck
    deckValue d t.fmt (physRow d.skip (i - p.firstRow)) (j - p.firstCol)
  | none => Dy.zero

def Tensor.scale (t : Tensor) (j : Nat) : F32 := lookup F32.one t.scales j

/-- s_j × u, exactly (R94, R197). -/
def weightValue (s : State) (t : Tensor) (i j : Nat) : Val :=
  Val.mul (F32.val (t.scale j)) (Val.ofDy (struckValue s t i j))

/-- The largest |s_j × u| of a tensor (R197). -/
def weightMax (s : State) (t : Tensor) : Dy :=
  amaxOf ((List.range t.elements).map fun n => weightValue s t (n / t.cols) (n % t.cols))

/-- The conversion of a class-weight operand into F8 or BF16 (R197); none where no F8 conversion with cap 0 exists. -/
def weightOperand (s : State) (t : Tensor) (f : Fmt) : Option Tensor :=
  let u := weightMax s t
  let sExp := if f.scaled then ceilingScaleExp f u else 0
  if f.scaled && Dy.lt ⟨f.maxFmt, 96⟩ u then none
  else
    let c := convert f t.rows t.cols sExp false (fun _ => 0) fun i j => weightValue s t i j
    some { rows := t.rows, cols := t.cols, fmt := f, sExp := sExp, codes := tableOf c.codes, ebytes := tableOf c.ebytes, ceil := c.ceil }

/-! ### Days and rows (Table 5.6, R162, R182 to R186) -/

def hourNs : Nat := 3600000 * ms
def dayNs : Nat := 24 * hourNs

/-- Days since 1 January 1970 in the companion's time, modulo 2^16 (Table 5.6); 0 before the first companion time. -/
def dayOf (s : State) : Nat :=
  match s.telemetry.companionAt with
  | some t0 => (s.telemetry.companionNs + (s.now - t0)) / dayNs % 65536
  | none => 0

/-- Days since a row's last settlement. -/
def settledDays (s : State) (w : Wear) : Nat := (dayOf s + 65536 - w.lastDay) % 65536

/-- A fresh row (R162). -/
def freshRow (s : State) (w : Wear) : Bool := decide (w.settlements ≤ 10000) && decide (settledDays s w ≤ 30)

/-- Physical rows of a part of a tile. -/
def partRows (d : Deck) (p : TilePart) : List Nat := (List.range p.rows).map (physRow d.skip)

/-- Some row of the tile is aged: an evaluation of it takes the aged column of Table 5.1 (R162). -/
def tileAged (s : State) (d : Deck) (p : TilePart) : Bool := (partRows d p).any fun r => !freshRow s (lookup {} d.wear r)

/-- A mapped row that a refresh must program again (R185). -/
def refreshDue (s : State) (d : Deck) (row : Nat) : Bool :=
  let w := lookup {} d.wear row
  decide (0 < w.settlements) && !w.debased && decide (330 ≤ settledDays s w)

/-- Some mapped row of a deck is due a refresh. -/
def refreshWaits (s : State) (d : Deck) : Bool := match d.bound with
  | some (_, _, p) => (partRows d p).any (refreshDue s d)
  | none => false

def debasedRows (d : Deck) : List Nat := (d.wear.filter fun p => p.2.debased).map Prod.fst
def usableRows (d : Deck) : Nat := 1024 - (debasedRows d).length

/-! ### Decks out of use (R171, R187, R351, R369, R370) -/

def deckCount : Nat := 21504

def regionFenced (s : State) (r : Nat) : Bool := (s.island (switchBlock r)).fenced

/-- A deck-array whose AAB and region are not fenced. -/
def deckUp (s : State) (d : Nat) : Bool :=
  let a := s.island (aabBlock (deckAab d))
  !a.fenced && !a.withdrawn && !regionFenced s (deckRegion d)

/-- A deck-array that serves: it is up, and not withdrawn (R171). -/
def deckServes (s : State) (d : Nat) : Bool := deckUp s d && !(s.deck d).withdrawn

/-- A deck-array that the placer may give out: prepared, in service, and bound to nobody, its record too (R190, R360). -/
def deckFree (s : State) (dn : Nat) : Bool :=
  let d := s.deck dn
  d.bound.isNone && d.binding.isNone && !d.dirty && !d.leaving && decide (d.holds = []) && deckServes s dn

/-- Some free deck-array can take a number of rows. -/
def someDeckTakes (s : State) (rows : Nat) : Bool :=
  (List.range deckCount).any fun dn => deckFree s dn && decide (rows ≤ usableRows (s.deck dn))

/-- A part of a tile is evaluated where it lies: its deck-array is up, and if it is withdrawn the tile is still to move away (R187, R351). -/
def partServes (s : State) (p : TilePart) : Bool :=
  deckUp s p.deck && (!(s.deck p.deck).withdrawn || someDeckTakes s p.rows)

/-- The rows of a tile are all placed in decks that evaluate them (R351). -/
def tileHome (s : State) (t : Tensor) (tile : Nat) : Bool :=
  let parts := lookup [] t.tiles tile
  let rows := min 1024 (t.rows - tile / tilesAcross t * 1024)
  decide (parts.foldl (fun n p => n + p.rows) 0 = rows) && parts.all (partServes s)

def tileHomeless (s : State) (t : Tensor) (tile : Nat) : Bool := !tileHome s t tile

/-- An output column lies in a homeless tile of some K-slice (R351). -/
def columnHomeless (s : State) (t : Tensor) (j : Nat) : Bool :=
  (List.range (ceilDiv t.rows 1024)).any fun k => tileHomeless s t (tileOf t (1024 * k) j)

/-! ### Range codes (R137) -/

/-- The n largest of a list, summed. -/
def topSum (n : Nat) (l : List Nat) : Nat := ((sortBy (fun a b => decide (b ≤ a)) l).take n).sum

/-- The smallest g with 255 × 2^(g − 2) at least a span given in 1/64 slice units. -/
def rangeCode (span64 : Nat) : Nat :=
  ((List.range 6).find? fun g => decide (span64 ≤ 255 * 16 * 2 ^ g)).getD 5

/-- |level differences| of the mapped rows of a pair-column, in 1/64 slice units. -/
def columnDiffs (d : Deck) (p : TilePart) (pair : Nat) : List Nat :=
  (List.range p.rows).map fun k => (pairDiff d.struck (physRow d.skip k) pair).natAbs

/-- The top and rest range codes of a pair-column. -/
def rangeCodes (d : Deck) (p : TilePart) (pair : Nat) : Nat × Nat :=
  let l := columnDiffs d p pair
  (rangeCode (topSum 256 l), rangeCode (topSum 512 l))

/-! ### Whole-deck changes (R174) -/

/-- A deck's record as levels at their targets for a code of one weight (R124, R125, R177). -/
def writeTarget (struck : Table Nat) (f : Fmt) (row col : Nat) (v : Int) : Table Nat :=
  ((slices f v).zipIdx).foldl (fun m p =>
    let l := pairLevels p.1
    put 0 m (pairKey row (f.pairs * col + p.2)) (recWord (64 * l.1) (64 * l.2))) struck

end Sys2Proof.Machine
end

