-- ==== Sys2Proof/Machine/Kernel.lean ====
section
/-! DEFINITION. What a KERNEL RUN computes (R241, R245 to R259): its digest, its reductions by the tree of R258, and the
contents it writes. The values that an image's states form are VKS's, which this manual does not define: free values that
depend only on what R241 lets them depend on (log 19). -/

namespace Sys2Proof.Machine

open Sys2Proof

def runUnits (w : Nat) : Nat := bits (slipParam0 w) 31 0
def runArg0 (w : Nat) : Nat := bits (slipParam0 w) 63 32
def runArg1 (w : Nat) : Nat := slipParam1 w

/-- A value as numbers: what it is, its sign, and its magnitude in one spelling. -/
def Val.numbers : Val → List Nat
  | .nan => [1]
  | .inf n => [2, ofBool n]
  | .fin n m e => let d := (Dy.mk (m : Int) e).norm; [0, ofBool n, d.m.natAbs, twos 32 d.e]

/-- A tensor's contents as numbers, for the digest: of class weight, the struck values multiplied by their column scales, as R94 has a
class-weight tensor read (log 19). -/
def tensorNumbers (s : State) (t : Tensor) : List Nat :=
  [t.rows, t.cols, t.fmt.code] ++
  if t.cls = 1 then (List.range t.elements).flatMap fun i => (weightValue s t (i / t.cols) (i % t.cols)).numbers
  else twos 16 t.sExp :: (List.range t.elements).map t.code ++ (List.range (groupCount t.fmt t.rows t.cols)).map t.ebyte

/-- Everything the values of a run may depend on (R241, R248, R257). -/
def runDigest (s : State) (x : Item) : Nat :=
  let w := x.slip
  match find s.images (slipD w) with
  | none => 0
  | some g =>
    Config.kernelDigest (g.bytes.map (fun c => c.1 * 256 + c.2.toNat) ++ [g.length, runUnits w, runArg0 w, runArg1 w] ++ x.snapshot ++
      (List.range 3).flatMap fun k => if bit g.inputs k then
        (match find s.tensors (slipHandle w k) with
         | some t => k :: tensorNumbers s t
         | none => [k])
      else [])

/-- The combined value of a reduction slot (R258). -/
def reductionOf (digest units slot : Nat) : F32 :=
  treeFold F32.add F32.zero ((List.range units).map fun u => Config.kernelPartial digest slot u)

/-- What the units that write results compute from: the digest, and for two passes the combined values. -/
def outputDigest (digest units : Nat) (g : Image) : Nat :=
  if g.passes = 2 then
    Config.kernelDigest (digest :: (List.range g.reductions).map fun i => (reductionOf digest units i).toNat)
  else digest

/-- An element outside a tensor's shape is accessed by some unit (R254). -/
def runOutOfShape (digest units : Nat) : Bool := (List.range units).any fun u => Config.kernelOutOfShape digest u

/-- The elements of the inputs that the run reads and that are not finite (R119). -/
def runReads (s : State) (w digest : Nat) (g : Image) : List Val :=
  (List.range 3).flatMap fun k => if bit g.inputs k then
    (match find s.tensors (slipHandle w k) with
     | some t => ((List.range t.elements).filter fun e => Config.kernelReads digest k e).filterMap fun e =>
         let v := if t.cls = 1 then weightValue s t (e / t.cols) (e % t.cols) else t.val (e / t.cols) (e % t.cols)
         if v.isFinite then none else some v
     | none => [])
  else []

/-- The conversion of one output: the elements of `mine` that the run writes take their values, the others keep theirs, converted when the
version is new or their group is written (R106). -/
def kernelConversion (t : Tensor) (orvane : Bool) (nan : Nat → Nat) (digest k : Nat) (mine : Nat → Bool) : Conversion :=
  let writes := fun i => Config.kernelWrites digest k i && mine i
  let vals := fun r c => let i := r * t.cols + c; if writes i then F32.val (Config.kernelValue digest k i) else t.val r c
  let keep := fun r (ch : Nat × Nat) =>
    if t.began || decide (t.sExp ≠ t.vExp) || (List.range ch.2).any fun j => writes (r * t.cols + ch.1 + j) then none
    else some ⟨t.ebyte (t.fmt.groupOf t.cols r ch.1), (List.range ch.2).map fun j => t.code (r * t.cols + ch.1 + j)⟩
  convertKeeping keep t.fmt t.rows t.cols (if t.fmt.scaled then t.vExp else 0) orvane nan vals

/-- An output that another item's version has still to be opened by that item is not written yet (R106; log 42). -/
def runWaits (s : State) (id : Nat) (w : Nat) (g : Image) : Bool :=
  (List.range 3).any fun k => bit g.outputs k && (match find s.tensors (slipHandle w k) with
    | some t => !t.writable id
    | none => false)

/-- One output of a run written, all of it or the elements of `mine`: the new state and the item with its flags, replay exponent or end (R103,
R107, R111). -/
def State.kernelOutput (s : State) (x : Item) (digest k : Nat) (mine : Nat → Bool) : State × Item :=
  let h := slipHandle x.slip k
  match find s.tensors h with
  | none => (s, x)
  | some t =>
    let p := paramsOf s x.account
    let c := kernelConversion t p.orvane (Config.undefinedCode s.free) digest k mine
    let sExp := if t.fmt.scaled then t.vExp else 0
    let y := convertOutcome x c sExp
    let t := t.learn (commitsOf s x.account) c
    (({ s with free := s.free + 1 } : State).setTensor h (if y.stage = 6 then t else t.replace sExp c), y)

/-- Every output of a run, in the order of the handles. -/
def State.kernelOutputs (s : State) (x : Item) (digest : Nat) (g : Image) : State × Item :=
  (List.range 3).foldl (fun p k =>
    if bit g.outputs k && decide (p.2.stage ≠ 6) then p.1.kernelOutput p.2 digest k (fun _ => true) else p) (s, x)

/-- The elements of a run's outputs that one work unit writes. -/
def State.unitOutputs (s : State) (x : Item) (digest unit : Nat) (g : Image) : State × Item :=
  (List.range 3).foldl (fun p k =>
    if bit g.outputs k && decide (p.2.stage ≠ 6) then
      p.1.kernelOutput p.2 digest k (fun i => decide (Config.kernelUnit digest k i = unit)) else p) (s, x)

/-- The landing of an update, from the digest its RUN stored: its new contents and its stamp become current together, in one change (R249). -/
def State.landUpdate (s : State) (x : Item) : State :=
  if isUpdate s x.slip then
    match find s.images (slipD x.slip) with
    | none => s
    | some g =>
      let digest := x.work.wCodes.headD (runDigest s x)
      let s := (s.kernelOutputs x (outputDigest digest (runUnits x.slip) g) g).1
      { s with tensors := adjust s.tensors (slipA x.slip) fun t => { t with stamp := x.snapshot.getD 0 0 } }
  else s

end Sys2Proof.Machine
end

