-- ==== Sys2Proof/Machine/Items.lean ====
section
/-! DEFINITION. The life of an item: its end, its receipt and the completion ring, the outputs it leaves, and what waits
on it (R75 to R84, R377, R467). -/

namespace Sys2Proof.Machine

open Sys2Proof

/-- The slip has ended: its receipt is written or waits for a slot (log 28). -/
def itemEnded (s : State) (id : Nat) : Bool :=
  match find s.items id with
  | some x => !x.live
  | none => true

/-- The end of an item reaches the slip after it (R75). -/
def State.tellSuccessor (s : State) (x : Item) (id status : Nat) : State :=
  let items := mapValues (fun _ y =>
    if y.prev = some id then { y with prevStatus := some status, readyAt := if slipAfterPrevious y.slip then s.now else y.readyAt } else y) s.items
  let r := s.ring x.ring
  let s := { s with items := items }
  if r.lastItem = some id then s.setRing x.ring { r with lastStatus := some status } else s

/-- Deck holds, working copies, buffers, cells and threads that an item has are released (R152, R173, R220, R259). -/
def State.release (s : State) (id : Nat) : State :=
  let decks := mapValues (fun _ d =>
    let holds := d.holds.filter fun i => decide (i ≠ id)
    if d.holds.contains id then { d with holds := holds, working := d.working && decide (holds ≠ []) } else d) s.decks
  let dtbs := mapValues (fun _ b => if b.item = some id then b.freed else b) s.dtbs
  let tellers := mapValues (fun _ f => { f with threads := mapValues (fun _ t =>
    if t.item = some id then { t with item := none } else t) f.threads }) s.tellers
  let aabs := mapValues (fun _ a => { a with
    inputs := a.inputs.filter fun q => decide (q.2.1 ≠ id), outputs := a.outputs.filter fun q => decide (q.2.item ≠ id),
    descriptors := a.descriptors.filter fun d => decide (descItem d ≠ id) }) s.aabs
  { s with decks := tidy {} decks, dtbs := tidy {} dtbs, tellers := tidy {} tellers, aabs := tidy {} aabs }

/-- The converted tiles of an analogue product stay written; the rest of its output is undefined (R467, Table 2.13). -/
def Tensor.undefinedBut (t : Tensor) (tiles : List Nat) (n : Nat) : Tensor :=
  let cells := tiles.flatMap fun k =>
    let (r0, rs, c0, cs) := tileBounds t.rows t.cols k
    (List.range (rs * cs)).map fun i => (r0 + i / cs, c0 + i % cs)
  { t.undefined n with
    codes := cells.foldl (fun m p => ins m (p.1 * t.cols + p.2) (t.code (p.1 * t.cols + p.2))) []
    ebytes := if t.fmt.scaled then
        cells.foldl (fun m p => ins m (t.fmt.groupOf t.cols p.1 p.2) (t.ebyte (t.fmt.groupOf t.cols p.1 p.2))) []
      else [] }

/-- What an item that failed or was cancelled leaves of its outputs (R77, R467): a SETTLE that is cancelled makes no refit, and a
STASH whose signal was refused leaves no entry and no mark (R237). -/
def State.dropOutputs (s : State) (x : Item) (status : Nat) : State :=
  let w := x.slip
  let s :=
    if isMove w 2 && decide (x.stage = 2) then
      match find s.tensors (slipB w) with
      | some t =>
        let f := (Fmt.ofCode (bits (slipParam1 w) 7 0)).getD t.fmt
        ({ s with free := s.free + 1 } : State).poke (slipParam0 w)
          ((List.range (imageBytes f t.rows t.cols)).map fun i => BitVec.ofNat 8 (Config.undefinedCode s.free i))
      | none => s
    else s
  if isGemm w && decide (slipOpcode w = 0) && decide (status = stCancelled) && decide (x.work.tiles ≠ []) &&
      tensorIs (s.tensor? (slipC w)) (fun c => decide (c.cls = 1)) then
    match find s.tensors (slipA w) with
    | some t => { s with free := s.free + 1, tensors := ins s.tensors (slipA w) (t.undefinedBut x.work.tiles s.free) }
    | none => s
  else if isOp famSettle 0 w && decide (status = stCancelled) then s
  else if isRetire w && decide (x.stage = 2) then { s with tallies := adjust s.tallies (slipA w) fun t => if t.state = 2 then { t with state := 1 } else t }
  else if isOp famStash 0 w && x.work.staged then
    (match s.account? x.account with
     | some a => s.setAccount x.account { a with vault := del a.vault (bits (slipParam0 w) 31 0) }
     | none => s)
  else s.undefineOutputs w

/-- No teller keeps an image that has left. -/
def Teller.forget (f : Teller) (gone : Nat → Bool) : Teller :=
  { f with store := f.store.filter fun p => !gone p.2, current := f.current.filter fun h => !gone h }

def State.forgetImages (s : State) (gone : Nat → Bool) : State :=
  { s with tellers := tidy {} (mapValues (fun _ f => f.forget gone) s.tellers) }

/-- The work of an item that arrays, DTBs or tellers do (R358). -/
def usesBlocks (w : Nat) : Bool := isGemm w || isRun w

/-- The block-time of an item whose work ends now: a free value, at least 1 ns once the work is whole (R358, log 17). -/
def State.timed (s : State) (x : Item) (whole : Bool) : State × Item :=
  if usesBlocks x.slip && !zeroSize s x.slip then
    ({ s with free := s.free + 1 }, { x with blockTime := Config.blockTime s.free + ofBool whole })
  else (s, x)

/-- AUX0 of a STASH for which no decision was made: the marks under the current step number (R237). -/
def State.stashAux (s : State) (x : Item) : Item :=
  match isOp famStash 0 x.slip, x.decision, s.account? x.account with
  | true, .none, some a => { x with aux0 := saturate 32 a.marks }
  | _, _, _ => x

/-- RECOVERED of an item that was re-run after a fault, however it ends (Table 2.10). -/
def Item.recovered (x : Item) : Item := x.flagIf (decide (0 < x.recoveries)) flRecovered

/-- The ticket of an item ends, and its peers are told (R291). -/
def State.abortTicket (s : State) (id fault : Nat) : State :=
  match find s.tickets id with
  | some t => (s.abortPeers t fault).dropTicket id
  | none => s

/-- An item without success leaves its queues, its ticket, its outputs and what it holds (R77, R291, R467). -/
def State.leaveItem (s : State) (id status fault : Nat) (x : Item) : State :=
  let s := (s.leaveQueues x id).abortTicket id fault
  (if isRejection status then s else s.dropOutputs x status).release id

/-- The journal says how an item ended, and the slip after it learns of it (R75, R80). -/
def State.markEnded (s : State) (id status fault : Nat) (x : Item) : State :=
  (s.setItem id { (s.stashAux x).recovered with stage := 6, status := status, fault := fault }).tellSuccessor x id status

/-- An item ends without success: its waits leave, its ticket ends and aborts, what it holds is released (R77, R291, R467).
`fault` is the code behind the outcome, 0 when no fault caused it (R80). -/
def State.endItem (s : State) (id status fault : Nat) : State :=
  match find s.items id with
  | none => s
  | some x =>
    if !x.live then s
    else
      let q := if x.stage = 2 ∨ x.stage = 3 then s.timed x false else (s, x)
      (q.1.leaveItem id status fault q.2).markEnded id status fault q.2

/-- The item's work is done and acknowledged; its signal is pending (R76). -/
def State.finishItem (s : State) (id : Nat) (x : Item) : State := s.setItem id { x with stage := 3 }

/-! ### Shadows and receipts -/

/-- The shadow of a ring in one write (R57). -/
def State.writeShadow (s : State) (n : Nat) : State :=
  let r := s.ring n
  s.poke r.shadow (shadowBytes r.shadowIndex r.state r.error)

def ringFull (r : Ring) : Bool := decide (2 ^ r.log2Size ≤ sub32 r.producer r.consumer)

/-- AUX0 of a GEMM: the outlier rows, saturated, and the replay exponent of the item (Table 2.11, R158, R219). -/
def gemmAux (x : Item) : Nat := saturate 32 x.aux0 + 2 ^ 32 * x.work.replay

/-- The receipt's fields of an item: FLAGS are 0 for a rejection (R83), a success without a fault names none (R80). -/
def Item.receipt (x : Item) : Item :=
  { x with flags := if isRejection x.status then 0 else x.flags,
           fault := if x.status = stDone then 0 else x.fault,
           aux0 := if isGemm x.slip then gemmAux x else x.aux0 }

/-- The block the steward's own operations on tallies carry as their issuer (R316). -/
def issuer (s : State) : Nat := stewardBlock ((holderHalf s).getD .west)

/-- The receipt is written at the producer index, then the shadow, then the interrupt (R76, R81). -/
def State.putReceipt (s : State) (id : Nat) (x : Item) : State :=
  let cr := (s.ring x.ring).completionRing
  let r := s.ring cr
  let s := s.poke (r.base + 32 * (r.producer % 2 ^ r.log2Size)) (toLE 32 (receiptWord x.receipt r.producer r.log2Size))
  let s := s.setRing cr { r with producer := (r.producer + 1) % 2 ^ 32 }
  let s := s.writeShadow cr
  let s := if slipNotify x.slip then s.emit (.interrupt r.irqData) else s
  (s.bump (issuer s) 1 1).dropItem id

/-- A stored index of a ring fails its complement check (R267, R268). -/
def Ring.unsound (r : Ring) (indices : List Nat) : Bool := indices.any fun k => decide (lookup 0 r.flips k ≠ 0)

/-- A ring index that fails its check, found by the steward (R268). -/
def State.ringMismatch (s : State) (n : Nat) : State := s.complementFault (issuer s) 5 (s.ring n).account 0 0

/-- The receipt is written, or kept while the completion ring is full (R78) or an index of it fails its check (R268; log 83). -/
def State.writeReceipt (s : State) (id : Nat) : State :=
  match find s.items id with
  | none => s
  | some x =>
    let cr := (s.ring x.ring).completionRing
    let r := s.ring cr
    if r.kept.contains id then s
    else if r.unsound [2, 3] then
      ((s.ringMismatch cr).setRing cr { r with kept := r.kept ++ [id] }).setItem id { x with producer := (r.producer + r.kept.length) % 2 ^ 32 }
    else if ringFull r || decide (r.kept ≠ []) then
      (s.setRing cr { r with kept := r.kept ++ [id] }).setItem id { x with producer := (r.producer + r.kept.length) % 2 ^ 32 }
    else s.putReceipt id x

/-- Items in flight of a ring: consumed, receipt not yet written (R74). -/
def inFlight (s : State) (ring : Nat) : Nat := (s.items.filter fun p => decide (p.2.ring = ring)).length

/-- The POST_SIGNAL of an item, and the fault code where its unit refuses it (R76, R317). -/
def State.postSignal (s : State) (id : Nat) (x : Item) : State × Option Nat :=
  match postSignalTally x.account x.slip with
  | some h => s.signalTally h (amountField (slipPostSignal x.slip)) (issuer s) id
  | none => (s, none)

/-- An item ends with success: an update's contents land together (R249), what it holds is released, and its status follows from its
flags (R82). -/
def State.succeed (s : State) (id : Nat) (x : Item) : State :=
  let q := (if x.work.staged then s.landUpdate x else s).timed (s.stashAux x).recovered true
  let y := q.2
  (((q.1.release id).dropTicket id).setItem id { y with stage := 4, status := successStatus y.flags }).tellSuccessor y id (successStatus y.flags)

/-- POST_SIGNAL and the decision of the status at completion (R76, R82, R317, R377). An update lands only once its signal is
accepted, so an item whose signal is refused leaves its tensors and stamp as they were (R249). -/
def State.completeItem (s : State) (id : Nat) (x : Item) : State :=
  let r := s.postSignal id x
  match r.2 with
  | some code => r.1.endItem id stFinal code
  | none => r.1.succeed id x

/-! ### Conditions that hold an item back (R75) -/

/-- AFTER_PREVIOUS is met, and whether the slip before failed. -/
def previousEnded (x : Item) : Bool := !slipAfterPrevious x.slip || x.prev.isNone || x.prevStatus.isSome

def previousFailed (x : Item) : Bool :=
  slipAfterPrevious x.slip && (match x.prevStatus with
    | some st => !isSuccess st
    | none => false)

/-- An earlier FENCE of the ring, or a FENCE ACCOUNT of the account, has not ended. -/
def fenced (s : State) (id : Nat) (x : Item) : Bool :=
  s.items.any fun p => decide (p.1 < id) && p.2.live && isFence p.2.slip &&
    (if slipOpcode p.2.slip = 0 then decide (p.2.ring = x.ring) else decide (p.2.account = x.account))

/-- The condition of a FENCE: every earlier slip of its ring, or of its account, has ended. -/
def fenceMet (s : State) (id : Nat) (x : Item) : Bool :=
  !(s.items.any fun p => decide (p.1 < id) && p.2.live &&
    (if slipOpcode x.slip = 0 then decide (p.2.ring = x.ring) else decide (p.2.account = x.account)))

/-- An object is declared. -/
def declared (s : State) (h : Nat) : Bool :=
  match handleKind h with
  | 0 => (find s.tensors h).isSome
  | 1 => (find s.tallies h).isSome
  | _ => (find s.images h).isSome

/-- The objects that must be declared when the item starts (R69): not the one it creates, and not PRE_WAIT's tally. -/
def requiredObjects (x : Item) : List Nat :=
  let w := x.slip
  let created := if isDeclare w then slipA w else if isLoadImage w then slipD w else 0
  ((slipHandles w).filter fun h => decide (h ≠ created)) ++ (postSignalTally x.account w).toList

def objectsDeclared (s : State) (x : Item) : Bool := (requiredObjects x).all (declared s)

/-- A RETIRE of an object the slip names was consumed earlier and has not ended (R68). -/
def retireAhead (s : State) (id : Nat) (x : Item) : Bool :=
  s.items.any fun p => decide (p.1 < id) && decide (p.2.account = x.account) && p.2.live && isRetire p.2.slip &&
    names x.account x.slip (slipA p.2.slip)

/-- Working copies that an account's items hold (Table 11.4). -/
def workingHeld (s : State) (a : Nat) : Nat :=
  (s.decks.filter fun p => p.2.working && (match p.2.bound with
    | some (h, _) => decide (handleAccount h = a)
    | none => false)).length

/-- A working copy of a deck-array, where a slot of its account is free (R344). -/
def State.takeSlot (s : State) (dn : Nat) : State :=
  match (s.deck dn).bound with
  | some (h, _) =>
    if !(s.deck dn).working && decide (workingHeld s (handleAccount h) < (paramsOf s (handleAccount h)).workingCopies) then
      s.setDeck dn { s.deck dn with working := true }
    else s
  | none => s

/-- A slot for a deck-array whose evaluation waits for one: a free one, or that of another deck-array of the account whose array does not
evaluate (R344; log 84); none where every slot is in use. -/
def State.takeCopy (s : State) (dn : Nat) (idle : Nat → Bool) : Option State :=
  let s' := s.takeSlot dn
  if (s'.deck dn).working then some s'
  else
    match (s.decks.find? fun p => p.2.working && idle p.1 && decide (p.2.bound.map (fun q => handleAccount q.1) = (s.deck dn).bound.map fun q => handleAccount q.1)) with
    | some p => some (((s.setDeck p.1 { p.2 with working := false }).setDeck dn { s.deck dn with working := true }))
    | none => none

/-- A tensor is pinned under the step number in force (R231). -/
def pinnedNow (s : State) (h : Nat) : Bool :=
  match find s.tensors h with
  | some t => (match t.pinned with
    | some n => decide (stepNumber s (handleAccount h) ≤ n)
    | none => false)
  | none => false

/-- Another started item writes the tensor (R106). -/
def otherWriter (s : State) (id h : Nat) : Bool :=
  s.items.any fun p => decide (p.1 ≠ id) && decide (p.2.stage = 2 ∨ p.2.stage = 3) && (outputHandles s p.2.slip).contains h

/-- Deck-arrays of a tensor. -/
def Tensor.deckList (t : Tensor) : List Nat := (t.tiles.flatMap fun p => p.2.map TilePart.deck).eraseDups

/-- A SETTLE of the tensor has started and not ended (R179, R232). -/
def settleRuns (s : State) (h : Nat) : Bool :=
  s.items.any fun p => decide (p.2.stage = 2 ∨ p.2.stage = 3) && decide (p.2.family = famSettle) && decide (slipA p.2.slip = h)

/-- A settlement or assay step waits for a deck: levels to apply, a refresh that is due, a SETTLE (R152, R168, R185). -/
def stepWaits (s : State) (d : Nat) : Bool :=
  (s.deck d).measured.isSome || refreshWaits s (s.deck d) || (match (s.deck d).bound with
    | some (h, _) => settleRuns s h
    | none => false)

end Sys2Proof.Machine
end

