-- ==== Sys2Proof/Machine/Places.lean ====
section
/-! DEFINITION. Where objects lie: the capacities that SRAM and HBM offer, extents and the stacks that hold them, the placer's choice
between SRAM and HBM, and what a lost region, stack or half takes with it (R269, R270, R274, R344, R349, R352, R370 to R372). -/

namespace Sys2Proof.Machine

open Sys2Proof

/-- Bytes of an HBM extent (R270). -/
def extentBytes : Nat := 2 ^ 21

/-! ### Capacities (Tables 8.7 and 11.2) -/

/-- The device's reserve in MiB: the home image of the struck copy, and journal overflow, dump staging and placer tables (R269). -/
def homeImageMib : Nat := 32256
def devicePartMib : Nat := 512
/-- The fence margin in MiB (Table 11.2). -/
def fenceMarginMib : Nat := 14336

/-- Capacity of the stacks in service, GiB. -/
def fittedGib (s : State) : Nat := tableSum s.hbmStacks fun _ k => k.fittedGib
def lostGib (s : State) : Nat := tableSum s.hbmStacks fun i k => if k.fenced || halfOut s (if i < 4 then .west else .east) then k.fittedGib else 0
/-- The capacity offered under R3, GiB. -/
def offeredGib (s : State) : Nat := min s.power.record.hbmGib (fittedGib s)
/-- HBM for accounts, MiB: what is offered, less what is lost, the device's reserve and the fence margin. -/
def hbmCapacity (s : State) : Nat := (offeredGib s - lostGib s) * 1024 - homeImageMib - devicePartMib - fenceMarginMib

def regionsOut (s : State) : Nat := ((List.range 4).filter fun r => regionFenced s r).length
/-- SRAM for accounts, MiB: 28 GiB less 128 MiB a region, of the regions in service. -/
def sramCapacity (s : State) : Nat := 28160 - 7040 * regionsOut s

/-! ### Extents (R269, R270) -/

/-- A stack in service. -/
def stackUp (s : State) (k : Nat) : Bool :=
  !(s.stack k).fenced && decide (0 < (s.stack k).fittedGib) && !halfOut s (if k < 4 then .west else .east)
def stacksUp (s : State) : List Nat := (List.range 8).filter (stackUp s)

/-- Extents of a stack as trained (R270, R412). -/
def stackExtents (s : State) (k : Nat) : Nat := (s.stack k).fittedGib * 512

/-- Extents as pairs of stack and number, and back. -/
def flat (e : Extents) : List (Nat × Nat) := e.flatMap fun p => p.2.map fun x => (p.1, x)
def gather (l : List (Nat × Nat)) : Extents := l.foldl (fun t p => modify [] t p.1 fun q => insertNat q p.2) []

/-- Extents that objects or reservations have. -/
def usedExtents (s : State) : List (Nat × Nat) :=
  (s.tensors.flatMap fun p => flat p.2.place.extents) ++ (s.images.flatMap fun p => flat p.2.place.extents) ++
  (s.tickets.flatMap fun p => flat p.2.extents) ++ s.accounts.flatMap fun p => flat p.2.vaultExtents ++ flat p.2.slotExtents

/-- Extents of each stack that the device's reserve has, and after them those of the fence margin (R269, Table 11.2; log 15). -/
def reserveExtents : Nat := (homeImageMib + devicePartMib) / 2 / 8
def marginExtents : Nat := fenceMarginMib / 2 / 8

/-- What the fence margin holds of displaced contents, MiB (R352). -/
def State.marginUsed (s : State) : Nat :=
  2 * ((usedExtents s).filter fun p => decide (reserveExtents ≤ p.2) && decide (p.2 < reserveExtents + marginExtents)).length

/-- Extents in the order in which the placer gives them out: stacks in turn, from one that it chooses (log 15). -/
def extentOrder (s : State) (base : Nat) : List (Nat × Nat) :=
  (List.range (8 * 32768)).map fun i => ((Config.placerChoice s.free + i) % 8, base + i / 8)

/-- `n` extents that nothing has, from a first number. -/
def freeExtents (s : State) (base n : Nat) : Extents :=
  gather (((extentOrder s base).filter fun p =>
    stackUp s p.1 && decide (p.2 < stackExtents s p.1) && !(usedExtents s).contains p).take n)

/-- Extents of some bytes, on the stacks that the placer chooses (R270; log 15). -/
def newExtents (s : State) (bytes : Nat) : Extents := freeExtents s (reserveExtents + marginExtents) (ceilDiv bytes extentBytes)

/-- Released extents take zero tags (R361). -/
def State.releaseExtents (s : State) (l : List (Nat × Nat)) : State :=
  l.foldl (fun s p => s.setStack p.1 { s.stack p.1 with zeroTags := insertNat (s.stack p.1).zeroTags p.2 }) s

/-- Extents of an account's objects and reservations (R361). -/
def accountExtents (s : State) (a : Nat) : List (Nat × Nat) :=
  ((s.tensors.filter fun p => decide (handleAccount p.1 = a)).flatMap fun p => flat p.2.place.extents) ++
  ((s.images.filter fun p => decide (handleAccount p.1 = a)).flatMap fun p => flat p.2.place.extents) ++
  (match s.account? a with
   | some x => flat x.vaultExtents ++ flat x.slotExtents
   | none => [])

/-- A reservation of extents that grows, or that keeps those in use and some others (R359); and those that it gives up. -/
def resizeExtents (s : State) (e : Extents) (used : List (Nat × Nat)) (n : Nat) : Extents :=
  if (flat e).length ≤ n then gather (flat e ++ flat (freeExtents s (reserveExtents + marginExtents) (n - (flat e).length)))
  else gather ((((flat e).filter used.contains) ++ (flat e).filter fun p => !used.contains p).take n)
def givenUp (old new : Extents) : List (Nat × Nat) := (flat old).filter fun p => !(flat new).contains p

/-- The stack that holds the home image of a deck-array's struck copy: 2,688 deck-arrays a stack, and those of a lost one over the rest
(R173, R269, R371). -/
def homeStack (s : State) (dn : Nat) : Option Nat :=
  if stackUp s (dn / 2688) then some (dn / 2688) else (stacksUp s)[dn % (stacksUp s).length]?

/-! ### SRAM or HBM (R274, R344, R349) -/

/-- Bytes of an account's objects that lie in SRAM. -/
def sramUsed (s : State) (a : Nat) : Nat :=
  tableSum s.tensors (fun h t => if t.place.sram.isSome then ofAccount h a t.charge else 0) +
  tableSum s.images (fun h g => if g.place.sram.isSome then ofAccount h a g.charge else 0) +
  (match s.account? a with
   | some x => tableSum x.vault fun _ e => if e.place.sram.isSome then e.bytes else 0
   | none => 0) + ledgerUsed s a true

/-- The account's SRAM quota has room for some bytes that no other item of the account waits for (R274). -/
def sramRoom (s : State) (a bytes : Nat) : Bool := match s.account? a with
  | some x => decide (sramUsed s a + pendingCharge s a slipPool + bytes ≤ x.sramPool)
  | none => false

/-- A region in service, the placer's choice. -/
def someRegion (s : State) : Option Nat :=
  let l := (List.range 4).filter fun r => !regionFenced s r
  l[Config.placerChoice s.free % l.length]?

/-- Where a new object lies: in SRAM where the placer chooses so and there is room, else in extents (R270, R349; log 15). -/
def newPlace (s : State) (a bytes : Nat) : Place :=
  if Config.placerChoice (s.free + 1) % 2 = 1 ∧ sramRoom s a bytes = true then { sram := someRegion s } else { extents := newExtents s bytes }

/-! ### Capacity that is lost (R371, R372) -/

/-- Bytes that an account's objects charge. -/
def accountBytes (s : State) (a : Nat) : Nat :=
  poolUsed s a + fallbackUsed s a + (match s.account? a with
    | some x => tableSum x.vault fun _ e => if e.mark then 0 else e.bytes
    | none => 0)

/-- The code with which an item ends whose charge the remaining capacity cannot meet, 0 while it can (R372). -/
def unmetCharge (s : State) : Nat :=
  if lostGib s = 0 ∨ s.accounts.foldl (fun n p => n + accountBytes s p.1) 0 ≤ (hbmCapacity s + sramCapacity s) * mib then 0
  else if s.bridgeUp then 0x4007 else 0x4008

/-- Extents without those of lost stacks, for which as many are given out, of the fence margin first (R371). -/
def moveExtents (s : State) (hbms : List Nat) (e : Extents) : Extents :=
  gather (((flat e).filter fun p => !hbms.contains p.1) ++
    flat (freeExtents s reserveExtents ((flat e).filter fun p => hbms.contains p.1).length))

/-- What a loss takes: the SRAM of some regions, and some stacks. -/
structure Loss where
  regions : List Nat := []
  hbms : List Nat := []
  deriving DecidableEq, Repr

/-- Part of an object lay where the loss is. -/
def Loss.takes (l : Loss) (p : Place) : Bool := match p.sram with
  | some r => l.regions.contains r
  | none => l.hbms.any fun k => decide (lookup [] p.extents k ≠ [])

/-- The object's new place: what lay in a lost region goes into HBM, what lay on a lost stack onto the others. -/
def movedPlace (s : State) (l : Loss) (p : Place) (bytes : Nat) : Place :=
  if l.takes p then
    (match p.sram with
     | some _ => { p with sram := none, extents := if p.extents = [] then freeExtents s reserveExtents (ceilDiv bytes extentBytes) else p.extents }
     | none => { p with extents := moveExtents s l.hbms p.extents })
  else p

/-- An object that the loss takes has lost bytes: all of what lay on a stack; of a region, what salvage could not read (R370, R371;
log 31). -/
def bytesLost (n : Nat) (l : Loss) (readable : Bool) (object : Nat) (p : Place) : Bool :=
  l.takes p && (if p.sram.isSome && readable then Config.lostBytes n object else true)

/-- A tensor after a loss; a fallback conversion is formed again from the struck copy (R243). -/
def lostTensor (s : State) (code : Nat) (l : Loss) (readable : Bool) (h : Nat) (t : Tensor) : Tensor :=
  if t.cls = 1 then
    { t with place := movedPlace s l t.place t.fallbackCharge, fallbackFmt := if l.takes t.place then none else t.fallbackFmt }
  else { t with place := movedPlace s l t.place t.charge, poison := if bytesLost s.free l readable h t.place then code else t.poison }

def lostImage (s : State) (code : Nat) (l : Loss) (readable : Bool) (h : Nat) (g : Image) : Image :=
  { g with place := movedPlace s l g.place g.charge, poison := if bytesLost s.free l readable h g.place then code else g.poison }

/-- A vault entry after a loss: in extents that its account's reservation now has. -/
def lostEntry (n : Nat) (code : Nat) (l : Loss) (readable : Bool) (vault : Extents) (object : Nat) (e : VaultEntry) : VaultEntry :=
  let kept := (flat e.place.extents).filter (flat vault).contains
  let rest := ((flat vault).filter fun p => !kept.contains p).take ((flat e.place.extents).length - kept.length)
  { e with
    place := { sram := if l.takes { sram := e.place.sram } then none else e.place.sram, extents := gather (kept ++ rest) }
    poison := if bytesLost n l readable object e.place then code else e.poison }

/-- An account's reservations of extents after a loss, and its vault. -/
def State.loseAccount (s : State) (code : Nat) (l : Loss) (readable : Bool) (a : Nat) : State :=
  match s.account? a with
  | none => s
  | some x =>
    let vault := moveExtents s l.hbms x.vaultExtents
    let s := s.setAccount a { x with
      vaultExtents := vault, vault := mapValues (fun i e => lostEntry s.free code l readable vault (2 ^ 64 + 2 ^ 32 * a + i) e) x.vault }
    match s.account? a with
    | some x => s.setAccount a { x with slotExtents := moveExtents s l.hbms x.slotExtents }
    | none => s

/-- The objects of a loss take new places, and those that lost bytes are poisoned with its code (R370, R371, R373). -/
def State.poisonLost (s : State) (code : Nat) (l : Loss) (readable : Bool) : State :=
  let s := (s.tensors.map Prod.fst).foldl (fun s h => match find s.tensors h with
    | some t => s.setTensor h (lostTensor s code l readable h t)
    | none => s) s
  let s := (s.images.map Prod.fst).foldl (fun s h => { s with images := adjust s.images h (lostImage s code l readable h) }) s
  let s := (s.accounts.map Prod.fst).foldl (fun s a => s.loseAccount code l readable a) s
  { s with free := s.free + 1 }

end Sys2Proof.Machine
end

