-- ==== Sys2Proof/Machine/Vault.lean ====
section
/-! DEFINITION. The vault: the decision of a STASH, STASH, RECALL, and where entries lie (R233 to R240, R274, R275). -/

namespace Sys2Proof.Machine

open Sys2Proof

/-- The layer index of a STASH or RECALL (Table 7.4). -/
def slipLayer (w : Nat) : Nat := bits (slipParam0 w) 31 0

/-- The checkpoint reserve: 10% of the vault quota, down to a multiple of 4 KiB (R233). -/
def vaultReserve (p : Params) : Nat := p.vaultQuota * mib / 10 / kib4 * kib4

def vaultOrdinary (p : Params) : Nat := p.vaultQuota * mib - vaultReserve p

/-- Bytes decided and not yet released, of the reserve or of the ordinary part: entries, and STASHes under way (R235). -/
def vaultUsed (s : State) (account : Nat) (reserve : Bool) : Nat :=
  (match s.account? account with
   | some a => tableSum a.vault fun _ e => if e.mark = false ∧ e.reserve = reserve then e.bytes else 0
   | none => 0) +
  tableSum s.items fun _ x => if x.account = account ∧ x.live = true ∧
      x.decision = (if reserve then VaultDecision.reserve else .ordinary) then x.decisionBytes else 0

/-- The vault decision of a STASH at this moment (R235, R236), for an entry of `bytes`. -/
def State.decideStash (s : State) (x : Item) (bytes : Nat) : State × Item :=
  match s.account? x.account with
  | none => (s, x)
  | some a =>
    let layer := slipLayer x.slip
    let fits := decide (vaultUsed s x.account false + bytes ≤ vaultOrdinary a.params)
    let fitsReserve := decide (vaultUsed s x.account true + bytes ≤ vaultReserve a.params)
    let y := { x with decisionBytes := bytes, context := x.place 1, aux0 := saturate 32 a.marks }
    let reserve := if fitsReserve then { y with decision := .reserve }
      else { y with decision := .noFit, decisionBytes := 0, stage := 6, status := stQuota }
    match a.runStart with
    | none =>
      if fits then (s, { y with decision := .ordinary })
      else (s.setAccount x.account { a with runStart := some layer }, reserve)
    | some l0 =>
      if (layer + 4 - l0 % 4) % 4 = 0 then (s, reserve)
      else
        let a := { a with marks := a.marks + 1 }
        (s.setAccount x.account a, { y with decision := .marked, decisionBytes := 0, aux0 := saturate 32 a.marks })

/-- The poisoning fault of the tensors and images an item reads, 0 when none is poisoned (R373). -/
def poisonOf (s : State) (handles : List Nat) : Nat :=
  handles.foldl (fun code h => if code ≠ 0 then code else
    match find s.tensors h with
    | some t => t.poison
    | none => match find s.images h with
      | some g => g.poison
      | none => 0) 0

/-! ### Critical values that an item reads (R267, R268) -/

def isDistribute (w : Nat) : Bool := isClear w && clearDistribute w

/-- Tensors that an item replaces whole. -/
def replaces (x : Item) : List Nat :=
  let w := x.slip
  if isMove w 0 || isMove w 1 || isOp famRecall 0 w then [slipA w]
  else if isDistribute w && decide (slipA w ≠ 0) then [slipA w]
  else []

/-- A COPY converts: its destination's amax estimate is read (R99, R273). -/
def copyConverts (s : State) (w : Nat) : Bool :=
  isMove w 0 && (match find s.tensors (slipA w), find s.tensors (slipB w) with
    | some a, some b => decide (a.fmt ≠ b.fmt) || decide (b.cls = 1)
    | _, _ => false)

/-- A critical value of a tensor that the item reads fails its complement check. A tensor that the item replaces whole is not read, but for
the estimate of a COPY that converts. -/
def readsUnsound (s : State) (x : Item) : Bool :=
  (slipHandles x.slip).any fun h => match find s.tensors h with
    | some t => decide (t.flips ≠ []) && (!(replaces x).contains h || (copyConverts s x.slip && decide (lookup 0 t.flips 2 ≠ 0)))
    | none => false

/-- The mover that a value passes through: the device's choice (log 15). -/
def someMover (s : State) : Nat := moverBlock (Config.placerChoice s.free % 4)

/-- A scale, an estimate or a ceiling that the item reads fails its complement check: recorded, and the item ends (R268). -/
def State.mismatch (s : State) (id : Nat) (x : Item) : State :=
  (({ s with free := s.free + 1 } : State).complementFault (someMover s) 3 x.account id 7).endItem id stFinal 0x2201

/-- The meaning of the work of an item of one kind, which begins only once the item runs; otherwise nothing happens (log 4). -/
def State.working (s : State) (id : Nat) (kind : Nat → Bool) (f : Item → State) : Result :=
  match find s.items id with
  | some x => .next (if decide (x.stage = 2) && kind x.slip then f x else s)
  | none => .next s

/-- The same of work that reads tensors: the item ends where a critical value of them fails its check (R268). -/
def State.running (s : State) (id : Nat) (kind : Nat → Bool) (f : Item → State) : Result :=
  s.working id kind fun x => if readsUnsound s x then s.mismatch id x else f x

/-! ### STASH and RECALL (R237 to R239) -/

/-- Where a vault entry lies: in extents of its account's vault reservation, and in SRAM where the placer chooses so and there is room
(R274; log 15). -/
def vaultPlace (s : State) (account : Nat) (a : Account) (bytes : Nat) : Place :=
  let l := flat a.vaultExtents
  { sram := if Config.placerChoice (s.free + 1) % 2 = 1 ∧ sramRoom s account bytes = true then someRegion s else none,
    extents := gather ((l.rotateLeft (Config.placerChoice s.free)).take (ceilDiv bytes extentBytes)) }

/-- The entry that a STASH makes (R237, R238). -/
def newEntry (s : State) (id : Nat) (x : Item) (a : Account) (t : Tensor) : VaultEntry :=
  { reserve := decide (x.decision = .reserve), bytes := x.decisionBytes, fmt := t.fmt, rows := t.rows, cols := t.cols, sExp := t.sExp,
    codes := t.codes, ebytes := t.ebytes, fill := t.fill, ceil := t.ceil, sequence := id, place := vaultPlace s x.account a x.decisionBytes }

/-- STASH (R237, R238). -/
def stashEffect (s : State) (id : Nat) (x : Item) : State :=
  let layer := slipLayer x.slip
  match s.account? x.account, find s.tensors (slipA x.slip) with
  | some a, some t =>
    if (find a.vault layer).isSome then s.endItem id stFinal 0
    else if x.decision = .marked then
      (s.setAccount x.account { a with vault := ins a.vault layer { mark := true, sequence := id } }).finishItem id
        ({ x with work := { x.work with staged := true } } |>.flag flRecomputeMarked)
    else if t.poison ≠ 0 then s.endItem id stFinal t.poison
    else
      (({ s with free := s.free + 1 } : State).setAccount x.account { a with vault := ins a.vault layer (newEntry s id x a t) }).finishItem id
        ({ x with decisionBytes := 0, work := { x.work with staged := true } } |>.saw (t.vals.filter fun v => !v.isFinite))
  | _, _ => s.endItem id stFinal 0

def execStash (item : Nat) (s : State) : Result := s.running item (isOp famStash 0) (stashEffect s item)

/-- An earlier STASH of the same layer has not ended (R239). -/
def stashAhead (s : State) (id : Nat) (x : Item) : Bool :=
  s.items.any fun p => decide (p.1 < id) && p.2.live && decide (p.2.account = x.account) && decide (p.2.family = famStash) &&
    decide (slipLayer p.2.slip = slipLayer x.slip)

/-- An entry's contents in a tensor, as a new version (R239). -/
def Tensor.recall (t : Tensor) (e : VaultEntry) : Tensor :=
  { t with sExp := e.sExp, vExp := e.sExp, began := false, codes := e.codes, ebytes := e.ebytes, fill := e.fill, ceil := e.ceil,
           poison := e.poison }

/-- RECALL (R239). -/
def recallEffect (s : State) (id : Nat) (x : Item) : State :=
  let layer := slipLayer x.slip
  if stashAhead s id x then s
  else
    match s.account? x.account, find s.tensors (slipA x.slip) with
    | some a, some t =>
      match find a.vault layer with
      | none => s.endItem id stFinal 0
      | some e =>
        let s' := s.setAccount x.account { a with vault := del a.vault layer }
        if e.mark then s'.finishItem id (x.flag flRecomputeMarked)
        else if e.fmt ≠ t.fmt ∨ e.rows ≠ t.rows ∨ e.cols ≠ t.cols then s.endItem id stFinal 0
        else if e.flips ≠ [] then s.mismatch id x
        else if e.poison ≠ 0 then s.endItem id stFinal e.poison
        else
          let t := (t.newVersion a.stepNumber id none).recall e
          let t := t.observe a.commits (amaxOf t.vals)
          (s'.setTensor (slipA x.slip) t).finishItem id (x.saw (t.vals.filter fun v => !v.isFinite))
    | _, _ => s.endItem id stFinal 0

def execRecall (item : Nat) (s : State) : Result := s.running item (isOp famRecall 0) (recallEffect s item)

/-- The entry that moves next: earliest-consumed first out of SRAM, latest-consumed first into it (R275). -/
def vaultCandidate (a : Account) (toSram : Bool) : Option Nat :=
  (a.vault.foldl (fun (best : Option (Nat × Nat)) p =>
    if p.2.mark || p.2.place.sram.isSome == toSram then best
    else match best with
      | none => some (p.1, p.2.sequence)
      | some b => if (if toSram then decide (b.2 < p.2.sequence) else decide (p.2.sequence < b.2)) then some (p.1, p.2.sequence) else best)
    none).map Prod.fst

/-- An entry's bytes. -/
def entryBytes (a : Account) (layer : Nat) : Nat := (lookup ({} : VaultEntry) a.vault layer).bytes

/-- VAULT_EVICT: an entry moves to its HBM reservation, or into SRAM while its quota has room that no item waits for (R274, R275). Where it
lies changes nothing else. -/
def execVaultEvict (account : BitVec 6) (toSram : Bool) (s : State) : Result :=
  match s.account? account.toNat with
  | none => .next s
  | some a =>
    match vaultCandidate a toSram with
    | none => .next s
    | some layer =>
      .next (if toSram && !sramRoom s account.toNat (entryBytes a layer) then s
        else
          let sram := if toSram then someRegion s else none
          ({ s with free := s.free + 1 } : State).setAccount account.toNat
            { a with vault := adjust a.vault layer fun e => { e with place := { e.place with sram := sram } } })

end Sys2Proof.Machine
end

