-- ==== Sys2Proof/Machine/Rings.lean ====
section
/-! DEFINITION. Rings: bells, CONTROL words, shadows, and the consumption of slips (R41 to R60, R71 to R78, R402, R467). -/

namespace Sys2Proof.Machine

open Sys2Proof

/-- The endpoint of a half answers: its link has trained and runs at some width, and the half is in service (R34, R371, R395,
R431). -/
def endpointUp (s : State) (ep : Half) : Bool :=
  s.power.powerGood && !halfOut s ep && decide ((s.links.get ep).width ≠ 0) && decide ((s.links.get ep).trained = true)

/-- An access at an endpoint: nothing happens at one that is out of service (log 4). -/
def State.atEndpoint (s : State) (ep : Half) (f : State → State) : State := if endpointUp s ep then f s else s

/-- Error `code` on a ring (R49, R58): a running ring goes into error state, a stopping one shows it in its shadow. -/
def State.ringError (s : State) (n code : Nat) : State :=
  let r := s.ring n
  match r.state with
  | .running => (s.setRing n { r with state := .error, error := code }).writeShadow n
  | .stopping => (s.setRing n { r with error := code }).writeShadow n
  | _ => s

/-- A bell or CONTROL word that fails its complement check (R49). -/
def State.badComplement (s : State) (ep : Half) (n : Nat) : State :=
  let r := s.ring n
  let account := if r.state = .idle then noAccount else r.account
  (s.complementFault (endpointBlock ep) 5 account 0 0).ringError n 3

/-- The latest accepted index of an endpoint (R52, R402). -/
def Ring.kept1 (r : Ring) : Half → Nat
  | .west => r.bellWest
  | .east => r.bellEast

/-- An accepted index, kept by the endpoint and, while the bridge is up, by the other (R402). -/
def Ring.accept (r : Ring) (ep : Half) (both : Bool) (index : Nat) : Ring :=
  let r := if both || decide (ep = .west) then { r with bellWest := index, flips := del r.flips 0 } else r
  let r := if both || decide (ep = .east) then { r with bellEast := index, flips := del r.flips 1 } else r
  if r.completion then { r with consumer := index, flips := del r.flips 2 } else r

/-- The stored indices that a bell is compared with. -/
def Ring.bellReads (r : Ring) (ep : Half) : List Nat :=
  [match ep with
    | .west => 0
    | .east => 1, if r.completion then 3 else 2]

/-- An accepted bell, forwarded to the other endpoint (R402). -/
def State.acceptBell (s : State) (ep : Half) (n index : Nat) : State :=
  let s := s.setRing n ((s.ring n).accept ep s.bridgeUp index)
  if s.bridgeUp then s.emit (.bellForward ep.other n index) else s

/-- A BELL word at an endpoint (R49 to R52, R56). -/
def bellEffect (ep : Half) (n w : Nat) (s : State) : State :=
  let s := s.emit (.done ep)
  let index := bits w 31 0
  let r := s.ring n
  if bits w 63 32 ≠ onesComplement 32 index then s.badComplement ep n
  else if r.state = .idle then s.countIgnoredBell ep
  else if r.unsound (r.bellReads ep) then s.badComplement ep n
  else if !ahead32 index (r.kept1 ep) then s
  else if !r.completion && decide (2 ^ r.log2Size < sub32 index r.consumer) then s.ringError n 2
  else if r.completion && ahead32 index r.producer then s.ringError n 5
  else s.acceptBell ep n index

def execBell (ep : Half) (ring : Byte) (word : Word64) (s : State) : Result :=
  .next (s.atEndpoint ep (bellEffect ep ring.toNat word.toNat))

/-- A write that BELL_PAGE_WRITE_IGNORED covers: within a page and one SCL request, but no aligned 8-byte word of it (R48, R398). -/
def ignoredBellWrite (offset size : Nat) : Bool :=
  decide (0 < size) && decide (offset + size ≤ 4096) && !(decide (size = 8) && (decide (offset = 0) || decide (offset = 8)))

def execBellPageWriteIgnored (ep : Half) (_ring : Byte) (offset size : Nat) (s : State) : Result :=
  guardWf (ignoredBellWrite offset size)
    (.next (s.atEndpoint ep fun s => (s.emit (.done ep)).countIgnoredBell ep))

/-! ### CONTROL words (R49, R54, R55) -/

/-- A CONTROL word passes its complement check. -/
def controlSound (w : Nat) : Bool := decide (bits w 63 32 = onesComplement 32 (bits w 31 0))

/-- COMMAND of a CONTROL word, 0 where bits [31:8] are not 0 or the value is reserved (R55). -/
def controlCommand (w : Nat) : Nat := if bits w 31 8 = 0 ∧ bits w 7 0 ≤ 3 then bits w 7 0 else 0

/-- A CONTROL write at an endpoint: answered, checked, then acted on. -/
def controlEffect (ep : Half) (n w : Nat) (act : State → State) (s : State) : State :=
  let s := s.emit (.done ep)
  if controlSound w then act s else s.badComplement ep n

/-- A LOAD that fails (R45). -/
def State.loadFails (s : State) (n entry : Nat) : State :=
  let s := s.setRing n { s.ring n with state := .idle, error := 1 }
  let s := { s with hub := { s.hub with loadErrorRing := n, loadErrorCode := 1, loadErrorCount := (s.hub.loadErrorCount + 1) % 2 ^ 32 } }
  if bits entry 131 128 = 0 then s.poke (bits entry 191 128) (shadowBytes 0 .idle 1) else s

/-- The conditions of R44 are absent. An account under REMOVE counts as one not admitted, from its removal's start (log 70). -/
def loadOk (s : State) (entry : Nat) : Bool :=
  let r := ringOfEntry entry
  decide (4 ≤ r.log2Size) && decide (r.log2Size ≤ 20) && decide (bits entry 11 0 = 0) && decide (bits entry 131 128 = 0) &&
  !ringEntryReserved entry && (if r.completion then decide (r.completionRing = 0) else decide (r.irqData = 0)) &&
  (match s.account? r.account with
   | some a => !a.removing
   | none => false) &&
  (r.completion || (let c := s.ring r.completionRing
    decide (c.state ≠ .idle) && c.completion && decide (c.account = r.account)))

/-- LOAD (R43 to R46, R54, R55). -/
def loadEffect (n : Nat) (s : State) : State :=
  if (s.ring n).state ≠ .idle then s.ringError n 4
  else
    let entry := readLE s.cmem (s.hub.ringTableBase + 32 * n) 32
    if loadOk s entry then (s.setRing n { ringOfEntry entry with state := .running }).writeShadow n
    else s.loadFails n entry

def execLoad (ep : Half) (ring : Byte) (word : Word64) (cw : List CWrite) (s : State) : Result :=
  guardWf (decide (controlCommand word.toNat = 1) || !controlSound word.toNat)
    (.next ((s.companion cw).atEndpoint ep (controlEffect ep ring.toNat word.toNat (loadEffect ring.toNat))))

/-- A submission ring that reports to a completion ring is not idle, or has items in flight (R55). -/
def ringInUse (s : State) (n : Nat) : Bool :=
  s.rings.any fun p => !p.2.completion && decide (p.2.completionRing = n) &&
    (decide (p.2.state ≠ .idle) || decide (0 < inFlight s p.1))

/-- A ring stops consuming; a completion ring is idle at once (R54). -/
def State.stopRing (s : State) (n : Nat) : State :=
  let r := s.ring n
  (s.setRing n { r with state := if r.completion then .idle else .stopping }).writeShadow n

/-- The refusals that STOP and DRAIN share (R55). -/
def stopOr (ep : Half) (n : Nat) (act : State → State) (s : State) : State :=
  let r := s.ring n
  if r.state = .idle then s.countIgnoredBell ep
  else if r.completion && ringInUse s n then s.ringError n 6
  else act s

/-- A GEMM on AABs has evaluations under way whose output tiles are not converted (R154). -/
def midTile (x : Item) : Bool := decide (x.work.units ≠ []) || x.work.final

/-- An item stands at its stopping point (Table 2.13): one that has not started, a GEMM on AABs with no tile under way, a KERNEL RUN
whose threads are all between units. The other kinds reach theirs with the command in which they stand (log 69). -/
def atStoppingPoint (s : State) (id : Nat) (x : Item) : Bool :=
  decide (x.stage ≤ 1) ||
  (if isRun x.slip then !(s.tellers.any fun f => f.2.threads.any fun t => decide (t.2.item = some id))
   else if isGemm x.slip && decide (slipOpcode x.slip = 0) && tensorIs (s.tensor? (slipC x.slip)) (fun c => decide (c.cls = 1)) then !midTile x
   else true)

/-- An item that STOP or REMOVE ends: CANCELLED at its stopping point, or marked to stop there (R467). -/
def State.stopItem (s : State) (id : Nat) (x : Item) : State :=
  if atStoppingPoint s id x then s.endItem id stCancelled 0 else s.setItem id { x with stopping := true }

/-- Every unfinished item of a set ends at its stopping point; one whose change is made ends as usual (R54, R467). -/
def State.cancelWhere (s : State) (p : Nat × Item → Bool) : State :=
  ((s.items.filter p).map Prod.fst).foldl (fun s id =>
    match find s.items id with
    | some x => if x.stage ≤ 2 then s.stopItem id x else s
    | none => s) s

/-- An item that is to stop ends CANCELLED once a stopping point is reached (R467). -/
def State.reachStop (s : State) (id : Nat) (boundary : Bool) : State :=
  match find s.items id with
  | some x => if x.stopping && boundary && decide (x.stage = 2) then s.endItem id stCancelled 0 else s
  | none => s

def stopEffect (ep : Half) (n : Nat) (s : State) : State :=
  stopOr ep n (fun s => (s.stopRing n).cancelWhere fun p => decide (p.2.ring = n)) s

def execStop (ep : Half) (ring : Byte) (word : Word64) (s : State) : Result :=
  guardWf (decide (controlCommand word.toNat = 2) || !controlSound word.toNat)
    (.next (s.atEndpoint ep (controlEffect ep ring.toNat word.toNat (stopEffect ep ring.toNat))))

def drainEffect (ep : Half) (n : Nat) (s : State) : State := stopOr ep n (fun s => s.stopRing n) s

def execDrain (ep : Half) (ring : Byte) (word : Word64) (s : State) : Result :=
  guardWf (decide (controlCommand word.toNat = 3) || !controlSound word.toNat)
    (.next (s.atEndpoint ep (controlEffect ep ring.toNat word.toNat (drainEffect ep ring.toNat))))

def execControlReservedCommand (ep : Half) (ring : Byte) (word : Word64) (s : State) : Result :=
  guardWf (decide (controlCommand word.toNat = 0) || !controlSound word.toNat)
    (.next (s.atEndpoint ep (controlEffect ep ring.toNat word.toNat fun s => s.countIgnoredBell ep)))

/-! ### The end of a removal (R363) -/

/-- Deck-arrays of an account's tensors and records are cleared, to be zero-programmed (R360, R363). -/
def clearDeck (now account : Nat) (d : Deck) : Deck :=
  let mine := (match d.bound with
    | some (h, _) => decide (handleAccount h = account)
    | none => false) || (match d.binding with
    | some b => decide (b.account = account)
    | none => false)
  if mine then { d with bound := none, binding := none, bindingDirty := some now, dirty := true, working := false } else d

/-- Every object of an account ends and its resources are released (R359 to R363). -/
def State.clearAccount (s : State) (a : Nat) : State :=
  let s := s.releaseExtents (accountExtents s a)
  { s with
    tensors := s.tensors.filter fun p => decide (handleAccount p.1 ≠ a)
    tallies := s.tallies.filter fun p => decide (handleAccount p.1 ≠ a)
    images := s.images.filter fun p => decide (handleAccount p.1 ≠ a)
    tellers := tidy {} (mapValues (fun _ f => f.forget fun h => decide (handleAccount h = a)) s.tellers)
    decks := tidy {} (mapValues (fun _ d => clearDeck s.now a d) s.decks)
    offers := s.offers.filter fun o => decide (o.frame.header.account.toNat ≠ a)
    pools := s.pools.map fun p => (p.1, { p.2 with deficit := del p.2.deficit a })
    accounts := del s.accounts a }

/-- The rings of an account go idle (R363). -/
def State.idleRings (s : State) (a : Nat) : State :=
  ((s.rings.filter fun p => decide (p.2.account = a) && decide (p.2.state ≠ .idle)).map Prod.fst).foldl
    (fun s n => (s.setRing n { s.ring n with state := .idle }).writeShadow n) s

/-- The result of an account command replaces BUSY (R347). -/
def State.accountDone (s : State) (result : Nat) : State := s.setHub { s.hub with accountResult := result }

/-- A removal ends once every receipt of the account is written (R363). -/
def State.finishRemove (s : State) (a : Nat) : State :=
  match s.account? a with
  | some x =>
    if x.removing && !(s.items.any fun p => decide (p.2.account = a)) then
      ((s.idleRings a).clearAccount a).accountDone 0
    else s
  | none => s

def execRingIdle (ring : Byte) (s : State) : Result :=
  let r := s.ring ring.toNat
  .next (if r.state = .stopping ∧ inFlight s ring.toNat = 0 then
    (s.setRing ring.toNat { r with state := .idle }).writeShadow ring.toNat else s)

/-- The first receipt that a ring keeps is written once a slot is free (R78). -/
def State.deferredReceipt (s : State) (n : Nat) : State :=
  let r := s.ring n
  match r.kept with
  | [] => s
  | id :: rest =>
    if ringFull r || r.unsound [2, 3] then s
    else match find s.items id with
      | some x => ((s.setRing n { r with kept := rest }).putReceipt id x).finishRemove x.account
      | none => s.setRing n { r with kept := rest }

def execReceiptWriteDeferred (ring : Byte) (s : State) : Result := .next (s.deferredReceipt ring.toNat)

/-- ITEM_COMPLETE: POST_SIGNAL, receipt, shadow, interrupt, of an item whose work is acknowledged or that ended without
success (R76 to R84). -/
def execItemComplete (item : Nat) (s : State) : Result :=
  match find s.items item with
  | none => .next s
  | some x =>
    if x.stage = 3 then .next (((s.completeItem item x).writeReceipt item).finishRemove x.account)
    else if x.stage = 6 ∨ x.stage = 4 then .next ((s.writeReceipt item).finishRemove x.account)
    else .next s

/-! ### Consumption (R53, R59, R71 to R75) -/

def itemLimit : Nat := 4096

/-- The ring may consume a slip now (R54, R74, R78). -/
def mayConsume (s : State) (n : Nat) : Bool :=
  let r := s.ring n
  let cr := s.ring r.completionRing
  decide (r.state = .running) && !r.completion && decide (r.consumer ≠ r.bellIndex) && decide (inFlight s n < itemLimit) &&
  !ringFull cr && decide (cr.kept = [])

/-- The journal entry of a slip just read. -/
def newItem (s : State) (n w : Nat) : Item :=
  let r := s.ring n
  { account := r.account, ring := n, slipIndex := r.consumer, family := slipFamily w, opcode := slipOpcode w,
    epoch := hubEpoch s, slip := w, prev := r.lastItem, prevStatus := r.lastStatus, readyAt := s.now, progressAt := s.now }

/-- What consumption itself rejects a slip for. A CLEAR whose group is to be read is checked whole once that read is done, so that
REJECT_OFFSET is the lowest byte of all its offences (R278, R463; log 72). -/
def consumptionOffences (s : State) (account w : Nat) : List Nat :=
  let l := offences s account w
  if isClear w && decide (slipOpcode w ≤ 1) && (groupTableOffence s account w).isEmpty then [] else l

/-- The checks of R71 and, for a STASH, the vault decision (R235). -/
def State.checkSlip (s : State) (x : Item) : State × Item :=
  let w := x.slip
  if !versionOk w then (s, { x with stage := 6, status := stVersion })
  else
    match lowestByte (consumptionOffences s x.account w) with
    | some byte => (s, s.stashAux { x with stage := 6, status := stMalformed, rejectOffset := byte })
    | none =>
      if !quotaOk s x.account w then (s, s.stashAux { x with stage := 6, status := stQuota })
      else if slipFamily w = famStash then
        match find s.tensors (slipA w) with
        | some t => if t.elements = 0 then (s, x) else s.decideStash x (imageBytes t.fmt t.rows t.cols)
        | none => (s, x)
      else (s, x)

/-- One slip consumed. -/
def State.consumeOne (s : State) (n : Nat) : State :=
  let r := s.ring n
  let w := readLE s.cmem (r.base + 64 * (r.consumer % 2 ^ r.log2Size)) 64
  let id := s.nextItem
  let c := s.checkSlip (newItem s n w)
  let s := { c.1 with nextItem := id + 1, items := ins c.1.items id c.2 }
  let s := s.bump (issuer s) 0 1
  s.setRing n { r with consumer := (r.consumer + 1) % 2 ^ 32, lastItem := some id,
                       lastStatus := if c.2.stage = 6 then some c.2.status else none }

/-- Every announced slip that the limits let it consume. -/
def consumeLoop (n : Nat) : Nat → State → State
  | 0, s => s
  | k + 1, s => if mayConsume s n then consumeLoop n k (s.consumeOne n) else s

/-- SLIP_CONSUME: announced slips are copied and checked, then the shadow INDEX moves (R53, R59). -/
def execSlipConsume (ring : Byte) (cw : List CWrite) (s : State) : Result :=
  let s := s.companion cw
  .next (if consumes s && mayConsume s ring.toNat then
    (if (s.ring ring.toNat).unsound [0, 1, 2] then (s.ringMismatch ring.toNat).ringError ring.toNat 3
     else (consumeLoop ring.toNat itemLimit s).writeShadow ring.toNat) else s)

end Sys2Proof.Machine
end

