-- ==== Sys2Proof/Machine/Lanes.lean ====
section
/-! DEFINITION. The lanes of a teller (R250, R251): correctly rounded arithmetic, and the functions that a lane gives within two units in the
last place. A function's exact value is reckoned in fixed point of 320 fraction bits, far finer than FP32. -/

namespace Sys2Proof.Machine

open Sys2Proof

/-! ### Fixed point -/

def fxBits : Nat := 320
def fxOne : Int := pow2 320
def fxMul (a b : Int) : Int := a * b / fxOne
def fxDiv (a b : Int) : Int := a * fxOne / b
/-- A number as a multiple of 2^-320, rounded down. -/
def fxOf (x : Dy) : Int := x.at (-320)

/-- e^r for 0 ≤ r ≤ 1, by its series. -/
def fxExp (r : Int) : Int := (List.range 80).foldl (fun a k => fxOne + fxMul r a / ((80 - k : Nat) : Int)) fxOne

/-- artanh z for |z| ≤ 1/3, by its series. -/
def fxArtanh (z : Int) : Int :=
  ((List.range 130).foldl (fun (q : Int × Int) k => (q.1 + q.2 / ((2 * k + 1 : Nat) : Int), fxMul (fxMul q.2 z) z)) (0, z)).1

def fxLn2 : Int := 2 * fxArtanh (fxOne / 3)

/-! ### Exact values -/

/-- e^x for |x| < 2^10. -/
def expOf (x : Dy) : Dy :=
  let k := fxOf x / fxLn2
  ⟨fxExp (fxOf x - k * fxLn2), k - 320⟩

/-- 2^x for |x| < 2^10. -/
def exp2Of (x : Dy) : Dy :=
  let k := fxOf x / fxOne
  ⟨fxExp (fxMul (fxOf x - k * fxOne) fxLn2), k - 320⟩

/-- ln x for x > 0. -/
def lnOf (x : Dy) : Dy :=
  let l := x.floorLog2
  let y := fxOf (x.scale (-l))
  ⟨l * fxLn2 + 2 * fxArtanh (fxDiv (y - fxOne) (y + fxOne)), -320⟩

def log2Of (x : Dy) : Dy := ⟨fxDiv (lnOf x).m fxLn2, -320⟩

/-- tanh x for |x| < 2^6. -/
def tanhOf (x : Dy) : Dy :=
  let e := fxOf (expOf (x.abs.scale 1))
  let t : Dy := ⟨fxDiv (e - fxOne) (e + fxOne), -320⟩
  if x.m < 0 then t.neg else t

/-- 1 / (1 + e^-x) for |x| < 2^8. -/
def logisticOf (x : Dy) : Dy := ⟨fxDiv fxOne (fxOne + fxOf (expOf x.neg)), -320⟩

/-! ### Functions within two units in the last place -/

inductive LaneFunction where
  | exp
  | exp2
  | log
  | log2
  | tanh
  | logistic
  deriving DecidableEq, Repr

def LaneFunction.number : LaneFunction → Nat
  | .exp => 0
  | .exp2 => 1
  | .log => 2
  | .log2 => 3
  | .tanh => 4
  | .logistic => 5

/-- The exact value of a function of a finite number; none where the manual states no value, at the logarithm of a number that is not positive.
A value too large or too small for FP32 is given as one that rounds to the same result. -/
def LaneFunction.exact (f : LaneFunction) (x : Dy) : Option Dy :=
  let big := decide (10 ≤ x.floorLog2) && !x.isZero
  match f with
  | .exp => some (if big then (if x.m < 0 then Dy.zero else ⟨1, 1024⟩) else expOf x)
  | .exp2 => some (if big then (if x.m < 0 then Dy.zero else ⟨1, 1024⟩) else exp2Of x)
  | .log => if 0 < x.m then some (lnOf x) else none
  | .log2 => if 0 < x.m then some (log2Of x) else none
  | .tanh => some (if !x.isZero && decide (6 ≤ x.floorLog2) then ⟨sign x.m, 0⟩ else tanhOf x)
  | .logistic => some (if !x.isZero && decide (8 ≤ x.floorLog2) then (if x.m < 0 then Dy.zero else ⟨1, 0⟩) else logisticOf x)
where sign (m : Int) : Int := if m < 0 then -1 else 1

/-- A unit in the last place of FP32 at a number. -/
def ulpOf (x : Dy) : Dy := ⟨1, max (-149) (x.floorLog2 - 23)⟩

/-- Within two units in the last place of an exact value. -/
def withinTwoUlp (exact : Dy) (y : F32) : Bool :=
  (F32.val y).isFinite && Dy.le ((F32.val y).toDy.sub exact).abs ((ulpOf exact).scale 1)

/-- A lane's function of an input: the same bits for the same input on every teller, within two units in the last place (R251). Which of these
it is, and its value where the manual states none, is free (log 19). -/
def laneFunction (f : LaneFunction) (x : F32) : F32 :=
  let raw := Config.laneFunction f.number x
  match F32.val x with
  | .fin n m e => match f.exact (Val.fin n m e).toDy with
    | some y => if withinTwoUlp y raw then raw else F32.ofDy y
    | none => raw
  | _ => raw

/-! ### Lane operations -/

def F32.fma (a b c : F32) : F32 := F32.ofVal (Val.add (Val.mul (F32.val a) (F32.val b)) (F32.val c))
def F32.reciprocal (x : F32) : F32 := F32.div F32.one x

/-- What a lane does in a cycle (Table 8.1); a compare, a select or a conversion is VKS's to define (log 19). -/
inductive LaneOp where
  | fma
  | add
  | mul
  | div
  | sqrt
  | reciprocal
  | function (f : LaneFunction)
  | other (kind : Nat)
  deriving DecidableEq, Repr

/-- The lane operation that a number spells in this model. -/
def LaneOp.ofNumber (n : Nat) : LaneOp :=
  match n % 16 with
  | 0 => .fma
  | 1 => .add
  | 2 => .mul
  | 3 => .div
  | 4 => .sqrt
  | 5 => .reciprocal
  | 6 => .function .exp
  | 7 => .function .exp2
  | 8 => .function .log
  | 9 => .function .log2
  | 10 => .function .tanh
  | 11 => .function .logistic
  | k => .other k

/-- One lane's step on three operands. -/
def laneStep (op : LaneOp) (a b c : Word32) : Word32 :=
  match op with
  | .fma => F32.fma a b c
  | .add => F32.add a b
  | .mul => F32.mul a b
  | .div => F32.div a b
  | .sqrt => F32.sqrt a
  | .reciprocal => F32.reciprocal a
  | .function f => laneFunction f a
  | .other k => Config.laneOther k [a, b, c]

end Sys2Proof.Machine
end

