-- ==== Sys2Proof/Machine/Digital.lean ====
section
/-! DEFINITION. GEMMs on the digital tensor blocks, item by item and block by block: operands, corrections, tile
instructions, context images, output conversion (R195 to R224). -/

namespace Sys2Proof.Machine

open Sys2Proof

/-! ### Operands -/

/-- The ceiling of contents as R206 counts them: the largest group exponent, or the largest element; 0 when all are zero. -/
def contentsCeiling (t : Tensor) : Dy :=
  let a := amaxOf t.vals
  if a.isZero then Dy.zero
  else if t.fmt.scaled then
    let top := (List.range (groupCount t.fmt t.rows t.cols)).foldl (fun m g => let e := t.ebyte g; if e = 255 then m else max m e) 0
    (Dy.mk t.fmt.maxFmt ((top : Int) - 127 + t.sExp)).norm
  else ceilingOf a

/-- The class-weight operand of an item as it was converted at its start (R197, R243). -/
def workOperand (x : Item) (c : Tensor) (f : Fmt) : Tensor :=
  let t : Tensor := { rows := c.rows, cols := c.cols, fmt := f, sExp := x.work.wExp, codes := tableOf x.work.wCodes,
                      ebytes := tableOf x.work.wBytes }
  { t with ceil := contentsCeiling t }

/-- The format a DTB reads a class-weight operand in (R215, Table 6.6). -/
def weightFormat (w : Nat) (b : Tensor) : Fmt :=
  if slipOpcode w ≤ 1 then (if b.fmt.width ≤ 8 then .f8 else .bf16)
  else if bits (slipParam0 w) 15 8 = 5 then .f8 else .bf16

/-- The fallback reserve of a weight holds its conversion into a format, of the struck copy's present version (R243). -/
def State.holdFallback (s : State) (h : Nat) (f : Fmt) : State :=
  { s with tensors := adjust s.tensors h fun t =>
      if t.cls = 1 then { t with fallbackFmt := some f, fallbackVersion := t.struckVersion } else t }

/-- One product as a DTB consumes it: rows, columns, reduction length, left and right operands, ceilings, mode (Table 6.5). -/
structure Product where
  rows : Nat
  cols : Nat
  length : Nat
  left : Tensor
  right : Tensor
  leftT : Bool
  rightT : Bool
  resident : Bool
  deriving DecidableEq, Repr

def Product.a (p : Product) (m k : Nat) : Val := if p.leftT then p.left.val k m else p.left.val m k
def Product.b (p : Product) (k n : Nat) : Val := if p.rightT then p.right.val n k else p.right.val k n

/-- The product of a DTB GEMM item. -/
def productOf (s : State) (x : Item) : Option Product :=
  let w := x.slip
  match find s.tensors (slipB w), find s.tensors (slipC w) with
  | some b, some c =>
    let c' := if c.cls = 1 then workOperand x c (weightFormat w b) else c
    let p0 := slipParam0 w
    some <| match slipOpcode w with
      | 2 => { rows := b.rows, cols := c.rows, length := b.cols, left := b, right := c', leftT := false, rightT := true, resident := bit p0 0 }
      | 3 => { rows := b.cols, cols := c.cols, length := b.rows, left := b, right := c', leftT := true, rightT := false, resident := bit p0 0 }
      | 4 => { rows := (plainShape b (bit p0 1)).1, cols := (plainShape c (bit p0 2)).2, length := (plainShape b (bit p0 1)).2,
               left := b, right := c', leftT := bit p0 1, rightT := bit p0 2, resident := bit p0 0 }
      | _ => { rows := b.rows, cols := c.cols, length := b.cols, left := b, right := c', leftT := false, rightT := false, resident := true }
  | _, _ => none

/-- The anchor of a RESIDENT product, none where a ceiling is 0 (R207). -/
def Product.lambda (p : Product) : Option Int :=
  let a := p.left.ceiling
  let b := p.right.ceiling
  if a.isZero || b.isZero then none else some (residentAnchor a b p.length)

/-- The item with the conversion of its class-weight operand as it is now (R197, R243); none where no conversion exists. -/
def snapshotWeight (s : State) (x : Item) : Option Item :=
  match find s.tensors (slipB x.slip), find s.tensors (slipC x.slip) with
  | some b, some c =>
    if c.cls ≠ 1 then some x
    else
      match weightOperand s c (weightFormat x.slip b) with
      | none => none
      | some o => some { x with work := { x.work with wCodes := (List.range o.elements).map o.code,
                                                      wBytes := (List.range (groupCount o.fmt o.rows o.cols)).map o.ebyte, wExp := o.sExp },
                                struckVersion := c.struckVersion }
  | _, _ => some x

/-- The item with the operands of a DTB product as it reads them at its start: a class-weight operand converted, the anchor fixed (R197,
R207). -/
def withOperand (s : State) (x : Item) : Option Item :=
  (snapshotWeight s x).map fun y => { y with work := { y.work with anchor := (productOf s y).bind Product.lambda } }

/-- One element's total, with the anchor the item fixed at its start (R203, R207). -/
def Product.total (p : Product) (anchor : Option Int) (orvane : Bool) (m n : Nat) : Val :=
  let pairs := pairsOf p.length (p.a m) (fun k => p.b k n)
  if p.resident then residentTotal anchor pairs else chunkedTotal orvane pairs

/-- One element's total as FP32 (R209). -/
def Product.value (p : Product) (anchor : Option Int) (orvane : Bool) (m n : Nat) : F32 :=
  let pairs := pairsOf p.length (p.a m) (fun k => p.b k n)
  F32.ofVal (totalWith (pairFlags pairs) (p.total anchor orvane m n))

/-! ### Corrections (R143, R218) -/

/-- t_k of a forward on K rows (R143), and of BACKWARD_DATA on a K × N weight (R218). -/
def corrInner (d : Tensor) (k : Nat) (x : Nat → Val) (r : Nat) : Val :=
  bf16Of (fmaChain ((List.range k).map fun i => (bf16Round (x i), d.val i r)))
def corrInnerBack (d : Tensor) (k n : Nat) (dy : Nat → Val) (r : Nat) : Val :=
  bf16Of (fmaChain ((List.range n).map fun j => (bf16Round (dy j), d.val (k + j) r)))

/-- corr_j of a forward on K rows: t_k over the input row, then Σ U_jk t_k (R143). -/
def corrForward (d : Tensor) (k : Nat) (x : Nat → Val) (j : Nat) : F32 :=
  fmaChain ((List.range d.cols).map fun r => (d.val (k + j) r, corrInner d k x r))

/-- corr_i of BACKWARD_DATA on a K × N weight (R218). -/
def corrBackward (d : Tensor) (k n : Nat) (dy : Nat → Val) (i : Nat) : F32 :=
  fmaChain ((List.range d.cols).map fun r => (d.val i r, corrInnerBack d k n dy r))

/-- The correction of an element of a DTB GEMM; none where no factors are given. -/
def correctionAt (s : State) (x : Item) (p : Product) (m n : Nat) : Option F32 :=
  (find s.tensors (slipD x.slip)).map fun d =>
    if slipOpcode x.slip = 2 then corrBackward d p.cols p.length (p.left.val m) n else corrForward d p.length (p.left.val m) n

def addCorrection (y : F32) : Option F32 → F32
  | some c => F32.add y c
  | none => y

/-- What forming a correction meets that is not finite: its t_k and itself (R114, R119). -/
def correctionSeen (s : State) (x : Item) (p : Product) (m n : Nat) : List Val :=
  match find s.tensors (slipD x.slip) with
  | some d => (((List.range d.cols).map fun r =>
      if slipOpcode x.slip = 2 then corrInnerBack d p.cols p.length (p.left.val m) r else corrInner d p.length (p.left.val m) r) ++
      ((correctionAt s x p m n).map F32.val).toList).filter fun v => !v.isFinite
  | none => []

/-- An element of a DTB GEMM before output conversion. -/
def elementValue (s : State) (x : Item) (p : Product) (m n : Nat) : F32 :=
  addCorrection (p.value x.work.anchor (paramsOf s x.account).orvane m n) (correctionAt s x p m n)

/-- What forming an element meets that is not finite before its final value: its total, and its correction (R114, R209). -/
def elementSeen (s : State) (x : Item) (p : Product) (m n : Nat) : List Val :=
  totalSeen (p.total x.work.anchor (paramsOf s x.account).orvane m n) ++ correctionSeen s x p m n

/-- Elements of the operands that are not finite (R119). -/
def operandSeen (s : State) (x : Item) (p : Product) : List Val :=
  (p.left.vals ++ p.right.vals ++ (match find s.tensors (slipD x.slip) with
    | some d => d.vals
    | none => [])).filter fun v => !v.isFinite

/-- Results as a table of FP32 values, +0 not listed. -/
def resultTable (n : Nat) (f : Nat → F32) : Table F32 :=
  (List.range n).filterMap fun i => let v := f i; if v = 0 then none else some (i, v)

def resultAt (x : Item) (i : Nat) : F32 := lookup 0 x.work.results i

/-- Flags a DTB GEMM sets by itself: FALLBACK_WIDE (R215), BOUND_VOID (R205). -/
def productFlags (x : Item) (p : Product) : Item :=
  (x.flagIf (decide (slipOpcode x.slip = 1)) flFallbackWide).flagIf (!p.resident && decide (2 ^ 20 < p.length)) flBoundVoid

/-- Every element of the product formed (R213: by whichever blocks). -/
def digitalEffect (s : State) (id : Nat) (x : Item) : State :=
  if x.work.final then s
  else
    let poison := poisonOf s [slipB x.slip, slipC x.slip, slipD x.slip]
    if poison ≠ 0 then s.endItem id stFinal poison
    else
      match productOf s x with
      | none => s.endItem id stFinal 0
      | some p =>
        let n := p.rows * p.cols
        let r := resultTable n fun i => elementValue s x p (i / p.cols) (i % p.cols)
        let seen := (List.range n).flatMap fun i => elementSeen s x p (i / p.cols) (i % p.cols)
        let y := ((productFlags x p).saw (operandSeen s x p ++ seen)).saw (r.map fun q => F32.val q.2)
        s.setItem id { y with doneUnits := ceilDiv p.rows 256 * ceilDiv p.cols 128,
                              work := { y.work with results := r, final := true, images := [], nodes := [] } }

/-- A GEMM that runs wholly on DTBs (Table 2.6). -/
def isDigital (s : State) (w : Nat) : Bool := alwaysDigital s w

def execGemmForwardDigital (item : Nat) (s : State) : Result :=
  s.running item (fun w => isOp famGemm 0 w && isDigital s w) (digitalEffect s item)
def execForwardWide (item : Nat) (s : State) : Result := s.running item (isOp famGemm 1) fun x => digitalEffect s item x
def execBackwardData (item : Nat) (s : State) : Result := s.running item (isOp famGemm 2) fun x => digitalEffect s item x
def execBackwardWeight (item : Nat) (s : State) : Result := s.running item (isOp famGemm 3) fun x => digitalEffect s item x
def execPlain (item : Nat) (s : State) : Result := s.running item (isOp famGemm 4) fun x => digitalEffect s item x

/-! ### Output conversion (R144, R210, R211) -/

/-- One output tile converts into the output's version; overflow replays it with a raised cap, or ends the item (R111 to R115). The item
that began the version converts first (R106; log 42). -/
def State.convertTile (s : State) (id : Nat) (x : Item) (tile : Nat) : State :=
  let h := slipA x.slip
  match find s.tensors h with
  | none => s.endItem id stFinal 0
  | some t =>
    if !t.writable id then s
    else
      let t := t.openVersion
      let c := tileConversion t (paramsOf s x.account).orvane (Config.undefinedCode s.free) tile fun r j =>
        F32.val (resultAt x (r * t.cols + j))
      let y := convertOutcome x c t.sExp
      let t := t.learn (commitsOf s x.account) c
      let s := { s with free := s.free + 1 }
      if y.stage = 6 then
        ((s.setTensor h t).setItem id { y with stage := 2, status := 0 }).endItem id y.status 0
      else
        let y := { y with work := { y.work with tiles := insertNat y.work.tiles tile },
                          doneUnits := if isDigital s x.slip then x.doneUnits else x.doneUnits + 1 }
        let done := decide (y.work.tiles.length = tileCount t.rows t.cols)
        (s.setTensor h (t.writeTile tile c)).setItem id (if done then { y with stage := 3 } else y)

/-- Block of 256 × 128 that an output tile lies in. -/
def blockOfTile (cols tile : Nat) : Nat × Nat :=
  let across := ceilDiv cols 32
  (tile / across / 8, tile % across / 4)

def blockNumber (cols row col : Nat) : Nat := row * ceilDiv cols 128 + col

/-- Every element that a tile's conversion reads is final: the tile's block, and for a row-scaled output every block of its rows, whose
scales fit whole rows (R100, R210). -/
def tileFinal (x : Item) (f : Fmt) (cols tile : Nat) : Bool :=
  let b := blockOfTile cols tile
  x.work.final || (if f.rowScaled then (List.range (ceilDiv cols 128)).all fun c => x.work.units.contains (blockNumber cols b.1 c)
    else x.work.units.contains (blockNumber cols b.1 b.2))

def dtbTileEffect (s : State) (id tile : Nat) (x : Item) : State :=
  match find s.tensors (slipA x.slip) with
  | none => s
  | some t =>
    if tile < tileCount t.rows t.cols ∧ tileFinal x t.fmt t.cols tile = true ∧ x.work.tiles.contains tile = false then s.convertTile id x tile
    else s

def execDtbTileConvert (item tile : Nat) (s : State) : Result :=
  s.running item (fun w => isGemm w && isDigital s w) (dtbTileEffect s item tile)

/-! ### What a fenced block held (R29, R154, R369) -/

def sliceKey (m deck col : Nat) : Nat := (m * 2 ^ 16 + deck) * 2 ^ 10 + col
/-- An evaluation's number in an item: its vector and its deck-array. -/
def evalKey (m deck : Nat) : Nat := m * 2 ^ 16 + deck

/-- The parts of every tile of a weight. -/
def Tensor.parts (t : Tensor) : List TilePart := t.tiles.flatMap Prod.snd

/-- An element's value has been formed and used by a conversion: it stays (R112, R144). -/
def elementKept (x : Item) (t : Tensor) (m j : Nat) : Bool :=
  let across := ceilDiv t.cols 32
  if t.fmt.rowScaled then x.work.tiles.any fun k => decide (k / across = m / 32) else x.work.tiles.contains (m / 32 * across + j / 32)

/-- Evaluations of which every element has been converted. -/
def keptEvaluations (x : Item) (c t : Tensor) : List Nat :=
  (List.range t.rows).flatMap fun m =>
    (c.parts.filter fun p => (List.range p.cols).all fun j => elementKept x t m (p.firstCol + j)).map fun p => evalKey m p.deck

/-- The item's unfinished output tiles are discarded: what they were formed from is evaluated again (R154). -/
def Item.redoTiles (s : State) (x : Item) : Item :=
  match find s.tensors (slipC x.slip), find s.tensors (slipA x.slip) with
  | some c, some t =>
    let kept := keptEvaluations x c t
    let w := x.work
    { x with work := { w with units := w.units.filter kept.contains, spilled := w.spilled.filter kept.contains, final := false,
                              slices := w.slices.filter (fun q => kept.contains (q.1 / 2 ^ 10)),
                              spills := w.spills.filter (fun q => kept.contains (q.1 / 2 ^ 10)) } }
  | _, _ => x

/-- Requests that wait at a bank's ports, or whose data is on its way out. -/
def Bank.requests (k : Bank) : List PortRequest := k.readPort ++ k.writePort ++ (k.stages.map fun q => q.2.1)

/-- Items whose work stands on a block, or in the FIFOs at its border. -/
def itemsOn (s : State) (b : Nat) : List Nat :=
  let i := blockIndex b
  let r := blockLocation b
  match blockKind b with
  | 0x00 =>
    let a := s.aab (42 * r + i)
    ((s.decks.filter fun p => decide (deckAab p.1 = 42 * r + i)).flatMap (fun p => p.2.holds) ++ a.inputs.map (fun p => p.2.1) ++
      a.outputs.map (fun p => p.2.item) ++ a.descriptors.map descItem).eraseDups
  | 0x01 => (s.dtb (24 * r + i)).item.toList
  | 0x02 => ((s.teller (48 * r + i)).threads.filterMap fun p => p.2.item).eraseDups
  | 0x03 => (((s.banks.filter fun p => decide (bankGroupBlock p.1 = b)).flatMap fun p => p.2.requests.map PortRequest.item).filter fun i =>
      decide (i ≠ 0)).eraseDups
  | _ => []

/-- What stands in a block, and in the FIFOs at its border, is discarded (R29, R154). -/
def State.dropWork (s : State) (b : Nat) : State :=
  let i := blockIndex b
  let r := blockLocation b
  match blockKind b with
  | 0x00 =>
    let a := 42 * r + i
    let ids := itemsOn s b
    let s := ids.foldl (fun t id => { t with items := adjust t.items id (Item.redoTiles s) }) s
    let decks := tidy {} (mapValues (fun k d => if deckAab k = a then { d with holds := [], working := false } else d) s.decks)
    ({ s with decks := decks } : State).setAab a { s.aab a with arrays := [], inputs := [], outputs := [], descriptors := [] }
  | 0x01 => s.setDtb (24 * r + i) (s.dtb (24 * r + i)).freed
  | 0x02 => s.setTeller (48 * r + i) {}
  | 0x03 => { s with banks := tidy {} (mapValues (fun k x =>
      if bankGroupBlock k = b then { x with readPort := [], writePort := [], stages := [], data := none } else x) s.banks) }
  | _ => s

/-- A block's contents are discarded at the fence; the items that used it, and those named, are to be accounted for from the journal (R29). -/
def State.strip (s : State) (b : Nat) (ids : List Nat) : State :=
  let ids := ((s.island b).struck ++ itemsOn s b ++ ids.filter fun i => decide (i ≠ 0)).eraseDups
  let s := s.dropWork b
  if ids = [] then s else s.setIsland b { s.island b with struck := ids }

/-- A block is fenced, and its recovery is to come. -/
def State.fenceFor (s : State) (b code : Nat) (ids : List Nat) : State :=
  ((s.fenceBlock b).strip b ids).recoverFrom { domain := domainOf b, code := code, block := b, recorded := s.now, bound := boundBlock }

/-! ### Faults that a block finds in its own work (R367) -/

/-- RETRY_CLEARED or PARITY_RECURRING of a block. -/
def State.blockCheck (s : State) (block account item : Nat) (c : BlockCheck) : State :=
  match c with
  | .ok => s
  | .cleared sub => s.recordFault { code := 0x2203, source := block, sub := sub.toNat, action := 1, detail1 := account, item := item }
  | .recurring sub =>
    let s := s.recordFault { code := 0x2202, source := block, sub := sub.toNat, action := 3, detail1 := account, item := item }
    s.fenceFor block 0x2202 [item]

def recurs : BlockCheck → Bool
  | .recurring _ => true
  | _ => false

/-- A block that serves what it holds. -/
def blockServes (s : State) (b : Nat) : Bool :=
  let i := s.island b
  !i.fenced && !i.withdrawn && (match regionOf b with
    | some r => !regionFenced s r
    | none => !halfOut s (halfOfBlock b)) && s.power.powerGood

/-- A block that may be granted and issued to: none is once the device has stopped (R384). -/
def blockIssues (s : State) (b : Nat) : Bool := blockServes s b && !s.stopped

/-! ### Tile instructions (R195 to R203) -/

/-- The K-range of a tile instruction (R195). -/
def rangeOk (length start n : Nat) : Bool :=
  decide (start % 128 = 0) && decide (0 < n) && decide (n ≤ 8192) && decide (start / 8192 = (start + n - 1) / 8192) &&
  decide (start + n ≤ length) && (decide (n % 128 = 0) || decide (start + n = length))

/-- Valid rows and columns of an output block. -/
def blockRows (p : Product) (row : Nat) : Nat := min 256 (p.rows - 256 * row)
def blockCols (p : Product) (col : Nat) : Nat := min 128 (p.cols - 128 * col)

/-- Valid cells of an output block: key 128 r + c. -/
def blockCells (p : Product) (row col : Nat) : List Nat :=
  (List.range (blockRows p row)).flatMap fun r => (List.range (blockCols p col)).map fun c => 128 * r + c

/-- Cycles that K-steps take at the rate of an operand pair, whole (Table 6.3, R199). -/
def stepCycles (a b : Fmt) (n : Nat) : Nat :=
  let four := fun (f : Fmt) => decide (f = .i4) || decide (f = .f4)
  if four a && four b then ceilDiv n 2
  else if a = .fp32 ∨ b = .fp32 then 8 * n
  else if a.width = 16 ∨ b.width = 16 then 2 * n
  else n

/-- Bytes of the operand space (Table 6.1), and those that a K-range's elements take in it (log 79). -/
def operandSpace : Nat := 27 * 2 ^ 18
def rangeBytes (p : Product) (row col n : Nat) : Nat :=
  ceilDiv (n * (blockRows p row * p.left.fmt.width + blockCols p col * p.right.fmt.width)) 8

/-- The fill of a K-range: each left lane and right row holds its elements in K order, whichever way the tensor is stored; transposing
moves codes, group bytes and scale unchanged, so the values are those of the tensor (R196). -/
def Dtb.fill (p : Product) (row col start n : Nat) (d : Dtb) : Dtb :=
  { d with left := (List.range (blockRows p row)).flatMap fun r => (List.range n).map fun k => (8192 * r + k, p.a (256 * row + r) (start + k))
           right := (List.range n).flatMap fun k => (List.range (blockCols p col)).map fun c => (128 * k + c, p.b (start + k) (128 * col + c)) }

/-- The operand pairs of a cell over the K-range in the operand space. -/
def cellPairs (d : Dtb) (n cell : Nat) : List (Val × Val) :=
  (List.range n).map fun k => (lookup Val.zero d.left (8192 * (cell / 128) + k), lookup Val.zero d.right (128 * k + cell % 128))

def plane (cells : List Nat) (f : Nat → Val) : Table Val := cells.foldl (fun m c => put Val.zero m c (f c)) []

/-- A finished segment enters the stack of pending nodes (R203). -/
def pushSegment (orvane : Bool) (cells : List Nat) : Nat → Nat → Table Val → Table (Table Val) → Nat × Table Val × Table (Table Val)
  | 0, level, node, pending => (level, node, pending)
  | n + 1, level, node, pending =>
    match find pending level with
    | some left =>
      pushSegment orvane cells n (level + 1)
        (plane cells fun c => addTotal orvane (lookup Val.zero left c) (lookup Val.zero node c)) (del pending level)
    | none => (level, node, pending)

/-- The pending nodes folded into a node, lowest level first (R203). -/
def foldPending (orvane : Bool) (cells : List Nat) (node : Table Val) (pending : Table (Table Val)) : Table Val :=
  pending.foldl (fun n l => plane cells fun c => addTotal orvane (lookup Val.zero l.2 c) (lookup Val.zero n c)) node

/-- The combine buffer after a segment ends, whose totals pass through the drain registers; `last` where it is the last of its span, of the
DTB's group of segments, or of the reduction (R198, R203, R212). -/
def endSegment (orvane : Bool) (cells : List Nat) (last : Bool) (d : Dtb) : Dtb :=
  let r := pushSegment orvane cells 8 0 d.acc d.pending
  if last || decide (r.1 = 7) then
    let node := foldPending orvane cells r.2.1 r.2.2
    let old := d.span.getD []
    { d with acc := [], drain := d.acc, pending := [], span := some (plane cells fun c => addTotal orvane (lookup Val.zero old c) (lookup Val.zero node c)) }
  else { d with acc := [], drain := d.acc, pending := ins r.2.2 r.1 r.2.1 }

/-- Where the group of segments that starts at a K-step ends (R212). -/
def groupEnd (length first group : Nat) : Nat := if 8 ≤ group then length else min length (first + 8192 * 2 ^ group)

/-- One tile instruction on a block's cells, its operands filled (R198 to R203, R207). -/
def runRange (orvane : Bool) (p : Product) (anchor : Option Int) (row col start n : Nat) (d : Dtb) : Dtb :=
  let cells := blockCells p row col
  let d := d.fill p row col start n
  let flags := cells.foldl (fun m c => put 0 m c (lookup 0 m c ||| pairFlags (cellPairs d n c))) d.flags
  let d := { d with flags := flags, nextStep := start + n }
  if p.resident then
    match anchor with
    | none => d
    | some l => { d with residentAcc := cells.foldl (fun m c => put 0 m c
        ((cellPairs d n c).foldl (fun a q => residentStep l a q.1 q.2) (lookup 0 m c))) d.residentAcc }
  else
    let acc := cells.foldl (fun m c => put Val.zero m c
      ((inSlices 128 (cellPairs d n c)).foldl (fun t q => addTotal orvane t (roundTotal orvane (chunkSum q)))
        (lookup Val.zero m c))) d.acc
    let d := { d with acc := acc }
    let stop := groupEnd p.length d.first d.group
    if (start + n) % 8192 = 0 ∨ start + n = p.length then
      endSegment orvane cells (decide ((start + n) % 2 ^ 20 = 0) || decide (start + n = stop)) d
    else d

/-! ### The ramp (R194) -/

/-- First cycle at which the number of active row groups may move again after a move. -/
def rampNext (cycle : Nat) : Option Nat → Nat
  | some c => max cycle (c + 3)
  | none => cycle

/-- Row groups that have stopped since the DTB's work ended, one in every 3 cycles; those still active make ballast multiplies, whose
products are discarded. -/
def Dtb.rampDown (cycle : Nat) (d : Dtb) : Dtb :=
  let first := rampNext d.busyUntil d.lastFall
  let fallen := min d.active (ceilDiv (cycle - first) 3)
  if d.busyUntil < cycle ∧ 0 < fallen then { d with active := d.active - fallen, lastFall := some (first + 3 * (fallen - 1)) } else d

/-- Row groups that make ballast multiplies at a cycle: active, with no instruction at work. -/
def Dtb.ballast (cycle : Nat) (d : Dtb) : Nat := if d.busyUntil ≤ cycle then (d.rampDown cycle).active else 0

/-- Cycles since the DTB's work ended in which some row group made ballast multiplies (Table 15.7). -/
def Dtb.ballastCycles (cycle : Nat) (d : Dtb) : Nat :=
  if d.active = 0 then 0 else min cycle (rampNext d.busyUntil d.lastFall + 3 * (d.active - 1)) - d.busyUntil

/-- The DTB starts an instruction that needs some row groups and takes some cycles: groups rise one in every 3 cycles, which delays the end
by 3 cycles each; groups it does not need fall in the same measure, in ballast until then. -/
def Dtb.rampUp (cycle need cycles : Nat) (d : Dtb) : Dtb :=
  if d.active < need then
    let first := rampNext cycle d.lastRise
    let last := first + 3 * (need - d.active - 1)
    { d with active := need, lastRise := some last, busyUntil := cycle + cycles + (last - cycle) }
  else if need < d.active then
    { d with active := need, lastFall := some (rampNext cycle d.lastFall + 3 * (d.active - need - 1)), busyUntil := cycle + cycles }
  else { d with busyUntil := cycle + cycles }

/-- Row groups of 16 cell rows that an output block takes. -/
def rowGroups (p : Product) (row : Nat) : Nat := ceilDiv (blockRows p row) 16

/-- Cycles of a tile instruction before the next may issue, without the ramp (R199). -/
def instructionCycles (p : Product) (n : Nat) : Nat := (if p.resident then 0 else 8) + stepCycles p.left.fmt p.right.fmt n

/-! ### Split reductions (R212) -/

/-- Where an output block's work over the segments from a K-step is kept. -/
def nodeKey (block first : Nat) : Nat := block * 2 ^ 40 + first

/-- What a DTB has reduced. -/
def Dtb.reduced (d : Dtb) : Partial := { group := d.group, vals := d.span.getD [], ints := d.residentAcc, flags := d.flags }

/-- Two partials added by the tree: totals in the total format, integers in 72 bits, flags by OR. -/
def Partial.add (orvane : Bool) (cells : List Nat) (a b : Partial) : Partial :=
  { group := 0, vals := plane cells fun c => addTotal orvane (lookup Val.zero a.vals c) (lookup Val.zero b.vals c),
    ints := cells.foldl (fun m c => put 0 m c (clamp72 (lookup 0 a.ints c + lookup 0 b.ints c))) [],
    flags := cells.foldl (fun m c => put 0 m c (lookup 0 a.flags c ||| lookup 0 b.flags c)) [] }

/-- The tree node over 2^level segments from segment `index` × 2^level: a partial that a DTB formed, or its two halves added, the right one
absent past the reduction's end (R203, R212). -/
def treeNode (orvane : Bool) (cells : List Nat) (nodes : Table Partial) (block segments : Nat) : Nat → Nat → Option Partial
  | 0, index => match find nodes (nodeKey block (8192 * index)) with
    | some p => if p.group = 0 then some p else none
    | none => none
  | level + 1, index =>
    match find nodes (nodeKey block (8192 * 2 ^ (level + 1) * index)) with
    | some p => if p.group = level + 1 then some p else
        match treeNode orvane cells nodes block segments level (2 * index), treeNode orvane cells nodes block segments level (2 * index + 1) with
        | some a, some b => some (Partial.add orvane cells a b)
        | some a, none => if segments ≤ (2 * index + 1) * 2 ^ level then some a else none
        | none, _ => none
    | none => none

/-- Every span's node, added in span order (R203). -/
def combineSpans (orvane : Bool) (cells : List Nat) (nodes : Table Partial) (block segments : Nat) : Option Partial :=
  (List.range (ceilDiv segments 128)).foldl (fun acc k => match acc, treeNode orvane cells nodes block segments 7 k with
    | some a, some b => some (Partial.add orvane cells a b)
    | _, _ => none) (some {})

/-- The whole reduction of a block, once a DTB or the groups of several have covered it. -/
def wholeOf (orvane : Bool) (p : Product) (row col : Nat) (x : Item) (block : Nat) : Option Partial :=
  match find x.work.nodes (nodeKey block 0) with
  | some n => if n.group = 8 then some n else combineSpans orvane (blockCells p row col) x.work.nodes block (ceilDiv p.length 8192)
  | none => none

/-- A cell's total, before its exception flags are applied. -/
def cellTotal (p : Product) (anchor : Option Int) (n : Partial) (cell : Nat) : Val :=
  if p.resident then (match anchor with
    | none => Val.zero
    | some l => Val.ofDy ⟨lookup 0 n.ints cell, l⟩)
  else lookup Val.zero n.vals cell

/-- The FP32 value of a finished cell (R209). -/
def cellValue (p : Product) (anchor : Option Int) (n : Partial) (cell : Nat) : F32 :=
  F32.ofVal (totalWith (lookup 0 n.flags cell) (cellTotal p anchor n cell))

/-- Output blocks of an item in progress: in a DTB's cells, in an image, or as partials that wait to be combined. -/
def itemBlocks (s : State) (id : Nat) (x : Item) : List Nat :=
  ((s.dtbs.filter fun (q : Nat × Dtb) => decide (q.2.item = some id)).map (fun (q : Nat × Dtb) => q.2.block) ++
    x.work.images.map (fun (q : Nat × ContextImage) => q.1 / 2 ^ 40) ++
    x.work.nodes.map (fun (q : Nat × Partial) => q.1 / 2 ^ 40)).eraseDups

/-- Output blocks of an account that are in progress: each holds a context slot (Table 11.4). -/
def blocksInProgress (s : State) (account : Nat) : Nat :=
  tableSum s.items fun id x => if x.account = account ∧ x.live = true then (itemBlocks s id x).length else 0

/-- A fresh block in the cells. -/
def freshBlock (s : State) (x : Item) (item row col first group : Nat) (p : Product) (d : Dtb) : Dtb :=
  { d.freed with item := some item, blockRow := row, blockCol := col, block := blockNumber p.cols row col, first := first, group := group,
                 nextStep := first, resident := p.resident, orvane := (paramsOf s x.account).orvane, lambda := x.work.anchor.getD 0,
                 account := some x.account }

/-- The block's totals, with its corrections, join the item's results; its images and partials go. -/
def finishBlock (s : State) (x : Item) (p : Product) (row col : Nat) (n : Partial) : Item :=
  let cells := blockCells p row col
  let block := blockNumber p.cols row col
  let at2 := fun c => ((256 * row + c / 128), (128 * col + c % 128))
  let vals := cells.map fun c => let q := at2 c; (q.1 * p.cols + q.2, addCorrection (cellValue p x.work.anchor n c) (correctionAt s x p q.1 q.2))
  let seen := cells.flatMap fun c => let q := at2 c; totalSeen (cellTotal p x.work.anchor n c) ++ correctionSeen s x p q.1 q.2
  let results := vals.foldl (fun m v => put 0 m v.1 v.2) x.work.results
  let units := insertNat x.work.units block
  let all := decide (units.length = ceilDiv p.rows 256 * ceilDiv p.cols 128)
  let y := ((productFlags x p).saw (operandSeen s x p ++ seen)).saw (vals.map fun v => F32.val v.2)
  { y with doneUnits := x.doneUnits + 1,
           work := { y.work with results := results, units := units, final := y.work.final || all,
                                 images := y.work.images.filter fun q => decide (q.1 / 2 ^ 40 ≠ block),
                                 nodes := y.work.nodes.filter fun q => decide (q.1 / 2 ^ 40 ≠ block) } }

/-- K-steps [a, b) and [c, d) have one in common. -/
def overlaps (a b c d : Nat) : Bool := decide (a < d) && decide (c < b)

/-- Some DTB, image or partial already covers part of a block's K-steps from `first` up to `stop`. -/
def rangeTaken (s : State) (id : Nat) (x : Item) (p : Product) (block first stop : Nat) : Bool :=
  s.dtbs.any (fun q => decide (q.2.item = some id) && decide (q.2.block = block) && overlaps first stop q.2.first (groupEnd p.length q.2.first q.2.group)) ||
  x.work.images.any (fun q => decide (q.1 / 2 ^ 40 = block) && overlaps first stop q.2.first (groupEnd p.length q.2.first q.2.group)) ||
  x.work.nodes.any (fun q => decide (q.1 / 2 ^ 40 = block) && overlaps first stop (q.1 % 2 ^ 40) (groupEnd p.length (q.1 % 2 ^ 40) q.2.group))

/-- A group of segments that the placer may give one DTB: the whole reduction, or 2^i aligned segments within a span (R212). -/
def groupOk (first group : Nat) : Bool := if group = 8 then decide (first = 0) else decide (group < 8) && decide (first % (8192 * 2 ^ group) = 0)

/-- The DTB holds the block's group, or can take it: a free DTB at the group's start, no part of it begun elsewhere, and a context slot
(R198, R212, R220). -/
def blockPresent (s : State) (dtb item row col start group : Nat) (x : Item) (p : Product) : Option Dtb :=
  let d := s.dtb dtb
  let block := blockNumber p.cols row col
  if d.item = some item ∧ d.block = block then (if d.nextStep = start ∧ d.group = group then some d else none)
  else if d.item.isSome || !groupOk start group || x.work.units.contains block ||
      rangeTaken s item x p block start (groupEnd p.length start group) then none
  else if (itemBlocks s item x).contains block || decide (blocksInProgress s x.account < (paramsOf s x.account).contextSlots) then
    some (freshBlock s x item row col start group p d)
  else none

/-- The cells at the end of their group: the partial joins the item's, and a block covered whole is finished (R209, R212). -/
def State.endGroup (s : State) (dtb item row col : Nat) (x : Item) (p : Product) (d : Dtb) : State :=
  let block := blockNumber p.cols row col
  let y := { x with work := { x.work with nodes := ins x.work.nodes (nodeKey block d.first) d.reduced,
                                          images := del x.work.images (nodeKey block d.first) } }
  (s.setDtb dtb d.freed).setItem item (match wholeOf d.orvane p row col y block with
    | some n => finishBlock s y p row col n
    | none => y)

/-- TILE_INSTRUCTION_ISSUE: runs its K-range to the end once its conditions hold (R194 to R203, R212, R367). The operands of the K-range are
filled as it issues, for no row fills them (log 79). -/
def tileInstruction (dtb item row col start n group cycle : Nat) (check : BlockCheck) (s : State) (x : Item) : State :=
  match productOf s x with
  | none => s
  | some p =>
    if !rangeOk p.length start n || !blockIssues s (dtbBlock dtb) || x.work.final ||
        decide (ceilDiv p.rows 256 ≤ row) || decide (ceilDiv p.cols 128 ≤ col) || decide (cycle < (s.dtb dtb).busyUntil) ||
        decide (operandSpace < rangeBytes p row col n) then s
    else
      match blockPresent s dtb item row col start group x p with
      | none => s
      | some d =>
        let s := s.blockCheck (dtbBlock dtb) x.account item check
        if recurs check then s
        else
          let s := ((s.bump (dtbBlock dtb) 0 1).bump (dtbBlock dtb) 1 (ceilDiv n 128)).bump (dtbBlock dtb) 5 (d.ballastCycles cycle)
          let d := (runRange (paramsOf s x.account).orvane p x.work.anchor row col start n d)
          let d := (d.rampDown cycle).rampUp cycle (rowGroups p row) (instructionCycles p n)
          if d.nextStep = groupEnd p.length d.first d.group then s.endGroup dtb item row col x p d else s.setDtb dtb d

def execTileInstructionIssue (dtb : Fin 96) (item row col start : Nat) (range : KRange) (check : BlockCheck) (s : State) : Result :=
  s.running item (fun w => isGemm w && isDigital s w) 
    (tileInstruction dtb.val item row col start range.length range.group range.cycle check s)

/-! ### Context images (R220 to R224) -/

/-- A total in 36 bits: fraction, exponent of bias 2,047, sign; an infinity of Orvane mode takes the exponent 4,095 (Table 6.8; log 80). -/
def totalBits : Val → Nat
  | .nan => 4095 * 2 ^ 23 + 1
  | .inf neg => 4095 * 2 ^ 23 + 2 ^ 35 * ofBool neg
  | .fin neg m e =>
    if m = 0 then 0
    else
      let l := (Dy.mk m e).floorLog2
      ((Dy.mk m e).at (l - 23)).natAbs % 2 ^ 23 + 2 ^ 23 * (l + 2047).toNat + 2 ^ 35 * ofBool neg

/-- A combine entry in 40 bits, with its exception bits (Table 6.8). -/
def combineBits (v : Val) : Nat := match v with
  | .nan => 2 ^ 36
  | .inf neg => if neg then 2 ^ 38 else 2 ^ 37
  | .fin .. => totalBits v

/-- The bytes of an image after its header: accumulator plane, flag plane, combine entries (R222). -/
def ContextImage.planes (c : ContextImage) : List Byte :=
  let entry := fun n => if c.resident then twos 72 (lookup 0 c.residentAcc n) else totalBits (lookup Val.zero c.acc n)
  let plane := fun (t : Table Val) => (List.range 32768).flatMap fun n => toLE 5 (combineBits (lookup Val.zero t n))
  ((List.range 32768).flatMap fun n => toLE 9 (entry n)) ++
  ((List.range 16384).map fun k => BitVec.ofNat 8 (lookup 0 c.flags (2 * k) + 16 * lookup 0 c.flags (2 * k + 1))) ++
  (if c.resident then [] else (c.span.toList ++ c.pending.map Prod.snd).flatMap plane)

/-- The header of an image (Table 6.7). -/
def ContextImage.header (c : ContextImage) : Nat :=
  c.format + 2 ^ 8 * ofBool c.resident + 2 ^ 9 * ofBool c.orvane + field 16 16 c.saver + field 32 16 c.rows + field 48 16 c.cols +
  field 64 64 c.item + field 128 64 c.nextStep + field 192 16 (twos 16 c.lambda) +
  (if c.resident then 0 else c.pending.foldl (fun n q => n + 2 ^ (208 + q.1)) 0 + 2 ^ 215 * ofBool c.span.isSome) +
  field 224 32 c.check + field 256 64 c.epoch + field 320 64 c.epochC

/-- An image's bytes in the account's context slot (R8, R222). -/
def ContextImage.bytes (c : ContextImage) : List Byte := toLE 64 c.header ++ c.planes

/-- The image of a DTB's block (Table 6.7), with the CRC-32 of its planes. -/
def imageOfBlock (s : State) (dtb : Nat) (p : Product) (d : Dtb) : ContextImage :=
  let c : ContextImage :=
    { rows := blockRows p d.blockRow, cols := blockCols p d.blockCol, first := d.first, group := d.group, resident := d.resident,
      orvane := d.orvane, saver := dtbBlock dtb, item := d.item.getD 0, nextStep := d.nextStep,
      lambda := if d.resident then d.lambda else 0, acc := d.acc, residentAcc := d.residentAcc, flags := d.flags,
      pending := d.pending, span := d.span, epoch := hubEpoch s, epochC := onesComplement 64 (hubEpoch s), check := 0 }
  { c with check := crc32 c.planes }

/-- CONTEXT_SAVE: the block's image goes to its context slot and the DTB is free (R220, R222). -/
def State.saveContext (s : State) (dtb : Nat) : State :=
  let d := s.dtb dtb
  match d.item with
  | none => s
  | some id =>
    match find s.items id with
    | none => s.setDtb dtb d.freed
    | some x =>
      match productOf s x with
      | none => s.setDtb dtb d.freed
      | some p =>
        let x := { x with work := { x.work with images := ins x.work.images (nodeKey d.block d.first) (imageOfBlock s dtb p d) }, context := x.place 1 }
        ((s.setItem id x).setDtb dtb d.freed).bump (dtbBlock dtb) 3 1

/-- The block that an image describes, in a DTB's cells. -/
def blockOfImage (account item row col block : Nat) (c : ContextImage) (d : Dtb) : Dtb :=
  { d.freed with item := some item, blockRow := row, blockCol := col, block := block, first := c.first, group := c.group,
                 nextStep := c.nextStep, resident := c.resident, orvane := c.orvane, lambda := c.lambda, acc := c.acc,
                 residentAcc := c.residentAcc, flags := c.flags, pending := c.pending, span := c.span, account := some account }

/-- The first image of a block that no DTB has taken up: it stays in its slot, for a restart after a fence (R224). -/
def imageToRestore (s : State) (item block : Nat) (x : Item) : Option ContextImage :=
  (x.work.images.find? fun q => decide (q.1 / 2 ^ 40 = block) &&
    !s.dtbs.any fun b => decide (b.2.item = some item) && decide (b.2.block = block) && decide (b.2.first = q.2.first)).map Prod.snd

/-- CONTEXT_RESTORE (R223): an image that fails a check is discarded and the block restarts from the first K-step of its group. -/
def restoreEffect (dtb item row col : Nat) (s : State) (x : Item) : State :=
  match productOf s x with
  | none => s
  | some p =>
    let block := blockNumber p.cols row col
    match imageToRestore s item block x with
    | none => s
    | some c =>
      if (s.dtb dtb).item.isSome || !blockIssues s (dtbBlock dtb) then s
      else
        let y := { x with work := { x.work with images := del x.work.images (nodeKey block c.first) } }
        let s' := s.setItem item y
        let fresh := freshBlock s y item row col c.first c.group p (s.dtb dtb)
        if c.epochC ≠ onesComplement 64 c.epoch then (s'.complementFault (dtbBlock dtb) 7 x.account item 0).setDtb dtb fresh
        else if crc32 c.planes ≠ c.check then
          (s'.recordFault { code := 0x2501, source := dtbBlock dtb, detail1 := x.account, item := item }).setDtb dtb fresh
        else (s.setDtb dtb (blockOfImage x.account item row col block c (s.dtb dtb))).bump (dtbBlock dtb) 4 1

def execContextRestore (dtb : Fin 96) (item row col : Nat) (s : State) : Result :=
  s.working item (fun w => isGemm w && isDigital s w) (restoreEffect dtb.val item row col s)

end Sys2Proof.Machine
end

