-- ==== Sys2Proof/Machine/Analogue.lean ====
section
/-! DEFINITION. The analogue forward: drive codes and outliers, row phases, column conversion, combination and assembly,
the issue of evaluations, and GEMM FORWARD (R122 to R164). -/

namespace Sys2Proof.Machine

open Sys2Proof

/-! ### The input stage (R127 to R131) -/

def slipDrive8 (w : Nat) : Bool := decide (bits (slipParam0 w) 39 32 = 4)
def driveMax (i8 : Bool) : Nat := if i8 then 127 else 7
def planesOf (i8 : Bool) : Nat := if i8 then 8 else 4
def fullScale (i8 : Bool) : Nat := 2 ^ (planesOf i8 - 1)

/-- The exponent of the drive scale of vector `m` (R128). -/
def driveExp (b : Tensor) (w m : Nat) : Int :=
  if b.fmt.rowScaled then (b.ebyte m : Int) - 127 + b.sExp
  else
    let t := (F32.val (BitVec.ofNat 32 (bits (slipParam0 w) 31 0))).toDy
    let a := if t.isZero then amaxOf ((List.range b.cols).map (b.val m)) else t
    if a.isZero then 0 else fitExp a (driveMax (slipDrive8 w)) 0

/-- An element of a converted vector is an outlier (R128, R129). -/
def isOutlier (b : Tensor) (w m i : Nat) : Bool :=
  if b.fmt.rowScaled then false
  else
    let t := (F32.val (BitVec.ofNat 32 (bits (slipParam0 w) 31 0))).toDy
    let v := b.val m i
    !v.isFinite || (!t.isZero && Dy.lt t v.toDy.abs)

/-- The drive code of an element (R128). -/
def driveCode (b : Tensor) (w m i : Nat) : Int :=
  if b.fmt.rowScaled then (b.fmt.decode (b.code (m * b.cols + i))).toDy.m
  else (b.val m i).toDy.grid (driveExp b w m)

/-- The vector lies in a NaN group of I4 or I8 (R135). -/
def vectorNan (b : Tensor) (m : Nat) : Bool := b.fmt.rowScaled && decide (b.ebyte m = 255)

/-- Outlier ranking: non-finite first, then by magnitude, then by row (R130). -/
def outlierBefore (b : Tensor) (m : Nat) (i j : Nat) : Bool :=
  let x := b.val m i
  let y := b.val m j
  match x.isFinite, y.isFinite with
  | false, true => true
  | true, false => false
  | false, false => decide (i ≤ j)
  | true, true =>
    let p := x.toDy.abs
    let q := y.toDy.abs
    if Dy.eqv p q then decide (i ≤ j) else Dy.lt q p

def outlierLimit : Nat := 32

/-- Outliers of a vector's slice for one array, ranked: those within the limit, and the excess (R130). -/
def rankOutliers (b : Tensor) (w m : Nat) (p : TilePart) : List Nat × List Nat :=
  let l := ((List.range p.rows).map (p.firstRow + ·)).filter (isOutlier b w m)
  if l.length ≤ outlierLimit then (l, [])
  else
    let r := sortBy (outlierBefore b m) l
    (sortBy (fun i j => decide (i ≤ j)) (r.take outlierLimit), sortBy (fun i j => decide (i ≤ j)) (r.drop outlierLimit))

/-- Excess rows that spill: all under spill, the non-finite ones under clip (R130, R131). -/
def spilledRows (clip : Bool) (b : Tensor) (w m : Nat) (p : TilePart) : List Nat :=
  (rankOutliers b w m p).2.filter fun i => !clip || !(b.val m i).isFinite

def clippedRows (clip : Bool) (b : Tensor) (w m : Nat) (p : TilePart) : List Nat :=
  (rankOutliers b w m p).2.filter fun i => clip && (b.val m i).isFinite

/-- The driven rows of a slice, ascending, as (row of K, code); a code of 0 drives nothing (R128, R130). -/
def drivenRows (clip : Bool) (b : Tensor) (w m : Nat) (p : TilePart) : List (Nat × Int) :=
  let clipped := clippedRows clip b w m p
  ((List.range p.rows).map (p.firstRow + ·)).filterMap fun i =>
    let x := if clipped.contains i then sgn (b.val m i).toDy.m * driveMax (slipDrive8 w)
      else if isOutlier b w m i then 0 else driveCode b w m i
    if x = 0 then none else some (i, x)

/-- Row phases, greedily in row order (R132, Table 4.3). -/
def packPhases (fs : Nat) : List (Nat × Int) → List (Nat × Int) → Nat → List (List (Nat × Int))
  | [], [], _ => []
  | [], cur, _ => [cur.reverse]
  | r :: rest, cur, sum =>
    if cur.length < 512 ∧ sum + r.2.natAbs ≤ 256 * fs then packPhases fs rest (r :: cur) (sum + r.2.natAbs)
    else (if cur = [] then [] else [cur.reverse]) ++ packPhases fs rest [r] r.2.natAbs

def phasesOf (clip : Bool) (b : Tensor) (w m : Nat) (p : TilePart) : List (List (Nat × Int)) :=
  if vectorNan b m then [] else packPhases (fullScale (slipDrive8 w)) (drivenRows clip b w m p) [] 0

/-! ### Column conversion and combination (R136 to R139) -/

/-- The column result for a current given in 2^-16 LSB, and whether it saturated (R136). -/
def columnResult (v : Int) : Int × Bool :=
  let a := v.natAbs
  if 2 * a ≥ 511 * 65536 then ((if v < 0 then -255 else 255), true)
  else let q := (a + 32768) / 65536; ((if v < 0 then -(q : Int) else q), false)

/-- The signed sum of recorded level differences over the rows driven in a plane, in 1/64 slice units (R127, R160). -/
def planeSum (d : Deck) (p : TilePart) (pair bitIdx : Nat) (phase : List (Nat × Int)) : Int :=
  phase.foldl (fun n r => if bit r.2.natAbs bitIdx then
    n + sgn r.2 * pairDiff d.struck (physRow d.skip (r.1 - p.firstRow)) pair else n) 0

/-! ### Read error (R160 to R162, R169) -/

/-- The trims of a deck were set by an assay that is current. -/
def assayCurrent (now : Nat) (d : Deck) : Bool :=
  d.assayed && decide (now ≤ d.assayAt + 600050 * ms) && (match d.triggerAt with
    | some t => decide (now ≤ t + 50 * ms)
    | none => true)

/-- The band of Table 5.1 that a Tj in 1/8 °C lies in; none outside the table. -/
def errorBand (celsius8 : Int) : Option Nat :=
  if celsius8 < 0 ∨ 840 < celsius8 then none
  else if celsius8 < 200 then some 0 else if celsius8 < 440 then some 1 else if celsius8 < 680 then some 2 else some 3

/-- The class of Table 5.1 for an evaluation: 1 + 2 × band + aged; 0 where no bound holds. -/
def errorClassOf (s : State) (d : Deck) (p : TilePart) : Nat :=
  match errorBand (s.island (aabBlock (deckAab p.deck))).celsius8 with
  | some b => if assayCurrent s.now d then 1 + 2 * b + ofBool (tileAged s d p) else 0
  | none => 0

/-- Table 5.1 in hundredths of an LSB. -/
def errorLimit (cls : Nat) : Nat := [30, 55, 30, 50, 38, 62, 55, 85].getD (cls - 1) 0

/-- The last 10,000 read errors, in 2^-16 LSB, meet R161; reads before the first of the class count as exact (log 17). -/
def errorsBounded (cls : Nat) (l : List Int) : Bool :=
  let sum := l.foldl (· + ·) 0
  let squares := l.foldl (fun n e => n + e * e) 0
  decide (10 * sum.natAbs ≤ 10000 * 65536) &&
  decide (10000 * (10000 * squares - sum * sum) ≤ (10000 * 65536 * errorLimit cls : Int) ^ 2)

/-- The reference of a deck's converters as trims and tracking gain scale it: a current in 2^-16 LSB as its converter sees it. -/
def scaledCurrent (d : Deck) (pair : Nat) (current : Int) : Int :=
  ((current + lookup 0 d.offsetTrims pair) * (65536 + lookup 0 d.gainTrims pair)).tdiv (65536 + d.gain)

/-- The read error joins those of its pair-column. -/
def Deck.keepError (d : Deck) (pair : Nat) (e : Int) : Deck :=
  { d with errors := put [] d.errors pair ((e :: lookup [] d.errors pair).take 9999) }

/-- One read of a pair-column: the exact current in 2^-16 LSB with a free deviation `raw`. Where the read error this makes would break
R161 over the last 10,000 reads, the deviation is none: the read is the exact column result, rounded (R160, R161; log 17). A saturated
read is outside the bound. -/
def readPair (d : Deck) (pair : Nat) (exact raw : Int) : Deck × Int × Bool :=
  let r := columnResult (scaledCurrent d pair (exact + raw))
  if r.2 || decide (d.errorClass = 0) then (d, r)
  else
    let e := r.1 * 65536 - exact
    if errorsBounded d.errorClass (e :: (lookup [] d.errors pair).take 9999) then (d.keepError pair e, r)
    else
      let q := columnResult exact
      (if q.2 then d else d.keepError pair (q.1 * 65536 - exact), q)

/-- A deck at an evaluation of some class: errors of another class take no part (R161). -/
def Deck.inClass (d : Deck) (cls : Nat) : Deck := if d.errorClass = cls then d else { d with errorClass := cls, errors := [] }

/-! ### Reference pair-columns and tracking (R163, R164) -/

/-- Result of a reference pair-column for a sum of signs over the driven rows, and its range code: it is converted as a data pair-column
whose mapped rows all hold its value (R137). -/
def readReference (d : Deck) (rows : Nat) (top : Bool) (signs : Int) (q : Nat × Nat × Nat) (raw : Int) : Int × Nat :=
  let v := (q.2.1 : Int) - q.2.2
  let g := rangeCode (64 * v.natAbs * min (if top then 256 else 512) rows)
  ((columnResult (scaledCurrent d q.1 (64 * v * signs * pow2 (12 - (g : Int)) + raw))).1, g)

/-- The tracking gain moves by one sixteenth of the mean relative error of REF1 and REF2 against ±3 × the sum of signs (which has none where
that sum is 0; log 18); beyond 12.5% it is held and the deck's assay becomes due. -/
def Deck.moveGain (d : Deck) (now : Nat) (signs : Int) (r1 r2 : Int × Nat) : Deck :=
  let e := 24 * signs
  let g := if e = 0 then d.gain else d.gain + (((r1.1 * pow2 r1.2 - r2.1 * pow2 r2.2) - e) * 4096).tdiv e
  if 8192 < g then { d with gain := 8192, due := some (d.due.getD now) }
  else if g < -8192 then { d with gain := -8192, due := some (d.due.getD now) }
  else { d with gain := g }

/-- A read that drives at least 16 rows tracks: REF1 and REF2 move the gain, REF0 and REF3 are kept for assay. -/
def Deck.track (d : Deck) (now n k rows : Nat) (top : Bool) (driven : List (Nat × Int)) : Deck :=
  if driven.length < 16 then d
  else
    let signs := driven.foldl (fun m r => m + sgn r.2) 0
    let res := d.refs.map fun q => (q.1, readReference d rows top signs q (Config.readError n (k * 1024 + q.1)))
    let at2 := fun (c : Nat) => match res.find? (fun r => decide (r.1 = c)) with
      | some r => r.2
      | none => (0, 0)
    { d.moveGain now signs (at2 769) (at2 770) with
      refResults := put 0 (put 0 d.refResults 768 (at2 768).1) 771 (at2 771).1 }

/-! ### The reads of one evaluation (R127, R136, R138, R139) -/

/-- What the reads of an evaluation leave: the deck, the column results by read and pair-column, and whether any saturated. -/
structure Reads where
  deck : Deck
  results : Table Int := []
  saturated : Bool := false
  deriving DecidableEq, Repr

/-- Where a column result is kept: read `k` of the evaluation, pair-column `pair`. -/
def readKey (k pair : Nat) : Nat := k * 1024 + pair

/-- One plane of one phase: every pair-column of the part is read, then the references are compared. -/
def readPlane (f : Fmt) (p : TilePart) (now n planes ph b : Nat) (phase : List (Nat × Int)) (r : Reads) : Reads :=
  let k := 8 * ph + b
  let top := decide (b + 1 = planes)
  let q := (List.range (f.pairs * p.cols)).foldl (fun (q : Reads) pair =>
    let g := rangeCodes q.deck p pair
    let exact := planeSum q.deck p pair b phase * pow2 (12 - ((if top then g.1 else g.2 : Nat) : Int))
    let c := readPair q.deck pair exact (Config.readError n (readKey k pair))
    { deck := c.1, results := put 0 q.results (readKey k pair) c.2.1, saturated := q.saturated || c.2.2 }) r
  { q with deck := q.deck.track now n k p.rows top (phase.filter fun r => bit r.2.natAbs b) }

/-- Every read of an evaluation, phase by phase and plane by plane. -/
def readAll (f : Fmt) (i8 : Bool) (p : TilePart) (now n : Nat) (phases : List (List (Nat × Int))) (d : Deck) : Reads :=
  (phases.zipIdx).foldl (fun r ph => (List.range (planesOf i8)).foldl (fun r b =>
    readPlane f p now n (planesOf i8) ph.2 b ph.1 r) r) { deck := d }

/-- A_p of one weight column and phase, exact (R139). -/
def phasePartial (f : Fmt) (i8 : Bool) (d : Deck) (p : TilePart) (results : Table Int) (col ph : Nat) : Dy :=
  let planes := planesOf i8
  ((pairWeights f).zipIdx).foldl (fun acc q =>
    let pair := f.pairs * col + q.2
    let g := rangeCodes d p pair
    (List.range planes).foldl (fun acc b =>
      let gb := if b + 1 = planes then g.1 else g.2
      acc.add ⟨q.1 * pow2 b * pow2 gb * lookup 0 results (readKey (8 * ph + b) pair), -3⟩) acc) ⟨0, -3⟩

/-- The analogue sum a of a weight column (R139). -/
def analogueSum (f : Fmt) (i8 : Bool) (d : Deck) (p : TilePart) (results : Table Int) (phases col : Nat) : F32 :=
  (List.range phases).foldl (fun acc ph => F32.add acc (F32.ofDy (phasePartial f i8 d p results col ph))) F32.zero

/-- Σ bf16(x) × bf16(v) over rows in order (R140). -/
def rowProducts (s : State) (b c : Tensor) (m j : Nat) (rows : List Nat) : F32 :=
  fmaChain (rows.map fun i => (bf16Round (b.val m i), bf16Round (Val.ofDy (struckValue s c i j))))

/-! ### One evaluation -/

/-- z of one column for one K-slice without its spill partial: step 1 of R141. -/
def sliceValue (s : State) (b c : Tensor) (w m : Nat) (p : TilePart) (r : Reads) (phases col : Nat) : F32 :=
  let z := F32.ofVal ((F32.val (analogueSum c.fmt (slipDrive8 w) r.deck p r.results phases col)).scale (driveExp b w m))
  let outliers := (rankOutliers b w m p).1
  if outliers = [] then z else F32.add z (rowProducts s b c m (p.firstCol + col) outliers)

/-- An AAB with a deck found beyond its drift limit, or above 105 °C (R170, R428). -/
def aabDegraded (s : State) (aab : Nat) : Bool :=
  s.decks.any (fun p => decide (deckAab p.1 = aab) && p.2.degraded) || decide (840 < (s.island (aabBlock aab)).celsius8)

/-- The counters of an AAB for one evaluation (Table 15.7). -/
def State.countEvaluation (s : State) (aab phases spilled clipped : Nat) : State :=
  (((s.bump (aabBlock aab) 0 1).bump (aabBlock aab) 1 phases).bump (aabBlock aab) 2 spilled).bump (aabBlock aab) 3 clipped

/-- One evaluation done: its column values, counts and flags join the item, its reads act on the deck (R130, R138, R158, R161, R164). -/
def State.evaluate (s : State) (x : Item) (b c : Tensor) (m : Nat) (p : TilePart) : State × Item :=
  let w := x.slip
  let clip := (paramsOf s x.account).clip
  let phases := phasesOf clip b w m p
  let d := s.deck p.deck
  let r := readAll c.fmt (slipDrive8 w) p s.now s.free phases (d.inClass (errorClassOf s d p))
  let zs := (List.range p.cols).map fun col => sliceValue s b c w m p r phases.length col
  let y := (((x.flagIf (!(spilledRows clip b w m p).isEmpty) flOutlierSpill).flagIf (!(clippedRows clip b w m p).isEmpty) flOutlierClip).flagIf
    (r.saturated || aabDegraded s (deckAab p.deck)) flAnalogDegraded).saw (zs.map F32.val)
  let slices := (zs.zipIdx).foldl (fun t z => put 0 t (sliceKey m p.deck z.2) z.1) x.work.slices
  let y := { y with aux0 := y.aux0 + (rankOutliers b w m p).2.length, aux1 := saturate 32 (y.aux1 + phases.length),
                    work := { y.work with slices := slices, units := insertNat y.work.units (evalKey m p.deck) } }
  let d := if r.saturated then { r.deck with due := some (r.deck.due.getD s.now) } else r.deck
  ((({ s with free := s.free + 1 } : State).setDeck p.deck d).countEvaluation (deckAab p.deck) phases.length
    (spilledRows clip b w m p).length (clippedRows clip b w m p).length, y)

/-- The parts that hold a weight column, in row order: its K-slices (R142). -/
def columnParts (t : Tensor) (j : Nat) : List TilePart :=
  (List.range (ceilDiv t.rows 1024)).flatMap fun k => lookup [] t.tiles (tileOf t (1024 * k) j)

/-- z of a column for one K-slice, with its spill partial where one has arrived (R141). -/
def sliceTotal (x : Item) (m : Nat) (p : TilePart) (col : Nat) : F32 :=
  let z := lookup 0 x.work.slices (sliceKey m p.deck col)
  if x.work.spilled.contains (evalKey m p.deck) then F32.add z (lookup 0 x.work.spills (sliceKey m p.deck col)) else z

/-- The spill partials that an evaluation waits for have arrived (R145). -/
def spillArrived (clip : Bool) (x : Item) (b : Tensor) (m : Nat) (p : TilePart) : Bool :=
  (spilledRows clip b x.slip m p).isEmpty || x.work.spilled.contains (evalKey m p.deck)

/-- Every K-slice of an element has been evaluated and has its spill. -/
def elementFinal (clip : Bool) (x : Item) (b c : Tensor) (m j : Nat) : Bool :=
  vectorNan b m || (columnParts c j).all fun p => x.work.units.contains (evalKey m p.deck) && spillArrived clip x b m p

/-- The steps of an output element of the arrays: the tree over K-slices, its column scale (R141, R142). -/
def analogueSteps (x : Item) (b c : Tensor) (m j : Nat) : F32 × F32 :=
  if vectorNan b m then (F32.nan, F32.nan)
  else
    let z := treeFold F32.add F32.zero ((columnParts c j).map fun p => sliceTotal x m p (j - p.firstCol))
    (z, F32.mul z (c.scale j))

/-- A GEMM FORWARD as a product of its input and an operand in the weight's place. -/
def forwardProduct (b c right : Tensor) : Product :=
  { rows := b.rows, cols := c.cols, length := b.cols, left := b, right := right, leftT := false, rightT := false, resident := true }

/-- An output element of the arrays (R141 to R143). -/
def analogueValue (s : State) (x : Item) (b c : Tensor) (m j : Nat) : F32 :=
  if vectorNan b m then F32.nan else addCorrection (analogueSteps x b c m j).2 (correctionAt s x (forwardProduct b c c) m j)

/-- What forming an output element of the arrays meets that is not finite (R114, R119). -/
def analogueSeen (s : State) (x : Item) (b c : Tensor) (m j : Nat) : List Val :=
  let q := analogueSteps x b c m j
  [F32.val q.1, F32.val q.2] ++ correctionSeen s x (forwardProduct b c c) m j ++ [F32.val (analogueValue s x b c m j)]

/-- The item with some output elements of the arrays formed. -/
def formElements (s : State) (b c : Tensor) (cells : List (Nat × Nat)) (x : Item) : Item :=
  let y := x.saw (cells.flatMap fun q => analogueSeen s x b c q.1 q.2)
  { y with work := { y.work with results := cells.foldl (fun r q => put 0 r (q.1 * c.cols + q.2) (analogueValue s x b c q.1 q.2)) y.work.results } }

/-- The parts of tiles whose columns have no homeless tile: what the arrays evaluate (R351). -/
def evaluatedParts (s : State) (c : Tensor) : List TilePart :=
  c.parts.filter fun p => !columnHomeless s c p.firstCol

/-- Some vector has excess rows that spill. -/
def needsSpill (s : State) (x : Item) (b c : Tensor) : Bool :=
  let clip := (paramsOf s x.account).clip
  (List.range b.rows).any fun m => (evaluatedParts s c).any fun p => !(spilledRows clip b x.slip m p).isEmpty

def anyHomeless (s : State) (c : Tensor) : Bool := (List.range c.cols).any (columnHomeless s c)

/-! ### Issue, ramp and reference sequences (R145 to R151, R159) -/

/-- The arrays whose work has ended stop one in every 2 cycles; until then they make ballast reads (R148, R149). -/
def stopArray (cycle : Nat) (a : Aab) (i : Nat) : Aab :=
  let r := lookup {} a.arrays i
  if r.reading && decide (r.busyUntil ≤ cycle) then
    let fall := match a.lastFall with
      | some f => max r.busyUntil (f + 2)
      | none => r.busyUntil
    if fall ≤ cycle then
      { a with lastFall := some fall, arrays := put {} a.arrays i { r with reading := false, ballast := false } }
    else { a with arrays := put {} a.arrays i { r with ballast := true } }
  else a

/-- The AAB at a cycle: arrays whose work ended, in the order it ended. -/
def rampDown (cycle : Nat) (a : Aab) : Aab :=
  let order := sortBy (fun i j => decide ((lookup {} a.arrays i).busyUntil ≤ (lookup {} a.arrays j).busyUntil)) (List.range 16)
  order.foldl (stopArray cycle) a

/-- A start of reading is within the rise limit (R148). -/
def mayRise (a : Aab) (array cycle : Nat) : Bool :=
  (lookup {} a.arrays array).reading || (match a.lastRise with
    | some r => decide (r + 2 ≤ cycle)
    | none => true)

/-- The array begins to read until a cycle. -/
def startArray (a : Aab) (array cycle until_ : Nat) (reference : Option Nat) : Aab :=
  let r := lookup {} a.arrays array
  { a with lastRise := if r.reading then a.lastRise else some cycle,
           arrays := put {} a.arrays array { r with busyUntil := until_, reading := true, ballast := false, reference := reference } }

/-- Evaluations since the last reference sequence, and the deck of the latest: due at three (R146). -/
def referenceDue (r : ArrayState) : Bool := match r.reference with
  | some k => decide (24 ≤ k)
  | none => false

def nextReference (r : ArrayState) (f : Fmt) (phases deck : Nat) : Option Nat :=
  if f = .aw7 ∧ 0 < phases then some (((r.reference.getD 0) / 8 + 1) * 8 + deck) else r.reference

/-- The array is occupied by an evaluation from a cycle on (R145, R146). -/
def State.occupy (s : State) (p : TilePart) (f : Fmt) (cycle planes phases : Nat) : State :=
  let aab := deckAab p.deck
  let array := deckArray p.deck
  let a := s.aab aab
  let r := lookup {} a.arrays array
  let ref := nextReference r f phases (deckDeck p.deck)
  s.setAab aab (if phases = 0 then { a with arrays := put {} a.arrays array { r with reference := ref } }
    else startArray a array cycle (cycle + 2 * planes * phases) ref)

/-- A reference sequence of 19 cycles: the offsets it measures become the trims of the low-slice pair-columns of the deck of the latest
evaluation (R146, R164; log 18). -/
def State.sequence (s : State) (aab array cycle : Nat) : State :=
  let a := rampDown cycle (s.aab aab)
  let r := lookup {} a.arrays array
  let deck := deckNumber aab array ((r.reference.getD 0) % 8)
  let d := s.deck deck
  let trims := (List.range 153).foldl (fun t j => put 0 t (5 * j + 4) (Config.trim (s.free * 2048 + 1024 + 5 * j + 4))) d.offsetTrims
  (({ s with free := s.free + 1 } : State).setDeck deck { d with offsetTrims := trims }).setAab aab (startArray a array cycle (cycle + 19) none)

/-- First cycle at which an array may begin to read. -/
def nextStart (a : Aab) (array : Nat) : Nat :=
  let r := lookup {} a.arrays array
  match a.lastRise with
  | some c => if r.reading then r.busyUntil else max r.busyUntil (c + 2)
  | none => r.busyUntil

/-- An evaluation that the item makes as soon as its array may, after a reference sequence that is due (R146, R148). -/
def State.evaluateNext (s : State) (x : Item) (b c : Tensor) (m : Nat) (p : TilePart) : State × Item :=
  let aab := deckAab p.deck
  let array := deckArray p.deck
  let a := s.aab aab
  let s := if referenceDue (lookup {} a.arrays array) then s.sequence aab array (nextStart a array) else s
  let a := s.aab aab
  let cycle := nextStart a array
  let s := s.setAab aab (rampDown cycle a)
  let s := (s.takeCopy p.deck fun _ => true).getD s
  let q := s.evaluate x b c m p
  (q.1.occupy p c.fmt cycle (planesOf (slipDrive8 x.slip)) (phasesOf (paramsOf s x.account).clip b x.slip m p).length, q.2)

/-- An evaluation that the item has yet to make. -/
def toEvaluate (x : Item) (b : Tensor) (m : Nat) (p : TilePart) : Bool :=
  !vectorNan b m && !x.work.units.contains (evalKey m p.deck)

/-- Every evaluation of the item that has not been made. -/
def evaluateAll (b c : Tensor) (parts : List TilePart) (s : State) (x : Item) : State × Item :=
  (List.range b.rows).foldl (fun q m => parts.foldl (fun q p =>
    if toEvaluate q.2 b m p then q.1.evaluateNext q.2 b c m p else q) q) (s, x)

/-- The arrays can take what the item has yet to evaluate: their AABs issue, their decks have been assayed, and each AAB has a slot free in
its input and its output buffer (R150, R188). -/
def mayEvaluate (s : State) (x : Item) (b : Tensor) (parts : List TilePart) : Bool :=
  parts.all fun p => !((List.range b.rows).any fun m => toEvaluate x b m p) ||
    (blockIssues s (aabBlock (deckAab p.deck)) && (s.deck p.deck).assayed && decide ((s.aab (deckAab p.deck)).outputs.length < 64) &&
     decide ((s.aab (deckAab p.deck)).inputs.length < 64))

/-- The spill partials of a vector over some parts, formed on a DTB by the rule of the outlier products (R140, R464). -/
def spillVector (s : State) (clip : Bool) (b c : Tensor) (m : Nat) (parts : List TilePart) (x : Item) : Item :=
  parts.foldl (fun x p =>
    if spillArrived clip x b m p then x
    else
      let spills := (List.range p.cols).foldl (fun t col =>
        put 0 t (sliceKey m p.deck col) (rowProducts s b c m (p.firstCol + col) (spilledRows clip b x.slip m p))) x.work.spills
      { x with work := { x.work with spills := spills, spilled := insertNat x.work.spilled (evalKey m p.deck) } }) x

/-- An element of a homeless column, wholly on DTBs, and what forming it meets that is not finite (R351). -/
def homelessElement (s : State) (x : Item) (p : Product) (m j : Nat) : F32 × List Val :=
  (elementValue s x p m j, elementSeen s x p m j ++ [F32.val (elementValue s x p m j)])

/-- Every value of the item: its evaluations, its spills, and the fallback's product for the homeless columns (R139 to R144, R351). -/
def State.forwardValues (s : State) (id : Nat) (x : Item) (b c out : Tensor) (homeless : Bool) : State :=
  let parts := evaluatedParts s c
  let q := evaluateAll b c parts s x
  let s := if homeless then q.1.holdFallback (slipC x.slip) (weightFormat x.slip b) else q.1
  let x := (List.range b.rows).foldl (fun x m => spillVector s (paramsOf s x.account).clip b c m parts x) (q.2.flagIf homeless flFallbackWide)
  let p := forwardProduct b c (workOperand x c (weightFormat x.slip b))
  let cells := ((List.range (b.rows * c.cols)).map fun i => (i / c.cols, i % c.cols)).filter fun q => !elementKept x out q.1 q.2
  let wide := cells.filter fun q => columnHomeless s c q.2
  let y := formElements s b c (cells.filter fun q => !columnHomeless s c q.2) x
  let y := (y.saw (wide.flatMap fun q => (homelessElement s x p q.1 q.2).2)).saw
    ((b.vals ++ (match find s.tensors (slipD x.slip) with
      | some d => d.vals
      | none => [])).filter fun v => !v.isFinite)
  let r := wide.foldl (fun r q => put 0 r (q.1 * c.cols + q.2) (homelessElement s x p q.1 q.2).1) y.work.results
  s.setItem id { y with work := { y.work with results := r, final := true, slices := [], spills := [] } }

/-- GEMM FORWARD on the analogue arrays (R128 to R144, R351, R464). -/
def forwardEffect (s : State) (id : Nat) (x : Item) : State :=
  if x.work.final then s
  else
    let poison := poisonOf s [slipB x.slip, slipD x.slip]
    if poison ≠ 0 then s.endItem id stFinal poison
    else
      match find s.tensors (slipB x.slip), find s.tensors (slipC x.slip), find s.tensors (slipA x.slip) with
      | some b, some c, some out =>
        let homeless := anyHomeless s c
        if (paramsOf s x.account).contextSlots = 0 ∧ (homeless || needsSpill s x b c) = true then s.endItem id stFinal 0
        else if !mayEvaluate s x b (evaluatedParts s c) then s
        else
          match (if homeless && x.work.wCodes.isEmpty then withOperand s x else some x) with
          | none => s.endItem id stFinal 0
          | some y => s.forwardValues id y b c out homeless
      | _, _, _ => s.endItem id stFinal 0

/-- A GEMM FORWARD whose weight operand has class weight (Table 2.6). -/
def isAnalogue (s : State) (w : Nat) : Bool :=
  isOp famGemm 0 w && tensorIs (s.tensor? (slipC w)) fun c => decide (c.cls = 1)

def execGemmForward (item : Nat) (s : State) : Result := s.running item (isAnalogue s) (forwardEffect s item)

/-- Elements that the conversion of an output tile reads: its own, and for a row-scaled output its rows whole (R100, R144). -/
def tileCells (t : Tensor) (tile : Nat) : List (Nat × Nat) :=
  let (r0, rs, c0, cs) := tileBounds t.rows t.cols tile
  (List.range rs).flatMap fun i => (if t.fmt.rowScaled then List.range t.cols else (List.range cs).map (c0 + ·)).map fun j => (r0 + i, j)

/-- The item once every element of an output tile is final; none before (R144). -/
def tileFormed (s : State) (x : Item) (b c t : Tensor) (tile : Nat) : Option Item :=
  if x.work.final then some x
  else
    let cells := (tileCells t tile).filter fun q => !elementKept x t q.1 q.2
    if cells.all fun q => !columnHomeless s c q.2 && elementFinal (paramsOf s x.account).clip x b c q.1 q.2 then some (formElements s b c cells x)
    else none

/-- OUTPUT_TILE_CONVERT (R144): an item that is to stop ends at this boundary (R154, R467). -/
def outputTile (s : State) (id tile : Nat) (x : Item) : State :=
  match find s.tensors (slipA x.slip), find s.tensors (slipB x.slip), find s.tensors (slipC x.slip) with
  | some t, some b, some c =>
    if tile < tileCount t.rows t.cols ∧ x.work.tiles.contains tile = false ∧ t.writable id = true then
      match tileFormed s x b c t tile with
      | some y => (s.convertTile id y tile).reachStop id true
      | none => s
    else s
  | _, _, _ => s

def execOutputTileConvert (item tile : Nat) (s : State) : Result := s.running item (isAnalogue s) (outputTile s item tile)

/-- SPILL_PARTIAL: the spill partials of a vector (R140, R464). -/
def execSpillPartial (item vector : Nat) (s : State) : Result :=
  s.running item (isAnalogue s) fun x =>
    match find s.tensors (slipB x.slip), find s.tensors (slipC x.slip) with
    | some b, some c =>
      let clip := (paramsOf s x.account).clip
      let parts := (evaluatedParts s c).filter fun p => !spillArrived clip x b vector p
      if x.work.final || decide (b.rows ≤ vector) || parts.isEmpty then s
      else if (paramsOf s x.account).contextSlots = 0 then s.endItem item stFinal 0
      else s.setItem item (spillVector s clip b c vector parts x)
    | _, _ => s

/-! ### Descriptors and issue (R145, R150, R159) -/

def descFmt (w : Nat) : Option Fmt := match descCode w with
  | 0 => some .aw3
  | 1 => some .aw5
  | 2 => some .aw7
  | _ => none

/-- The descriptor names a part of the item's weight tile as it is bound: its array and deck, code, drive, policy, account, its place within
K (bit 11), its weight columns, which a tile takes from column 0 of its deck on, and its rows (R150, Table 4.11). -/
def descPart (s : State) (aab w : Nat) (x : Item) (b c : Tensor) : Option TilePart :=
  let deck := deckNumber aab (descArray w) (descDeck w)
  if descFmt w = some c.fmt ∧ descI8 w = slipDrive8 x.slip ∧ descClip w = (paramsOf s x.account).clip ∧ descAccount w = x.account ∧
      bits w 63 59 = 0 ∧ descColumn w = 0 ∧ b.cols = c.rows then
    (evaluatedParts s c).find? fun p => decide (p.deck = deck) && decide (p.cols = descColumns w) && decide (p.rows = descRows w) &&
      (descFirst w == decide (p.firstRow = 0))
  else none

/-- The results in an output slot have arrived and are drained: its own evaluation has ended, its spill is in, and for K-slice 0 every other
slice of its columns is in (R145, R150, R151). -/
def slotDone (s : State) (cycle : Nat) (o : OutputSlot) : Bool :=
  match find s.items o.item with
  | none => true
  | some x =>
    match find s.tensors (slipB x.slip), find s.tensors (slipC x.slip) with
    | some b, some c =>
      let clip := (paramsOf s x.account).clip
      decide (o.readyAt ≤ cycle) && (c.parts.filter fun p => decide (p.deck = o.deck)).all fun p =>
        spillArrived clip x b o.vector p && (decide (p.firstRow ≠ 0) || elementFinal clip x b c o.vector p.firstCol)
    | _, _ => true

/-- The AAB at a cycle: drained output slots are free, and their evaluations no longer pending. -/
def State.drained (s : State) (cycle : Nat) (a : Aab) : Aab :=
  let outputs := a.outputs.filter fun q => !slotDone s cycle q.2
  { a with outputs := outputs, descriptors := a.descriptors.filter fun w => (find outputs (descOutSlot w)).isSome }

/-- The input slot holds the vector, or can take it: the vector it held has no evaluation left to read it (R150). -/
def inputFree (a : Aab) (slot item vector cycle : Nat) : Bool :=
  match find a.inputs slot with
  | none => true
  | some q => (decide (q.1 = item) && decide (q.2.1 = vector)) || decide (q.2.2 ≤ cycle)

/-- The array of a deck evaluates nothing at a cycle. -/
def arrayIdle (s : State) (cycle dn : Nat) : Bool := decide ((lookup {} (s.aab (deckAab dn)).arrays (deckArray dn)).busyUntil ≤ cycle)

/-- The evaluation of one part of a weight tile for one vector, once R150 holds and its deck-array has a working copy (R139, R145, R146,
R148, R150, R344). -/
def State.evaluateIssued (s : State) (aab w vector cycle : Nat) (check : BlockCheck) (x : Item) (b c : Tensor) (p : TilePart) : State :=
  let a := s.drained cycle (rampDown cycle (s.aab aab))
  let r := lookup {} a.arrays (descArray w)
  let d := s.deck p.deck
  let phases := (phasesOf (paramsOf s x.account).clip b x.slip vector p).length
  let busy := decide (cycle < r.busyUntil) || referenceDue r || !d.assayed || !inputFree a (descInSlot w) (descItem w) vector cycle ||
    (find a.outputs (descOutSlot w)).isSome || (decide (0 < phases) && !mayRise a (descArray w) cycle) || !toEvaluate x b vector p
  let s := s.setAab aab a
  match s.takeCopy p.deck (arrayIdle s cycle), busy with
  | none, _ => s
  | _, true => s
  | some s, false =>
    let s := s.blockCheck (aabBlock aab) x.account (descItem w) check
    if recurs check then s
    else
      let q := s.evaluate x b c vector p
      let planes := planesOf (slipDrive8 x.slip)
      let s := q.1.occupy p c.fmt cycle planes phases
      let a := s.aab aab
      let span := 2 * planes * phases
      let out : OutputSlot := { item := descItem w, vector := vector, deck := p.deck,
                                values := (List.range p.cols).map fun col => lookup 0 q.2.work.slices (sliceKey vector p.deck col),
                                readyAt := cycle + (if phases = 0 then 4 else span + 7) }
      (s.setAab aab { a with outputs := ins a.outputs (descOutSlot w) out, descriptors := a.descriptors ++ [w],
                             inputs := ins a.inputs (descInSlot w) (descItem w, vector, cycle + span) }).setItem (descItem w) q.2

/-- EVALUATION_ISSUE once R150 holds (R138 to R151, R159, R164, R188, R388). -/
def issueEffect (aab w vector cycle : Nat) (check : BlockCheck) (s : State) : State :=
  let blk := aabBlock aab
  let isl := s.island blk
  if descEpochC w ≠ onesComplement 64 (descEpoch w) then s.complementFault blk 7 noAccount (descItem w) 0
  else if descEpoch w < isl.epoch then s
  else
    let s := s.setIsland blk { isl with epoch := descEpoch w, epochC := onesComplement 64 (descEpoch w) }
    match find s.items (descItem w) with
    | none => s
    | some x =>
      match find s.tensors (slipB x.slip), find s.tensors (slipC x.slip) with
      | some b, some c =>
        if x.stage ≠ 2 ∨ isAnalogue s x.slip = false ∨ x.work.final = true ∨ b.rows ≤ vector ∨ blockIssues s blk = false then s
        else
          match descPart s aab w x b c with
          | none => s
          | some p => s.evaluateIssued aab w vector cycle check x b c p
      | _, _ => s

def execEvaluationIssue (aab : Fin 168) (descriptor : BitVec 256) (vector cycle : Nat) (check : BlockCheck) (s : State) : Result :=
  .next (issueEffect aab.val descriptor.toNat vector cycle check s)

/-- REFERENCE_SEQUENCE: after the third AW7 evaluation, before the array's next (R146). -/
def execReferenceSequence (aab : Fin 168) (array : Fin 16) (cycle : Nat) (s : State) : Result :=
  let a := rampDown cycle (s.aab aab.val)
  let r := lookup {} a.arrays array.val
  .next (if referenceDue r && decide (r.busyUntil ≤ cycle) && mayRise a array.val cycle then s.sequence aab.val array.val cycle else s)

end Sys2Proof.Machine
end

