-- ==== Sys2Proof/Machine/Wear.lean ====
section
/-! DEFINITION. Cells and wear: program-and-verify, the wear caps, debased rows, placement of tiles, assay, tile moves,
refresh, and the records in flash (R163 to R171, R177, R182 to R190, R350, R351, R360). -/

namespace Sys2Proof.Machine

open Sys2Proof

/-! ### Time -/

/-- The pulse count stays on the life line (R183; service time: log 18). -/
def onLifeLine (s : State) (pulses : Nat) : Bool :=
  decide ((pulses - 2 ^ 20) * (87660 * hourNs) ≤ 10 ^ 8 * (Config.serviceBase + s.now))

/-! ### Wear records (R182, R183, R186) -/

def pulseSum (d : Deck) : Nat := tableSum d.wear fun _ w => w.pulses

/-- Settlements of the past hour. -/
def Wear.lately (w : Wear) (now : Nat) : List Nat := w.recent.filter fun t => decide (now < t + hourNs)

/-- A row's credit at a count of commits: one for every 32, at most 8 (R183). -/
def Wear.earn (w : Wear) (commits : Nat) : Wear :=
  let g := (commits - w.creditBase) / 32
  { w with credit := min 8 (w.credit + g), creditBase := w.creditBase + 32 * g }

/-- The hourly cap and the life line (R183). -/
def capsPermit (s : State) (w : Wear) : Bool := decide ((w.lately s.now).length < 256) && onLifeLine s w.pulses

/-- A row is admitted to an ordinary settlement (R183, R186). -/
def rowAdmitted (s : State) (w : Wear) : Bool := !w.debased && decide (1 ≤ w.credit) && capsPermit s w

/-- A row's record after a pass of some rounds (R177, R182, R183, R186). -/
def Wear.after (w : Wear) (now day rounds : Nat) (failed spend : Bool) : Wear :=
  { w with pulses := w.pulses + rounds, settlements := min 16383 (w.settlements + 1), lastDay := day,
           debased := w.debased || (failed && w.failed) || decide (10 ^ 8 ≤ w.pulses + rounds), failed := failed,
           credit := if spend then w.credit - 1 else w.credit, recent := w.lately now ++ [now] }

/-! ### Program-and-verify (R177) -/

/-- Within 8/64 of its target. -/
def nearTarget (level target : Nat) : Bool := decide (level ≤ target + 8) && decide (target ≤ level + 8)

/-- Rounds of one cell from round k on: its last read, the rounds run, and whether it verified. What a read finds after a
pulse is free (log 18). -/
def pulseRounds (n key target : Nat) : Nat → Nat → Nat × Nat × Bool
  | 0, k => (Config.cellRead n (16 * key + k) % 256, k + 1, nearTarget (Config.cellRead n (16 * key + k) % 256) target)
  | f + 1, k =>
    if nearTarget (Config.cellRead n (16 * key + k) % 256) target then (Config.cellRead n (16 * key + k) % 256, k + 1, true)
    else pulseRounds n key target f (k + 1)

/-- One cell: no pulse within the tolerance, else at most 12 rounds. -/
def programCell (n key target level : Nat) : Nat × Nat × Bool :=
  if nearTarget level target then (level, 0, true) else pulseRounds n key target 11 0

/-- A pair's word after its two cells, with the most rounds, the sum of pulses, and whether a cell failed. -/
def programPair (n : Nat) (struck : Table Nat) (key t c : Nat) : Nat × Nat × Nat × Bool :=
  let w := lookup 0 struck key
  let x := programCell n (2 * key) t (recTrue w)
  let y := programCell n (2 * key + 1) c (recComp w)
  (recWord x.1 y.1, max x.2.1 y.2.1, x.2.1 + y.2.1, !x.2.2 || !y.2.2)

/-- The pairs of a row toward their targets: (pair, true target, complement target). -/
def programRow (n row : Nat) (targets : List (Nat × Nat × Nat)) (struck : Table Nat) : Table Nat × Nat × Nat × Bool :=
  targets.foldl (fun r q =>
    let p := programPair n r.1 (pairKey row q.1) q.2.1 q.2.2
    (put 0 r.1 (pairKey row q.1) p.1, max r.2.1 p.2.1, r.2.2.1 + p.2.2.1, r.2.2.2 || p.2.2.2)) (struck, 0, 0, false)

/-- The pair targets of a weight code in weight column `col` (R124, R125). -/
def codeTargets (f : Fmt) (col : Nat) (v : Int) : List (Nat × Nat × Nat) :=
  ((slices f v).zipIdx).map fun p => let l := pairLevels p.1; (f.pairs * col + p.2, 64 * l.1, 64 * l.2)

def targetKey (row col : Nat) : Nat := 512 * row + col

/-- ROW_DEBASED (R186, Table 12.2). -/
def State.debasedFault (s : State) (dn row pulses : Nat) : State :=
  s.recordFault { code := 0x2402, source := aabBlock (deckAab dn), sub := deckArray dn, detail0 := deckDeck dn + 8 * row, detail1 := pulses }

/-- A row's record changes; a row newly debased is reported (R186). -/
def State.wearRow (s : State) (dn row : Nat) (w w' : Wear) : State :=
  let d := s.deck dn
  let s := s.setDeck dn { d with wear := put {} d.wear row w' }
  if w'.debased && !w.debased then s.debasedFault dn row w'.pulses else s

/-- A row programmed to codes, given by weight column, in reading `n` (R177, R182). -/
def State.programCodes (s : State) (dn row n : Nat) (f : Fmt) (codes : List (Nat × Int)) (spend : Bool) : State :=
  let d := s.deck dn
  let r := programRow n row (codes.flatMap fun q => codeTargets f q.1 q.2) d.struck
  let w := lookup {} d.wear row
  let targets := codes.foldl (fun m q => put 0 m (targetKey row q.1) (twos 7 q.2)) d.targets
  let s := s.setDeck dn { d with struck := r.1, targets := targets }
  (s.wearRow dn row w (w.after s.now (dayOf s) r.2.1 r.2.2.2 spend)).bump (aabBlock (deckAab dn)) 6 r.2.2.1

/-! ### Placement (R184, R350, R351) -/

/-- Free deck-arrays with at least some usable rows, of the lowest mean pulse count (R184). -/
def bestDecks (s : State) (rows : Nat) : List Nat :=
  let l := (List.range deckCount).filter fun dn => deckFree s dn && decide (rows ≤ usableRows (s.deck dn))
  match l with
  | [] => []
  | a :: rest =>
    let m := rest.foldl (fun m dn => min m (pulseSum (s.deck dn))) (pulseSum (s.deck a))
    l.filter fun dn => decide (pulseSum (s.deck dn) = m)

/-- The placer's choice among equals (log 15). -/
def pickDeck (s : State) (rows : Nat) : Option Nat :=
  let l := bestDecks s rows
  l[Config.placerChoice s.free % l.length]?

/-- Deck-arrays bound to an account. -/
def boundDecks (s : State) (account : Nat) : Nat :=
  (s.decks.filter fun p => match p.2.bound with
    | some (h, _) => decide (handleAccount h = account)
    | none => false).length

/-- A further deck-array lies within the account's DECKS or the wear margin (R350, R351). -/
def deckAllowed (s : State) (account : Nat) : Bool :=
  decide (boundDecks s account < (paramsOf s account).decks) ||
  decide (tableSum s.accounts (fun a x => x.params.decks - boundDecks s a) <
    ((List.range deckCount).filter (deckFree s)).length)

/-- The tensor on a deck has a new version of its struck copy (R243). -/
def State.newStruck (s : State) (dn : Nat) : State :=
  match (s.deck dn).bound with
  | some (h, _) => { s with tensors := adjust s.tensors h fun t => { t with struckVersion := t.struckVersion + 1 } }
  | none => s

/-- Levels that an assay has measured are applied to the whole deck at once: its range codes are those of the new levels (R137, R168,
R174). -/
def State.applyMeasured (s : State) (dn : Nat) : State :=
  let d := s.deck dn
  match d.measured with
  | some new => (s.setDeck dn { d with struck := new, measured := none }).newStruck dn
  | none => s

/-- Reference pair-columns of a deck: those of Table 5.2, with the three of an AW7 deck (R126, R163). -/
def referencesOf (f : Option Fmt) : List (Nat × Nat × Nat) :=
  ([(768, 0, 0), (769, 3, 0), (770, 0, 3), (771, 2, 1)] : List (Nat × Nat × Nat)) ++
    if f = some .aw7 then [(765, 1, 0), (766, 0, 1), (767, 3, 3)] else []

/-- Data pair-columns of a deck: those that are no references. -/
def Deck.dataPairs (d : Deck) : Nat := 772 - d.refs.length

/-- The rows of a deck bound to a tile have their credit set to 8 (R183). -/
def bindWear (commits : Nat) (d : Deck) (skip : List Nat) (p : TilePart) : Table Wear :=
  (List.range p.rows).foldl (fun m k => modify {} m (physRow skip k) fun w => { w with credit := 8, creditBase := commits }) d.wear

/-- The column scales of a part's weight columns (R190). -/
def TilePart.scalesOf (p : TilePart) (t : Tensor) : Table F32 := t.scales.filter fun q => decide (p.firstCol ≤ q.1) && decide (q.1 < p.firstCol + p.cols)

/-- A part of a tile of the tensor with handle `h` bound to its deck (R183, R190, R350). -/
def State.bindDeck (s : State) (h : Nat) (t : Tensor) (tile : Nat) (p : TilePart) : State :=
  let s := s.applyMeasured p.deck
  let d := s.deck p.deck
  let skip := debasedRows d
  s.setDeck p.deck { d with
    bound := some (h, tile, p), skip := skip, wear := bindWear (commitsOf s (handleAccount h)) d skip p, refs := referencesOf (some t.fmt),
    binding := some { account := handleAccount h, number := handleNumber h, tile := tile, part := p, fmt := t.fmt, rows := t.rows,
                      cols := t.cols, scales := p.scalesOf t, skip := skip },
    bindingDirty := some s.now }

/-- The deck that takes the next rows: the best for all of them, else the best for one (R350). -/
def nextDeck (s : State) (h rows : Nat) : Option Nat :=
  if !deckAllowed s (handleAccount h) then none else (pickDeck s rows).or (pickDeck s 1)

/-- Places the remaining rows of a tile, a deck-array at a time (R350); none where they cannot all be placed. -/
def placeRows (h : Nat) (t : Tensor) (tile firstCol cols : Nat) : Nat → Nat → Nat → State → Option (State × List TilePart)
  | 0, _, rows, s => if rows = 0 then some (s, []) else none
  | n + 1, firstRow, rows, s =>
    if rows = 0 then some (s, [])
    else
      match nextDeck s h rows with
      | none => none
      | some dn =>
        let k := min rows (usableRows (s.deck dn))
        let p : TilePart := { deck := dn, firstRow := firstRow, rows := k, firstCol := firstCol, cols := cols }
        match placeRows h t tile firstCol cols n (firstRow + k) (rows - k) (s.tick.bindDeck h t tile p) with
        | none => none
        | some r => some (r.1, p :: r.2)

/-- First row of K, rows, first column and columns of a tile (R350). -/
def tileShape (t : Tensor) (tile : Nat) : Nat × Nat × Nat × Nat :=
  let i := tile / tilesAcross t
  let j := tile % tilesAcross t
  (1024 * i, min 1024 (t.rows - 1024 * i), t.fmt.deckColumns * j, min t.fmt.deckColumns (t.cols - t.fmt.deckColumns * j))

def weightTiles (t : Tensor) : Nat := ceilDiv t.rows 1024 * ceilDiv t.cols t.fmt.deckColumns

/-- A tile placed where it can be; otherwise it has no part (R350, R351). -/
def State.placeTile (s : State) (h : Nat) (t : Tensor) (tile : Nat) : State × List TilePart :=
  let (r0, rs, c0, cs) := tileShape t tile
  (placeRows h t tile c0 cs 1024 r0 rs s).getD (s, [])

/-! ### Attachment (R190, R360) -/

/-- Deck-arrays whose valid record names an account and a tensor number, bound to nothing yet. -/
def recordedDecks (s : State) (h : Nat) : List (Nat × Binding) :=
  s.decks.filterMap fun p => match p.2.bound, p.2.binding with
    | none, some b => if b.account = handleAccount h ∧ b.number = handleNumber h then some (p.1, b) else none
    | _, _ => none

def sameShape (t : Tensor) (b : Binding) : Bool := decide (b.fmt = t.fmt) && decide (b.rows = t.rows) && decide (b.cols = t.cols)

/-- A recorded deck-array attached to the tensor's tile. -/
def attachOne (h : Nat) (q : State × Tensor) (r : Nat × Binding) : State × Tensor :=
  let b := r.2
  let s := q.1
  let t := q.2
  let d := s.deck r.1
  let parts := sortBy (fun x y => decide (x.firstRow ≤ y.firstRow)) (b.part :: lookup [] t.tiles b.tile)
  let t := { t with tiles := ins t.tiles b.tile parts, scales := b.scales.foldl (fun m x => ins m x.1 x.2) t.scales }
  (s.setDeck r.1 { d with bound := some (h, b.tile, b.part),
                          wear := bindWear (commitsOf s (handleAccount h)) d d.skip b.part }, t)

/-- A recorded deck-array whose tensor is declared otherwise is released (R360). -/
def State.releaseDeck (s : State) (dn : Nat) : State :=
  s.setDeck dn { s.deck dn with bound := none, binding := none, bindingDirty := some s.now, dirty := true, working := false }

/-- The tiles of a newly declared class-weight tensor: attached where their records match, else placed (R175, R184, R190, R350). -/
def State.placeWeight (s : State) (h : Nat) (t : Tensor) : State × Tensor :=
  let recs := recordedDecks s h
  let s := (recs.filter fun r => !sameShape t r.2).foldl (fun s r => s.releaseDeck r.1) s
  let q := (recs.filter fun r => sameShape t r.2).foldl (attachOne h) (s, t)
  (List.range (weightTiles t)).foldl (fun q tile =>
    if (find q.2.tiles tile).isSome then q
    else
      let r := q.1.placeTile h q.2 tile
      (r.1, { q.2 with tiles := if r.2 = [] then q.2.tiles else ins q.2.tiles tile r.2 })) q

/-! ### Binding records (R190) -/

/-- A binding record's bytes with the exempt passes it counts; the manual gives its content, not its layout (log 18). -/
def Binding.bytes (b : Binding) (exempt : Nat) : List Byte :=
  toLE 8 (mkHandle b.account 0 b.number) ++ toLE 4 b.tile ++ toLE 4 b.part.deck ++ toLE 4 b.part.firstRow ++ toLE 4 b.part.rows ++
  toLE 4 b.part.firstCol ++ toLE 4 b.part.cols ++ toLE 1 b.fmt.code ++ toLE 4 b.rows ++ toLE 4 b.cols ++
  toLE 128 (b.skip.foldl (fun n r => n + 2 ^ r) 0) ++
  ((List.range b.part.cols).flatMap fun c => toLE 4 (lookup F32.one b.scales (b.part.firstCol + c)).toNat) ++ toLE 4 exempt

/-- The record as flash holds it, under its CRC-32. -/
def Binding.sealed (b : Binding) (exempt : Nat) : Binding := { b with check := crc32 (b.bytes exempt) }

/-- A record that start-up takes as valid. -/
def Binding.valid (b : Binding) (exempt : Nat) : Bool := decide (b.check = crc32 (b.bytes exempt))

/-! ### Assay (R165 to R171) -/

/-- The Tj that a deck's array last read, in 1/8 °C. -/
def tjOf (s : State) (dn : Nat) : Int := (s.island (aabBlock (deckAab dn))).celsius8

/-- An array's sensor reads a Tj. -/
def State.readTj (s : State) (dn : Nat) (tj : Int) : State :=
  s.setIsland (aabBlock (deckAab dn)) { s.island (aabBlock (deckAab dn)) with celsius8 := tj }

def assayReads : Nat := 8224

/-- ASSAY_DUE's causes (R167); `tj` in 1/8 °C. -/
def assayDueNow (d : Deck) (cause : DueCause) (t : Nat) (tj : Int) : Bool :=
  match cause with
  | .timer => d.assayed && decide (d.assayAt + 600000 * ms ≤ t)
  | .temperature => d.assayed && decide (64 < (tj - d.assayTj).natAbs)
  | .request => d.due.isSome
  | .powerUp => !d.assayed

def execAssayDue (deck : Fin 21504) (cause : DueCause) (t : Nat) (tj : Int) (s : State) : Result :=
  let s := s.at t
  let d := s.deck deck.val
  .next (if s.power.powerGood && assayDueNow d cause t tj then
      (s.readTj deck.val tj).setDeck deck.val
        { d with due := some (d.due.getD t), triggerAt := if cause = .temperature then some (d.triggerAt.getD t) else d.triggerAt }
    else s)

/-- A cell's new recorded level: the mean of its four reads, each free, rounded to 1/64 with ties to even (R165; log 18). -/
def assayCell (n cell : Nat) : Nat := divNE (((List.range 4).map fun k => Config.cellRead n (4 * cell + k) % 256).sum) 4

/-- The levels that an assay finds in every data cell-pair (R165, R172). -/
def assayLevels (n pairs : Nat) : Table Nat :=
  (List.range (1024 * 768)).filterMap fun key =>
    let w := recWord (assayCell n (2 * key)) (assayCell n (2 * key + 1))
    if key % 768 < pairs ∧ w ≠ 0 then some (key, w) else none

/-- The drift of a pair-column: its 256 largest moves in 1/64 slice units, over its top-plane LSB in the same units (R170). -/
def columnDrift (d : Deck) (new : Table Nat) (p : TilePart) (pair : Nat) : Nat × Nat :=
  let moves := (List.range p.rows).map fun k =>
    let row := physRow d.skip k
    (pairDiff new row pair - pairDiff d.struck row pair).natAbs
  (topSum 256 moves, 16 * 2 ^ (rangeCodes d p pair).1)

/-- The largest drift of a part's pair-columns, as a fraction. -/
def partDrift (d : Deck) (new : Table Nat) (f : Fmt) (p : TilePart) : Nat × Nat :=
  (List.range (f.pairs * p.cols)).foldl (fun m pair =>
    let c := columnDrift d new p pair
    if m.1 * c.2 < c.1 * m.2 then c else m) (0, 1)

/-- A deck's drift: the largest of its pair-columns. -/
def deckDrift (s : State) (d : Deck) (new : Table Nat) : Nat × Nat :=
  match d.bound with
  | none => (0, 1)
  | some (h, _, p) =>
    match find s.tensors h with
    | none => (0, 1)
    | some t => partDrift d new t.fmt p

/-- ASSAY_OUT_OF_TOLERANCE (R171, Table 12.2): the drift in sixteenths of an LSB. -/
def State.driftFault (s : State) (dn : Nat) (drift : Nat × Nat) : State :=
  if drift.2 < drift.1 then
    s.recordFault { code := 0x2401, source := aabBlock (deckAab dn), sub := deckArray dn, detail0 := deckDeck dn,
                    detail1 := saturate 32 (divNE (16 * drift.1) drift.2) }
  else s

/-- What an assay of some drift makes of a deck (R170, R171). -/
def Deck.judged (d : Deck) (bad : Bool) : Deck :=
  if bad then
    { d with degraded := true, badRun := d.badRun + 1, goodRun := 0, withdrawn := d.withdrawn || decide (3 ≤ d.badRun + 1) }
  else
    { d with degraded := false, badRun := 0, goodRun := d.goodRun + 1, withdrawn := d.withdrawn && decide (d.goodRun + 1 < 2) }

/-- Trims of every pair-column as the converter steps of an assay find them (R166, Table 5.3; log 18). -/
def trimTable (n k : Nat) : Table Int := (List.range 772).foldl (fun m c => put 0 m c (Config.trim (n * 2048 + k + c))) []

/-- A deck whose assay, begun at `t`, has set its trims; the tracking gain is 1.0 again (R164, R166, R167). -/
def Deck.trimmed (d : Deck) (n t : Nat) (tj : Int) : Deck :=
  { d with gainTrims := trimTable n 0, offsetTrims := trimTable n 1024, gain := 0, assayed := true, assayAt := t, assayTj := tj,
           due := none, triggerAt := none, errorClass := 0, errors := [] }

/-- An assay of one deck (R165, R166, R170, R171). -/
def State.assayDeck (s : State) (dn t : Nat) (tj : Int) : State :=
  let n := s.free
  let d := s.deck dn
  let new := assayLevels n d.dataPairs
  let drift := deckDrift s d new
  let s := ({ s with free := n + 1 } : State).setDeck dn { (d.judged (decide (drift.2 < drift.1))).trimmed n t tj with measured := some new }
  (s.bump (aabBlock (deckAab dn)) 5 assayReads).driftFault dn drift

/-- The array of a deck is in service. -/
def arrayServes (s : State) (dn : Nat) : Bool := blockServes s (aabBlock (deckAab dn))

def execAssay (deck : Fin 21504) (t : Nat) (tj : Int) (s : State) : Result :=
  let s := s.at t
  .next (if (s.deck deck.val).due.isSome && arrayServes s deck.val && backgroundRuns s (halfOfRegion (deckRegion deck.val)) then (s.readTj deck.val tj).assayDeck deck.val t tj else s)

/-- ASSAY_APPLY: the whole deck at once, while no item holds it (R152, R168, R174). -/
def execAssayApply (deck : Fin 21504) (s : State) : Result :=
  .next (if (s.deck deck.val).holds = [] then s.applyMeasured deck.val else s)

/-! ### Zero-programming (R177, R183, R189, R360) -/

/-- An exempt pass recorded in flash before its first pulse (R189). -/
def Deck.beginExempt (d : Deck) : Deck :=
  { d with exempt := d.exempt + 1, flash := d.flash.map fun b => b.sealed (d.exempt + 1) }

/-- Every row that is not debased after one pulse to each of its cells. -/
def zeroWear (now day : Nat) (d : Deck) : Table Wear :=
  (List.range 1024).foldl (fun m row => let w := lookup {} m row
    if w.debased then m else put {} m row (w.after now day 1 false false)) d.wear

/-- Rows that a pass has debased. -/
def newlyDebased (old new : Table Wear) : List (Nat × Nat) :=
  (new.filter fun p => p.2.debased && !(lookup {} old p.1).debased).map fun p => (p.1, p.2.pulses)

/-- A deck-array zero-programmed and assayed, at the Tj that its array reads: the levels that this assay forms are the zero levels (R175, R360).
Its extra references are data pair-columns again. -/
def State.zeroDeck (s : State) (dn t : Nat) : State :=
  let d := (s.deck dn).beginExempt
  let wear := zeroWear s.now (dayOf s) d
  let d' := ({ d with wear := wear, struck := [], targets := [], measured := none, dirty := false, leaving := false,
                      refs := referencesOf none } : Deck)
  let s' := ({ s with free := s.free + 1 } : State).setDeck dn ((d'.judged false).trimmed s.free t (tjOf s dn))
  let s' := (s'.bump (aabBlock (deckAab dn)) 6 (1024 * 1536)).bump (aabBlock (deckAab dn)) 5 assayReads
  (newlyDebased d.wear wear).foldl (fun s p => s.debasedFault dn p.1 p.2) s'

def execDeckZeroProgram (deck : Fin 21504) (t : Nat) (s : State) : Result :=
  let s := s.at t
  let d := s.deck deck.val
  .next (if d.dirty && d.bound.isNone && decide (d.holds = []) && arrayServes s deck.val then s.zeroDeck deck.val t else s)

def execOldDeckZeroProgram (deck : Fin 21504) (t : Nat) (s : State) : Result :=
  let s := s.at t
  let d := s.deck deck.val
  .next (if d.leaving && decide (d.holds = []) && arrayServes s deck.val then s.zeroDeck deck.val t else s)

/-! ### Moves (R171, R184, R187) -/

/-- The codes of a row's weights, as they were last programmed. -/
def rowCodes (d : Deck) (row cols : Nat) : List (Nat × Int) :=
  (List.range cols).map fun c => (c, signed 7 (lookup 0 d.targets (targetKey row c)))

/-- The parts of a tensor with one deck exchanged for another. -/
def exchangeDeck (t : Tensor) (old new : Nat) : Tensor :=
  { t with tiles := mapValues (fun _ l => l.map fun p => if p.deck = old then { p with deck := new } else p) t.tiles,
           struckVersion := t.struckVersion + 1 }

/-- A tile moves: programmed into the new deck at its codes, assayed there, and switched at once to the levels that this assay finds
(R165, R174, R187). -/
def State.moveTile (s : State) (dn new : Nat) (h tile : Nat) (p : TilePart) (t : Tensor) : State :=
  let old := s.deck dn
  let q := { p with deck := new }
  let s := s.bindDeck h t tile q
  let n := s.free
  let s := { s with free := n + 1 }
  let skip := (s.deck new).skip
  let s := (List.range p.rows).foldl (fun s k =>
    s.programCodes new (physRow skip k) n t.fmt (rowCodes old (physRow old.skip k) p.cols) true) s
  let s := (s.assayDeck new s.now (tjOf s new)).applyMeasured new
  let s := s.setDeck new { s.deck new with holds := old.holds, working := old.working }
  let s := s.setDeck dn { s.deck dn with bound := none, binding := none, bindingDirty := some s.now, leaving := true, working := false }
  s.setTensor h (exchangeDeck t dn new)

/-- The new deck's rows would all be admitted (R183). -/
def admitsTile (s : State) (d : Deck) (p : TilePart) : Bool :=
  (List.range p.rows).all fun k => capsPermit s (lookup {} d.wear (physRow (debasedRows d) k))

/-- A deck whose tile must leave it: withdrawn, or a row of the tile debased since it was bound (R171, R187). -/
def mustMove (d : Deck) (p : TilePart) : Bool :=
  d.withdrawn || (List.range p.rows).any fun k => (lookup {} d.wear (physRow d.skip k)).debased

def execTileMove (deck newDeck : Fin 21504) (t : Nat) (s : State) : Result :=
  let s := s.at t
  let d := s.deck deck.val
  .next (match d.bound with
    | none => s
    | some (h, tile, p) =>
      match find s.tensors h with
      | none => s
      | some x =>
        if mustMove d p && (bestDecks s p.rows).contains newDeck.val && admitsTile s (s.deck newDeck.val) p then
          s.moveTile deck.val newDeck.val h tile p x
        else s)

/-- Pairs of a mapped and a free deck of one array of an AAB whose mean pulse counts differ by more than 2^20 (R184). -/
def wornPairs (s : State) (aab : Nat) : List (Nat × Nat) :=
  (List.range 128).flatMap fun i => (List.range 8).filterMap fun j =>
    let a := 128 * aab + i
    let b := 128 * aab + i / 8 * 8 + j
    match (s.deck a).bound with
    | none => none
    | some (_, _, p) =>
      if deckFree s b && decide (p.rows ≤ usableRows (s.deck b)) && admitsTile s (s.deck b) p &&
          decide (pulseSum (s.deck b) + 1024 * 2 ^ 20 < pulseSum (s.deck a)) then some (a, b)
      else none

def execWearLevelCheck (aab : Fin 168) (t : Nat) (s : State) : Result :=
  let s := s.at t
  let a := s.aab aab.val
  let due := match a.movedAt with
    | some m => decide (m + hourNs ≤ t)
    | none => true
  let l := wornPairs s aab.val
  .next (match (if due && s.power.powerGood then l[Config.placerChoice s.free % l.length]? else none) with
    | none => s
    | some (dn, new) =>
      match (s.deck dn).bound with
      | none => s
      | some (h, tile, p) =>
        match find s.tensors h with
        | none => s
        | some x => (({ s with free := s.free + 1 } : State).setAab aab.val { a with movedAt := some t }).moveTile dn new h tile p x)

/-- ROW_REFRESH: a mapped row whose last settlement is 330 days old is programmed to its targets, as an exempt pass (R183, R185). -/
def execRowRefresh (deck : Fin 21504) (row : Fin 1024) (t : Nat) (s : State) : Result :=
  let s := s.at t
  let d := s.deck deck.val
  .next (match d.bound with
    | none => s
    | some (h, _, p) =>
      match find s.tensors h with
      | none => s
      | some x =>
        if (partRows d p).contains row.val && refreshDue s d row.val && decide (d.holds = []) && arrayServes s deck.val
            && backgroundRuns s (halfOfRegion (deckRegion deck.val)) then
          let s := s.applyMeasured deck.val
          let n := s.free
          ((({ s with free := n + 1 } : State).setDeck deck.val (s.deck deck.val).beginExempt).programCodes deck.val row.val n x.fmt
            (rowCodes d row.val p.cols) false).newStruck deck.val
        else s)

/-! ### Records in flash (R189, R190) -/

/-- The records of Table 5.6, without what they do not hold. -/
def Wear.kept (w : Wear) : Wear :=
  { pulses := w.pulses, settlements := w.settlements, lastDay := w.lastDay, debased := w.debased, failed := w.failed }

/-- A row's record (Table 5.6). -/
def Wear.word (w : Wear) : Nat :=
  field 0 27 w.pulses + field 27 14 w.settlements + field 41 16 w.lastDay + field 57 1 (ofBool w.debased) + field 58 1 (ofBool w.failed)

/-- The records of every row of every deck, 168 MiB. -/
def wearBytes (t : Table (Table Wear)) : List Byte :=
  (List.range deckCount).flatMap fun dn => (List.range 1024).flatMap fun row => toLE 8 (lookup {} (lookup [] t dn) row).word

/-- The integrity check of a wear image is a CRC-32 over its records (DESIGN CHOICE, log 18). -/
def WearImage.ok (i : WearImage) : Bool := decide (i.check = crc32 (wearBytes i.rows))

def wearImage (s : State) : WearImage :=
  let rows : Table (Table Wear) := s.decks.map fun p => (p.1, mapValues (fun _ w => w.kept) p.2.wear)
  { rows := rows, check := crc32 (wearBytes rows) }

/-- The wear records go to the image that is the older one. -/
def State.writeWear (s : State) (t : Nat) : State :=
  let f := s.flash
  let f := if f.newer1 then { f with wear0 := some (wearImage s), newer1 := false, wearAt := t }
    else { f with wear1 := some (wearImage s), newer1 := true, wearAt := t }
  { s with flash := f, decks := tidy {} (mapValues (fun _ d => { d with exempt := 0, flash := d.flash.map fun b => b.sealed 0 }) s.decks) }

def execWearImageWrite (t : Nat) (s : State) : Result :=
  let s := s.at t
  .next (if s.power.powerGood && decide (s.flash.wearAt + hourNs ≤ t) then
    (s.writeWear t).bump (stewardBlock ((holderHalf s).getD .west)) 5 1 else s)

def execBindingRecordWrite (deck : Fin 21504) (t : Nat) (s : State) : Result :=
  let s := s.at t
  let d := s.deck deck.val
  .next (if s.power.powerGood && d.bindingDirty.isSome then
    s.setDeck deck.val { d with flash := d.binding.map fun b => b.sealed d.exempt, bindingDirty := none } else s)

end Sys2Proof.Machine
end

