-- ==== Sys2Proof/Machine/Settle.lean ====
section
/-! DEFINITION. SETTLE: column scales, settled weights, the caps, the programming of each deck-array, and the refit of the
correction (R117, R174 to R183, R351, R464). -/

namespace Sys2Proof.Machine

open Sys2Proof

/-! ### Column scales (R175) -/

/-- The largest finite |m_ij| of a column of the master. -/
def columnMax (m : Tensor) (j : Nat) : Dy := amaxOf ((List.range m.rows).map fun i => m.val i j)

/-- The column scale a SETTLE computes, when it sets one (R175). -/
def newColumnScale (f : Fmt) (m : Tensor) (j : Nat) : Option F32 :=
  let a := columnMax m j
  if a.isZero then none
  else
    let q := F32.div (F32.ofDy a) (F32.ofDy (Dy.ofInt f.vMax))
    if (F32.val q).isZero then none else some q

/-- The column scales that a SETTLE computes when it begins, by column: of every unscaled column, and with RESCALE of every column (R175). -/
def newScales (t m : Tensor) (rescale : Bool) : Table F32 :=
  (List.range t.cols).filterMap fun j =>
    if rescale || !t.scaledCols.contains j then (newColumnScale t.fmt m j).map fun q => (j, q) else none

/-- The tensor with the new scales of some columns. -/
def Tensor.rescaled (t : Tensor) (new : Table F32) (first n : Nat) : Tensor :=
  ((List.range n).map (first + ·)).foldl (fun t j => match find new j with
    | some q => { t with scales := put F32.one t.scales j q, scaledCols := insertNat t.scaledCols j }
    | none => t) t

/-! ### Targets (R176) -/

/-- The target code of a master value and whether it was clamped. -/
def targetCode (f : Fmt) (m : Dy) (scale : F32) : Int × Bool :=
  let q := Dy.quotNearest m (F32.val scale).toDy
  let v := (f.vMax : Int)
  (max (-v) (min v q), decide (v < q.natAbs))

/-- A weight is settled: |m − s × u| > 0.75 × s. -/
def isSettled (m : Dy) (scale : F32) (u : Dy) : Bool :=
  let sc := (F32.val scale).toDy
  Dy.lt (sc.mul ⟨3, -2⟩) (m.sub (sc.mul u)).abs

/-- The settled weights of row `k` of a part: weight column, code, clamped. A non-finite master value settles nothing (R117). -/
def settledRow (s : State) (t m : Tensor) (p : TilePart) (k : Nat) : List (Nat × Int × Bool) :=
  (List.range p.cols).filterMap fun c =>
    let i := p.firstRow + k
    let j := p.firstCol + c
    let v := m.val i j
    let d := s.deck p.deck
    if v.isFinite && isSettled v.toDy (t.scale j) (deckValue d t.fmt (physRow d.skip k) c) then
      some (c, targetCode t.fmt v.toDy (t.scale j))
    else none

/-- One row submitted to the caps and, where they allow it, programmed (R177, R179, R183). -/
def settleRowStep (t m : Tensor) (p : TilePart) (n : Nat) (s : State) (k : Nat) : State :=
  let d := s.deck p.deck
  let row := physRow d.skip k
  let l := settledRow s t m p k
  if l = [] then s
  else
    let aab := aabBlock (deckAab p.deck)
    let w := (lookup {} d.wear row).earn (commitsOf s (match d.bound with
      | some (h, _) => handleAccount h
      | none => 0))
    let s := s.setDeck p.deck { d with wear := put {} d.wear row w }
    let s := s.bump aab 7 (l.filter fun q => q.2.2).length
    if rowAdmitted s w then s.programCodes p.deck row n t.fmt (l.map fun q => (q.1, q.2.1)) true
    else s.bump aab 8 l.length

/-- One deck-array settled as one step: its rows, then its weight columns' new scales, its record and the struck copy's version (R168, R174,
R179, R190). -/
def State.settlePart (s : State) (h : Nat) (m : Tensor) (new : Table F32) (p : TilePart) : State :=
  let s := s.applyMeasured p.deck
  match find s.tensors h with
  | none => s
  | some t =>
    let t := t.rescaled new p.firstCol p.cols
    let n := s.free
    let s := (List.range p.rows).foldl (settleRowStep t m p n) { s with free := n + 1 }
    let d := s.deck p.deck
    (s.setDeck p.deck { d with binding := d.binding.map fun b => { b with scales := p.scalesOf t }, bindingDirty := some (d.bindingDirty.getD s.now) }).setTensor
      h { t with struckVersion := t.struckVersion + 1 }

/-- Weights of a homeless tile, deferred and counted against the array they would lie in, the first of its region (R351). -/
def State.deferTile (s : State) (t m : Tensor) (tile : Nat) : State :=
  let (r0, rs, c0, cs) := tileShape t tile
  let n := ((List.range rs).map fun k => ((List.range cs).filter fun c =>
    let v := m.val (r0 + k) (c0 + c)
    v.isFinite && isSettled v.toDy (t.scale (c0 + c)) (struckValue s t (r0 + k) (c0 + c))).length).sum
  let aab := match lookup [] t.tiles tile with
    | p :: _ => deckAab p.deck
    | [] => 0
  s.bump (aabBlock aab) 8 n

/-- A homeless tile is given deck-arrays where some are free (R351). -/
def rehome (h : Nat) (q : State × Tensor) (tile : Nat) : State × Tensor :=
  if tileHome q.1 q.2 tile then q
  else
    let r := q.1.placeTile h q.2 tile
    if r.2 = [] then q
    else
      let s := (lookup [] q.2.tiles tile).foldl (fun s p =>
        s.setDeck p.deck { s.deck p.deck with bound := none, binding := none, bindingDirty := some s.now, leaving := true }) r.1
      (s, { q.2 with tiles := ins q.2.tiles tile r.2 })

/-- The next tile that a SETTLE has deck-arrays of to settle: some not yet settled, or some that a homeless tile can take (R179, R351). -/
def nextTile (s : State) (h : Nat) (t : Tensor) (settled : List Nat) : Option Nat :=
  (List.range (weightTiles t)).find? fun tile =>
    if tileHome s t tile then (lookup [] t.tiles tile).any fun p => !settled.contains p.deck
    else decide ((s.placeTile h t tile).2 ≠ [])

/-- The next deck-array of a tile is settled; a homeless tile is given deck-arrays, and all of them are (R179, R351). -/
def settleTile (s : State) (h : Nat) (t m : Tensor) (new : Table F32) (settled : List Nat) (tile : Nat) : State × List Nat :=
  if tileHome s t tile then
    match (lookup [] t.tiles tile).find? fun p => !settled.contains p.deck with
    | some p => (s.settlePart h m new p, insertNat settled p.deck)
    | none => (s, settled)
  else
    let q := rehome h (s, t) tile
    (lookup [] q.2.tiles tile).foldl (fun r p => (r.1.settlePart h m new p, insertNat r.2 p.deck)) (q.1.setTensor h q.2, settled)

/-- The scales of the columns that have no deck-array of their own are set, and homeless tiles deferred (R175, R351). -/
def State.settleRest (s : State) (h : Nat) (t m : Tensor) (new : Table F32) : State :=
  let t := t.rescaled new 0 t.cols
  let l := (List.range (weightTiles t)).filter fun tile => !tileHome s t tile
  let s := l.foldl (fun s tile => s.deferTile t m tile) s
  s.setTensor h (if l = [] then t else { t with struckVersion := t.struckVersion + 1 })

/-! ### The refit (R181) -/

/-- A matrix as its rows. -/
abbrev Matrix := List (List F32)

def transposeM (cols : Nat) (a : Matrix) : Matrix := (List.range cols).map fun j => a.map fun r => r.getD j 0

/-- A DTB product of FP32 vectors, CHUNKED. -/
def dotRows (orvane : Bool) (x y : List F32) : F32 := dotF32 orvane x.length (fun i => x.getD i 0) fun i => y.getD i 0

/-- a × b, from the rows of a and the columns of b. -/
def mulM (orvane : Bool) (a : Matrix) (bCols : Matrix) : Matrix := a.map fun r => bCols.map fun c => dotRows orvane r c

/-- 1 bits of a number. -/
def popcount (v : Nat) : Nat := ((List.range (v.log2 + 1)).filter fun i => bit v i).length

/-- Ω_jk. -/
def omegaAt (j k : Nat) : F32 := if popcount (j &&& (2 * k + 1)) % 2 = 0 then F32.one else F32.neg F32.one

/-- The residual m − s × u, non-finite elements 0. -/
def residualAt (s : State) (t m : Tensor) (i j : Nat) : F32 :=
  let d := F32.sub (F32.ofVal (m.val i j)) (F32.ofVal (weightValue s t i j))
  if (F32.val d).isFinite then d else F32.zero

def normOf (orvane : Bool) (c : List F32) : F32 := F32.sqrt (dotRows orvane c c)

/-- A norm below 2^−60 of the largest; no norm is below a largest of 0, so a norm of 0 counts as below (log 30). -/
def normBelow (n big : F32) : Bool :=
  match F32.val n, F32.val big with
  | .nan, _ => false
  | .inf _, _ => false
  | v, .inf _ => v.isFinite
  | v, b => v.isZero || Dy.lt v.toDy (b.toDy.scale (-60))

/-- The largest of the columns' norms; a NaN takes no part. -/
def largestNorm (l : List F32) : F32 :=
  l.foldl (fun a x => match F32.val a, F32.val x with
    | _, .nan => a
    | .inf _, _ => a
    | _, .inf _ => x
    | u, v => if Dy.lt u.toDy v.toDy then x else a) F32.zero

/-- Modified Gram–Schmidt over columns, in order. -/
def gramSchmidt (orvane : Bool) (big : F32) : List (List F32) → List (List F32) → List (List F32)
  | _, [] => []
  | done, c :: rest =>
    let c := done.foldl (fun c q =>
      let r := dotRows orvane q c
      (c.zip q).map fun p => F32.sub p.1 (F32.mul r p.2)) c
    let n := normOf orvane c
    let v := if normBelow n big then c.map (fun _ => F32.zero) else c.map fun x => F32.div x n
    v :: gramSchmidt orvane big (done ++ [v]) rest

/-- V and U of a refit, as the rows of HANDLE_D. -/
def refitRows (s : State) (orvane : Bool) (t m : Tensor) (r : Nat) : Matrix :=
  let d : Matrix := (List.range t.rows).map fun i => (List.range t.cols).map fun j => residualAt s t m i j
  let dt := transposeM t.cols d
  let omegaCols : Matrix := (List.range r).map fun k => (List.range t.cols).map fun j => omegaAt j k
  let y := mulM orvane d omegaCols
  let again := fun y : Matrix => mulM orvane d (transposeM r (mulM orvane dt (transposeM r y)))
  let cols := transposeM r (again (again y))
  let vCols := gramSchmidt orvane (largestNorm (cols.map (normOf orvane))) [] cols
  let v := (List.range t.rows).map fun i => vCols.map fun c => c.getD i 0
  v ++ mulM orvane dt vCols

/-- Step 4 of R179, and the end of the item (R180, R464). -/
def State.refit (s : State) (id : Nat) (x : Item) (t m : Tensor) : State :=
  match find s.tensors (slipD x.slip) with
  | none => s.finishItem id x
  | some d =>
    let p := paramsOf s x.account
    if p.contextSlots = 0 then s.endItem id stFinal 0
    else
      let rows := refitRows s p.orvane t m d.cols
      let c := convert d.fmt d.rows d.cols 0 p.orvane (fun _ => 0) fun i j => F32.val ((rows.getD i []).getD j 0)
      (s.setTensor (slipD x.slip) (d.replace 0 c)).finishItem id (x.saw c.seen)

/-- Every deck-array of a tensor is free of holds (R152). -/
def decksIdle (s : State) (t : Tensor) : Bool := t.deckList.all fun d => decide ((s.deck d).holds = [])

/-- The item once it has read the master: its new column scales are computed (R117, R179). -/
def settleBegun (t m : Tensor) (x : Item) : Item :=
  if x.work.begun then x
  else
    let y := x.saw (m.vals.filter fun v => !v.isFinite)
    { y with work := { y.work with begun := true, results := newScales t m (bit (slipParam0 x.slip) 0) } }

/-- Steps 4 and 5 of R179. -/
def State.settleEnd (s : State) (id h : Nat) (x : Item) (m : Tensor) : State :=
  match find s.tensors h with
  | none => s.finishItem id x
  | some t =>
    let s := s.settleRest h t m x.work.results
    match find s.tensors h with
    | some t => s.refit id x t m
    | none => s.finishItem id x

/-- SETTLE of a started item: one deck-array for each command, and with the last of them the refit (R179, R467; log 69). -/
def settleEffect (s : State) (id : Nat) (x : Item) : State :=
  let a := slipA x.slip
  match find s.tensors a, find s.tensors (slipB x.slip) with
  | some t, some m =>
    if !decksIdle s t then s
    else if m.poison ≠ 0 then s.endItem id stFinal m.poison
    else
      let x := settleBegun t m x
      match nextTile s a t x.work.units with
      | none => s.settleEnd id a x m
      | some tile =>
        let r := settleTile s a t m x.work.results x.work.units tile
        let x := { x with doneUnits := x.doneUnits + 1, work := { x.work with units := r.2 } }
        match find r.1.tensors a with
        | some t => (match nextTile r.1 a t r.2 with
          | none => r.1.settleEnd id a x m
          | some _ => r.1.setItem id x)
        | none => r.1.finishItem id x
  | _, _ => s.endItem id stFinal 0

def execSettle (item : Nat) (s : State) : Result := s.running item (isOp famSettle 0) (settleEffect s item)

end Sys2Proof.Machine
end

