-- ==== Sys2Proof/Machine/Moves.lean ====
section
/-! DEFINITION. MOVE COPY, LOAD, STORE, DECLARE and RETIRE, and KERNEL LOAD_IMAGE and RUN as whole items (R66 to R68, R101,
R102, R242, R254 to R258, R272, R273, R468). -/

namespace Sys2Proof.Machine

open Sys2Proof

/-! ### Contents of a source, whatever its class (R94) -/

/-- The value of an element: of class weight, the struck value times its column scale. -/
def State.sourceVal (s : State) (t : Tensor) (r c : Nat) : Val := if t.cls = 1 then weightValue s t r c else t.val r c

/-- Values that are not finite, of a source (R119). -/
def nonFinite (t : Tensor) : List Val := if t.cls = 1 then [] else t.vals.filter fun v => !v.isFinite

/-- The item once R113 has been applied to a conversion: ended, or as it goes on; an estimate that the conversion corrected stays so
in either case (R107). -/
def State.afterConversion (s : State) (id : Nat) (y : Item) (go : State) : State :=
  if y.stage = 6 then (s.setItem id { y with stage := 2, status := 0 }).endItem id y.status 0 else go

/-! ### COPY (R273) -/

def copyConverted (s : State) (id : Nat) (x : Item) (a b : Tensor) : State :=
  let sExp := if a.fmt.scaled then a.scaleNow else 0
  let c := convert a.fmt a.rows a.cols sExp (paramsOf s x.account).orvane (Config.undefinedCode s.free) (s.sourceVal b)
  let y := convertOutcome (x.saw (nonFinite b)) c sExp
  let t := a.learn (commitsOf s x.account) c
  let s := ({ s with free := s.free + 1 } : State).setTensor (slipA x.slip) t
  s.afterConversion id y ((s.setTensor (slipA x.slip) (t.replace sExp c)).finishItem id y)

def copyEffect (s : State) (id : Nat) (x : Item) : State :=
  match find s.tensors (slipA x.slip), find s.tensors (slipB x.slip) with
  | some a, some b =>
    if b.poison ≠ 0 then s.endItem id stFinal b.poison
    else if a.fmt = b.fmt ∧ b.cls ≠ 1 then (s.setTensor (slipA x.slip) (a.copyFrom b)).finishItem id (x.saw (nonFinite b))
    else copyConverted s id x a b
  | _, _ => s.endItem id stFinal 0

def execCopy (item : Nat) (s : State) : Result := s.running item (isOp famMove 0) (copyEffect s item)

/-! ### LOAD (R101 to R103, R206, R273) -/

/-- The contents of an image, as a conversion without one. -/
def loadedTensor (m : Memory) (addr : Nat) (a : Tensor) (sExp : Int) : Tensor :=
  let n := a.rows * a.cols
  let t := { a with sExp := sExp, vExp := sExp, began := false, fill := none, poison := 0,
                    codes := tableOf ((List.range n).map fun i => imageCode m addr a.fmt a.cols (i / a.cols) (i % a.cols)),
                    ebytes := tableOf ((List.range (groupCount a.fmt a.rows a.cols)).map (imageEbyte m addr a.fmt a.rows a.cols)) }
  { t with ceil := contentsCeiling t }

/-- The tensor scale of an image: none where its word's complement fails, some none where it is no scale (R98, R102). -/
def imageScale (m : Memory) (addr : Nat) (a : Tensor) : Option (Option Int) :=
  if a.fmt.scaled then
    let w := imageScaleWord m addr a.fmt a.rows a.cols
    if bits w 63 32 ≠ onesComplement 32 (bits w 31 0) then none else some (scaleOfWord (bits w 31 0))
  else some (some 0)

def loadTensorEffect (s : State) (id : Nat) (x : Item) : State :=
  let addr := slipParam0 x.slip
  match find s.tensors (slipA x.slip) with
  | none => s.endItem id stFinal 0
  | some a =>
    match imageScale s.cmem addr a with
    | none => s.mismatch id x
    | some none => s.endItem id stFinal 0
    | some (some k) =>
      let t := loadedTensor s.cmem addr a k
      let t := t.observe (commitsOf s x.account) (amaxOf t.vals)
      (s.setTensor (slipA x.slip) t).finishItem id (x.saw (nonFinite t))

def execMoveLoad (item : Nat) (cw : List CWrite) (s : State) : Result :=
  let s := s.companion cw
  s.working item (isOp famMove 1) (loadTensorEffect s item)

/-! ### STORE (R94, R101, R197, R273) -/

/-- The format of a STORE's image. -/
def storeFmt (w : Nat) (b : Tensor) : Fmt := (Fmt.ofCode (bits (slipParam1 w) 7 0)).getD b.fmt

/-- The tensor scale of a STORE that converts (R197, R273). -/
def storeScale (s : State) (b : Tensor) (f : Fmt) : Int :=
  if f.scaled then ceilingScaleExp f (if b.cls = 1 then weightMax s b else b.ceiling) else 0

def storeConverted (s : State) (id : Nat) (x : Item) (b : Tensor) (f : Fmt) : State :=
  let sExp := storeScale s b f
  if b.cls = 1 ∧ f.scaled = true ∧ Dy.lt ⟨f.maxFmt, 96⟩ (weightMax s b) = true then s.endItem id stFinal 0
  else
    let orvane := if b.cls = 1 then false else (paramsOf s x.account).orvane
    let c := convert f b.rows b.cols sExp orvane (Config.undefinedCode s.free) (s.sourceVal b)
    let y := convertOutcome (x.saw (nonFinite b)) c sExp
    let s := { s with free := s.free + 1 }
    s.afterConversion id y ((s.poke (slipParam0 x.slip)
      (imageOf f b.rows b.cols (fun i => c.codes.getD i 0) (fun g => c.ebytes.getD g 0) sExp)).finishItem id y)

def storeEffect (s : State) (id : Nat) (x : Item) : State :=
  match find s.tensors (slipB x.slip) with
  | none => s.endItem id stFinal 0
  | some b =>
    let f := storeFmt x.slip b
    if b.poison ≠ 0 then s.endItem id stFinal b.poison
    else if f = b.fmt ∧ b.cls ≠ 1 then
      (s.poke (slipParam0 x.slip) (imageOf f b.rows b.cols b.code b.ebyte b.sExp)).finishItem id (x.saw (nonFinite b))
    else storeConverted s id x b f

def execStore (item : Nat) (s : State) : Result := s.running item (isOp famMove 2) (storeEffect s item)

/-! ### DECLARE (R66, R67, R242, R312, R313, R468) -/

/-- The tensor that a DECLARE creates. -/
def newTensor (s : State) (account w : Nat) : Tensor :=
  { rows := declareRows w, cols := declareCols w, fmt := declareFmt w, cls := declareClass w, versionStep := stepNumber s account,
    charge := slipPool w, fallbackCharge := slipFallback w, deckCharge := slipDecks w,
    place := if declareClass w = 1 then { extents := newExtents s (slipFallback w) } else newPlace s account (slipPool w) }

/-- Tallies of a region's unit. -/
def talliesIn (s : State) (r : Nat) : Nat := (s.tallies.filter fun p => decide (p.2.region = r)).length

/-- The unit a tally is placed in: one in service with room, the placer's choice; none where there is none (R312; log 15). -/
def tallyRegion (s : State) : Option Nat :=
  let l := (List.range 4).filter fun r => decide (talliesIn s r < 16384) && !regionFenced s r
  l[Config.placerChoice s.free % l.length]?

/-- The record of a new tally (Table 10.1). -/
def newTally (s : State) (account w r : Nat) : Tally :=
  { capacity := bits (slipParam0 w) 31 0, account := account, number := tallyField (slipA w), region := r,
    lastStamp := islandCount s (tallyBlock r) }

def declareEffect (s : State) (id : Nat) (x : Item) : State :=
  let w := x.slip
  let h := slipA w
  if declared s h then s.endItem id stFinal 0
  else if unmetCharge s ≠ 0 then s.endItem id stRetryable (unmetCharge s)
  else if declaresTally w then
    match tallyRegion s with
    | some r => (({ s with free := s.free + 1 } : State).setTally h (newTally s x.account w r)).finishItem id x
    | none => s.endItem id stRetryable 0
  else
    let t := newTensor s x.account w
    let y := { x with aux0 := t.charge + t.fallbackCharge }
    let s := { s with free := s.free + 2 }
    if t.cls = 1 ∧ t.elements ≠ 0 then
      let q := s.placeWeight h t
      (q.1.setTensor h q.2).finishItem id y
    else (s.setTensor h t).finishItem id y

def execDeclare (item : Nat) (s : State) : Result := s.working item (isOp famMove 3) (declareEffect s item)

/-! ### RETIRE (R68, R360) -/

/-- An earlier slip of the account that names the object has not ended. -/
def namedEarlier (s : State) (id : Nat) (x : Item) (h : Nat) : Bool :=
  s.items.any fun p => decide (p.1 < id) && decide (p.2.account = x.account) && p.2.live && names x.account p.2.slip h

/-- The object leaves, with its storage and its deck-arrays. A wait of a slip consumed after the RETIRE that still stands in a tally's queue
leaves with it and is not satisfied; its item ends at its deadline or by STOP (DESIGN CHOICE: R68 does not speak of it, log 81). -/
def State.removeObject (s : State) (h : Nat) : State :=
  match find s.tensors h with
  | some t =>
    let s := (t.deckList.foldl State.releaseDeck s).releaseExtents (flat t.place.extents)
    { s with tensors := del s.tensors h }
  | none =>
    let s := s.releaseExtents (match find s.images h with
      | some g => flat g.place.extents
      | none => [])
    ({ s with tallies := del s.tallies h, images := del s.images h } : State).forgetImages fun g => decide (g = h)

/-- The tally that a RETIRE is to end (Table 10.1, STATE). -/
def State.retiring (s : State) (h : Nat) : State := { s with tallies := adjust s.tallies h fun t => { t with state := 2 } }

def retireEffect (s : State) (id : Nat) (x : Item) : State :=
  if namedEarlier s id x (slipA x.slip) then s.retiring (slipA x.slip) else (s.removeObject (slipA x.slip)).finishItem id x

def execRetire (item : Nat) (s : State) : Result := s.working item (isOp famMove 4) (retireEffect s item)

/-! ### LOAD_IMAGE (R255, R256) -/

/-- The image object of a header and its bytes. -/
def newImage (s : State) (account hdr : Nat) (bytes : List Byte) : Image :=
  { place := newPlace s account (roundUp bytes.length kib4), bytes := writeBytes [] 0 bytes, length := bytes.length, states := imgStates hdr, inputs := imgInputs hdr, outputs := imgOutputs hdr,
    passes := imgPasses hdr, reductions := imgReductions hdr, vks := bits hdr 15 8, charge := roundUp bytes.length kib4 }

/-- Nothing of R256 stops the load. -/
def imageOk (hdr length : Nat) (bytes : List Byte) : Bool :=
  imgHeaderOk hdr && decide (imgLength hdr = length) && decide (imgCheck hdr = crc32 (bytes.drop 64)) && vksAccepted hdr

def loadImageEffect (s : State) (id : Nat) (x : Item) : State :=
  let addr := slipParam0 x.slip
  let length := slipParam1 x.slip
  let bytes := readBytes s.cmem addr length
  let hdr := ofLE (bytes.take 64)
  if (find s.images (slipD x.slip)).isSome || !imageOk hdr length bytes then s.endItem id stFinal 0
  else if unmetCharge s ≠ 0 then s.endItem id stRetryable (unmetCharge s)
  else (({ s with free := s.free + 2 } : State).setImage (slipD x.slip) (newImage s x.account hdr bytes)).finishItem id x

def execLoadImage (item : Nat) (cw : List CWrite) (s : State) : Result :=
  let s := s.companion cw
  s.working item (isOp famKernel 1) (loadImageEffect s item)

/-! ### RUN (R241, R245 to R258) -/

/-- An update's contents are formed now and land at its completion (R249). -/
def updateEffect (s : State) (id : Nat) (x : Item) (digest : Nat) (g : Image) : State :=
  let q := s.kernelOutputs x (outputDigest digest (runUnits x.slip) g) g
  if q.2.stage = 6 then (s.setItem id { q.2 with stage := 2, status := 0 }).endItem id q.2.status 0
  else s.finishItem id { q.2 with work := { q.2.work with staged := true, wCodes := [digest] } }

/-- A RUN that is no update writes its outputs as it runs. -/
def plainRunEffect (s : State) (id : Nat) (x : Item) (digest : Nat) (g : Image) : State :=
  let q := s.kernelOutputs x (outputDigest digest (runUnits x.slip) g) g
  if q.2.stage = 6 then (q.1.setItem id { q.2 with stage := 2, status := 0 }).endItem id q.2.status 0
  else q.1.finishItem id q.2

def runEffect (s : State) (id : Nat) (x : Item) : State :=
  let w := x.slip
  match find s.images (slipD w) with
  | none => s.endItem id stFinal 0
  | some g =>
    if runWaits s id w g then s
    else
    let inputs := (List.range 3).filterMap fun k => if bit g.inputs k then some (slipHandle w k) else none
    let poison := poisonOf s (slipD w :: inputs)
    if poison ≠ 0 then s.endItem id stFinal poison
    else
      let digest := runDigest s x
      if runOutOfShape digest (runUnits w) then s.endItem id stFinal 0
      else
        let seen := runReads s w digest g ++ (if Config.kernelSeen digest 0 then [Val.nan] else []) ++
          (if Config.kernelSeen digest 1 then [Val.inf false] else [])
        let y := x.saw seen
        if isUpdate s w then updateEffect s id y digest g else plainRunEffect s id y digest g

def execKernelRun (item : Nat) (s : State) : Result := s.running item isRun (runEffect s item)

end Sys2Proof.Machine
end

