-- ==== Sys2Proof/Machine/Steps.lean ====
section
/-! DEFINITION. SIGNAL, WAIT and TAKE slips, waits and their deadlines, signals from any source, moves of tallies, STEP WRITE
and FENCE (R69, R75, R226 to R232, R240, R247, R314 to R332). -/

namespace Sys2Proof.Machine

open Sys2Proof

/-! ### Signals and takes -/

/-- A signal reaches the unit; a refused one ends its item (R317, R268). -/
def State.applySignal (s : State) (h n source item : Nat) : State :=
  let r := s.signalTally h n source item
  match r.2 with
  | some code => r.1.endItem item stFinal code
  | none => r.1

/-- SIGNAL (R320). -/
def signalEffect (s : State) (id : Nat) (x : Item) : State :=
  let r := s.signalTally (slipA x.slip) (slipParam0 x.slip) (issuer s) id
  match r.2 with
  | some code => r.1.endItem id stFinal code
  | none => r.1.finishItem id x

def execSignal (item : Nat) (s : State) : Result := s.working item (isOp famSignal 0) (signalEffect s item)

/-- TAKE (R318, R320). -/
def takeEffect (s : State) (id : Nat) (x : Item) : State :=
  let r := s.takeTally (slipA x.slip) (slipParam0 x.slip) id
  match r.2.1 with
  | some code => r.1.endItem id stFinal code
  | none => r.1.finishItem id { x with aux0 := r.2.2 }

def execTake (item : Nat) (s : State) : Result := s.working item (isOp famTake 0) (takeEffect s item)

/-! ### Waits (R319, R321, R322) -/

/-- A wait is handed to its tally unit (R69, R268, R319, R321). -/
def State.issueWait (s : State) (id : Nat) (x : Item) (h m : Nat) (waitSlip : Bool) : State :=
  match find s.tallies h with
  | none => s.endItem id stFinal 0
  | some t =>
    if !t.sound then (s.tallyFault h 0x2201 id).endItem id stFinal 0x2201
    else if t.capacity < m then s.endItem id stFinal 0
    else
      let y := if waitSlip then { x with waitAt := some s.now } else { x with preWaitAt := some s.now, stage := 1 }
      (s.setItem id y).waitTally h { item := id, m := m, waitSlip := waitSlip }

/-- The PRE_WAIT of an item that has not started may be issued (R321). -/
def preWaitReady (x : Item) : Bool :=
  decide (x.stage ≤ 1) && enableField (slipPreWait x.slip) && x.preWaitAt.isNone && previousEnded x && !previousFailed x

/-- The wait of a started WAIT slip has not been issued. -/
def waitReady (x : Item) : Bool := decide (x.stage = 2) && isOp famWait 0 x.slip && x.waitAt.isNone

def waitIssueEffect (s : State) (id : Nat) (x : Item) : State :=
  if preWaitReady x then
    s.issueWait id x (tallyHandle x.account (tallyField (slipPreWait x.slip))) (amountField (slipPreWait x.slip)) false
  else if waitReady x then s.issueWait id x (slipA x.slip) (slipParam0 x.slip) true
  else s

def execWaitIssue (item : Nat) (s : State) : Result :=
  .next (match find s.items item with
    | some x => waitIssueEffect s item x
    | none => s)

/-- A satisfied WAIT completes. -/
def State.finishWait (s : State) (id : Nat) : State :=
  match find s.items id with
  | some x => if x.waitDone && decide (x.stage = 2) then s.finishItem id x else s
  | none => s

/-- WAIT (R320): issues its wait and completes when it is satisfied. -/
def waitEffect (s : State) (id : Nat) (x : Item) : State := (waitIssueEffect s id x).finishWait id

def execWait (item : Nat) (s : State) : Result := s.working item (isOp famWait 0) (waitEffect s item)

/-- The first wait a steward holds joins its queue, once the store has room (R322). -/
def execHeldWaitEnqueue (region : Fin 4) (s : State) : Result :=
  .next (match heldOf s region.val with
    | [] => s
    | (h, w) :: rest =>
      if queuedWaits s region.val < waitStore then
        let s := { s with heldWaits := put [] s.heldWaits region.val rest }
        match find s.tallies h with
        | none => s
        | some t => s.settleTally h { stamped s t with queue := t.queue ++ [{ w with held := false }] }
      else s)

/-- The account's deadline in ns. -/
def deadlineNs (s : State) (account : Nat) : Nat := (paramsOf s account).deadline * ms

/-- A wait issued at some time is past its deadline. -/
def waitOverdue (s : State) (account : Nat) (at_ : Option Nat) (done : Bool) : Bool :=
  match at_ with
  | some t0 => !done && decide (t0 + deadlineNs s account ≤ s.now)
  | none => false

/-- A recovery at the device level has waited for a charter past the deadline of an item that the fence struck (R390). -/
def strandedOverdue (s : State) (id : Nat) (x : Item) : Bool :=
  !charterHeld s && s.islands.any fun p => p.2.fenced && p.2.struck.contains id && decide (p.2.fencedAt + deadlineNs s x.account ≤ s.now)

/-- WAIT_DEADLINE. -/
def execWaitDeadline (item t : Nat) (s : State) : Result :=
  let s := s.at t
  .next (match find s.items item with
    | none => s
    | some x =>
      if decide (x.stage ≤ 2) && (waitOverdue s x.account x.preWaitAt x.preWaitDone || waitOverdue s x.account x.waitAt x.waitDone ||
          strandedOverdue s item x) then
        s.endItem item stRetryable 0
      else s)

/-! ### Kernels' signals (R327) -/

def thread (s : State) (teller thread : Nat) : Thread := lookup {} (s.teller teller).threads thread

def State.setThread (s : State) (teller n : Nat) (t : Thread) : State :=
  s.setTeller teller { s.teller teller with threads := put {} (s.teller teller).threads n t }

def execVksSignal (teller : Fin 192) (n : Byte) (number : Word16) (amount : Nat) (s : State) : Result :=
  .next (match (thread s teller.val n.toNat).item with
    | none => s
    | some id =>
      match find s.items id with
      | none => s
      | some x =>
        if x.stage = 2 then s.applySignal (tallyHandle x.account number.toNat) amount (tellerBlock teller.val) id else s)

/-- What a thread's unit has written reaches its outputs (R249: an update's stays with the device until it completes). -/
def State.landUnit (s : State) (id unit : Nat) (x : Item) : State :=
  match find s.images (slipD x.slip) with
  | none => s
  | some g =>
    if isUpdate s x.slip || runWaits s id x.slip g then s
    else
      let q := s.unitOutputs x (outputDigest (runDigest s x) (runUnits x.slip) g) unit g
      if q.2.stage = 6 then (q.1.setItem id { q.2 with stage := 2, status := 0 }).endItem id q.2.status 0 else q.1.setItem id q.2

/-- VKS_DRAIN: every earlier write of the thread is acknowledged: its unit's part of the outputs stands in them, so that a signal that the
thread raises after it finds the writes made (R327). -/
def execVksDrain (teller : Fin 192) (n : Byte) (s : State) : Result :=
  let t := thread s teller.val n.toNat
  .next (match t.item with
    | none => s
    | some id =>
      let s := s.setThread teller.val n.toNat { t with drained := t.writes }
      match find s.items id with
      | some x => if decide (t.drained < t.writes) && decide (x.stage = 2) then s.landUnit id t.unit x else s
      | none => s)

/-! ### Moves of tallies (R332) -/

/-- The writes of a mover's transfer are acknowledged: the item whose transfer it is has done its work (R326). -/
def transferDone (s : State) (source item : Nat) : Bool :=
  !(decide (blockKind source = 4) && decide (blockLocation source < 4)) || (match find s.items item with
    | some x => decide (3 ≤ x.stage)
    | none => true)

/-- An operation that reaches a tally's unit; a mover's signal comes only once its transfer's writes are acknowledged (R314, R326). -/
def State.applyOp (s : State) (h : Nat) (op : TallyOp) : State :=
  match op with
  | .signal source n item => if transferDone s source.toNat item then s.applySignal h n source.toNat item else s
  | .take _ m item =>
    match find s.items item with
    | some x =>
      if x.stage = 2 ∧ isOp famTake 0 x.slip = true ∧ slipA x.slip = h ∧ slipParam0 x.slip = m then takeEffect s item x
      else (s.takeTally h m item).1
    | none => (s.takeTally h m item).1
  | .wait _ m item =>
    match find s.items item with
    | some x =>
      if preWaitReady x && decide (preWaitTally x.account x.slip = some h) && decide (amountField (slipPreWait x.slip) = m) then
        s.issueWait item x h m false
      else if waitReady x && decide (slipA x.slip = h) && decide (slipParam0 x.slip = m) then s.issueWait item x h m true
      else s
    | none => s

/-! ### Operations of one cycle (R316) -/

def opIssuer : TallyOp → Nat
  | .signal source _ _ => source.toNat
  | .take source _ _ => source.toNat
  | .wait source _ _ => source.toNat

def opKind : TallyOp → Nat
  | .signal .. => 0
  | .take .. => 1
  | .wait .. => 2

/-- Signals, takes, waits, each by their issuers' identifiers; those of one kind from one issuer stay in order. -/
def opBefore (a b : TallyOp) : Bool :=
  decide (opKind a < opKind b) || (decide (opKind a = opKind b) && decide (opIssuer a ≤ opIssuer b))

/-- Every identifier of an operation names a block or unit (R40). -/
def opValid (op : TallyOp) : Bool := validBlock (opIssuer op)

/-- The tally's queue stands aside, or again before the waits that have joined since. -/
def State.queueAside (s : State) (h : Nat) : State := { s with tallies := adjust s.tallies h fun t => { t with queue := [] } }
def State.queueBack (s : State) (h : Nat) (queue : List Waiter) : State :=
  { s with tallies := adjust s.tallies h fun t => { t with queue := queue.filter (fun w => !itemEnded s w.item) ++ t.queue } }

/-- Waits are satisfied from the head of the tally's queue. -/
def State.settleNow (s : State) (h : Nat) : State := match find s.tallies h with
  | some t => s.settleTally h t
  | none => s

/-- Operations that reach a tally's unit in one cycle: every signal, then every take, then every wait is applied, and the waits of the queue are
satisfied after them all. -/
def State.cycleOps (s : State) (h : Nat) (ops : List TallyOp) : State :=
  let l := sortBy opBefore ops
  let queue := match find s.tallies h with
    | some t => t.queue
    | none => []
  let s := ((l.filter fun op => decide (opKind op < 2)).foldl (fun s op => s.applyOp h op) (s.queueAside h)).queueBack h queue
  ((l.filter fun op => decide (opKind op = 2)).foldl (fun s op => s.applyOp h op) s).settleNow h

/-- TALLY_SIGNAL, with the operations on the tally that reach its unit in the same cycle (R314, R316, R326). -/
def execTallySignal (source : Word16) (account : BitVec 6) (number : Word16) (n : Nat) (signal : SignalItem) (s : State) : Result :=
  guardWf (validBlock source.toNat && signal.together.all opValid)
    (.next (s.cycleOps (tallyHandle account.toNat number.toNat) (.signal source n signal.item :: signal.together)))

/-- A tally's record, queue, history and held waits in another unit; waits beyond that unit's store are held by its steward (R322, R332). -/
def State.relocate (s : State) (h : Nat) (t : Tally) (region : Nat) : State :=
  let room := waitStore - queuedWaits s region
  let excess := (t.queue.drop room).map fun w => (h, { w with held := true })
  let mine := (heldOf s t.region).filter fun p => decide (p.1 = h)
  let s := { s with heldWaits := put [] s.heldWaits t.region ((heldOf s t.region).filter fun p => decide (p.1 ≠ h)) }
  let s := { s with heldWaits := put [] s.heldWaits region (heldOf s region ++ excess ++ mine) }
  s.setTally h { t with region := region, queue := t.queue.take room, state := if t.state = 3 then 1 else t.state }

/-- A move reads COUNT at its source, and records one that fails its check (R268). -/
def State.moveChecked (s : State) (h : Nat) (t : Tally) (region : Nat) : State :=
  if t.sound then s.relocate h t region else (s.tallyFault h 0x2201 0).relocate h { t with lastFault := 0x2201 } region

/-- TALLY_MOVE. -/
def execTallyMove (account : BitVec 6) (number : Word16) (region : Fin 4) (arrived : List TallyOp) (s : State) : Result :=
  let h := tallyHandle account.toNat number.toNat
  guardWf (arrived.all opValid) (.next (match find s.tallies h with
    | none => s
    | some t =>
      if t.region = region.val ∨ 16384 ≤ talliesIn s region.val ∨ regionFenced s region.val = true then s
      else arrived.foldl (fun s op => s.applyOp h op) (s.moveChecked h t region.val)))

/-! ### The step record (R227 to R230, R240) -/

/-- Both copies of a record. -/
def recordCopies (words : List Nat) : Both StepCopy :=
  let c : StepCopy := { words := words, complements := words.map (onesComplement 64) }
  ⟨c, c⟩

/-- A reader of the record: the failed copy is rewritten from the other; with both failed the fault is recorded once (R230, R268). -/
def State.readRecord (s : State) (account : Nat) : State :=
  match s.account? account with
  | none => s
  | some a =>
    match a.record with
    | some words => s.setAccount account { a with step := recordCopies words }
    | none =>
      if a.stepLost then s
      else (s.setAccount account { a with stepLost := true }).complementFault (issuer s) 4 account 0 0

def stepWord (w : Nat) : Nat := bits (slipParam1 w) 2 0

/-- STEP WRITE with WORD 1 to 7 (R228). -/
def stageEffect (s : State) (id : Nat) (x : Item) : State :=
  match s.account? x.account with
  | none => s.endItem id stFinal 0
  | some a => (s.setAccount x.account { a with staged := setAt a.staged (stepWord x.slip - 1) (slipParam0 x.slip) }).finishItem id x

def isStepStage (w : Nat) : Bool := isOp famStep 0 w && decide (stepWord w ≠ 0)
def isStepCommit (w : Nat) : Bool := isOp famStep 0 w && decide (stepWord w = 0)

def execStepWriteStage (item : Nat) (s : State) : Result := s.working item isStepStage (stageEffect s item)

/-- An update item waits for the step number: all else is met, and STEP_NUMBER is not greater than the master's stamp (R247). -/
def stampWaits (s : State) (id : Nat) (x : Item) : Bool :=
  decide (x.stage ≤ 1) && isUpdate s x.slip && previousEnded x && !previousFailed x && !fenced s id x &&
  (!enableField (slipPreWait x.slip) || x.preWaitDone) &&
  (match s.account? x.account, find s.tensors (slipA x.slip) with
   | some a, some m => (match a.record with
     | some words => decide (words.headD 0 ≤ m.stamp)
     | none => false)
   | _, _ => false)

/-- UPDATE_STAMP_DEADLINE: the wait for the step number exceeds the account's deadline (R247). -/
def execUpdateStampDeadline (item t : Nat) (s : State) : Result :=
  let s := s.at t
  .next (match find s.items item with
    | none => s
    | some x =>
      if stampWaits s item x && decide (x.readyAt + deadlineNs s x.account < s.now) then s.endItem item stRetryable 0 else s)

/-- A commit's VALUE is greater than what it must exceed (R229, R230). -/
def commitAccepted (s : State) (account : Nat) (a : Account) (value : Nat) : Bool :=
  match a.record with
  | some words => decide (words.headD 0 < value)
  | none => s.tensors.all fun p => decide (handleAccount p.1 ≠ account) || decide (p.2.stamp < value)

/-- A commit (R228, R240): the record, the staged copy, the pins of lower numbers and the run of vault marks. -/
def Account.commit (a : Account) (value : Nat) : Account :=
  { a with step := recordCopies (value :: a.staged), stepLost := false, history := (value :: a.history).take 17, commits := a.commits + 1,
           runStart := none, marks := 0 }

/-- A commit of a number releases the pins of lower ones (R231). -/
def Tensor.unpin (t : Tensor) (step : Nat) : Tensor :=
  match t.pinned with
  | some n => if n < step then { t with pinned := none } else t
  | none => t

def commitEffect (s : State) (id : Nat) (x : Item) : State :=
  let s := s.readRecord x.account
  match s.account? x.account with
  | none => s.endItem id stFinal 0
  | some a =>
    let v := slipParam0 x.slip
    if commitAccepted s x.account a v then
      let s := s.setAccount x.account (a.commit v)
      ({ s with tensors := mapValues (fun h t => if handleAccount h = x.account then t.unpin v else t) s.tensors } : State).finishItem id x
    else s.endItem id stFinal 0

def execStepWriteCommit (item : Nat) (s : State) : Result := s.working item isStepCommit (commitEffect s item)

/-! ### FENCE (R75) -/

def fenceEffect (s : State) (id : Nat) (x : Item) : State := if fenceMet s id x then s.finishItem id x else s

def execFenceRing (item : Nat) (s : State) : Result := s.working item (isOp famFence 0) (fenceEffect s item)
def execFenceAccount (item : Nat) (s : State) : Result := s.working item (isOp famFence 1) (fenceEffect s item)

end Sys2Proof.Machine
end

