-- ==== Sys2Proof/Machine/Clearing.lean ====
section
/-! DEFINITION. Clearing: groups and live lists, tickets and their offers, transit blocks, ledgers, ring hops, distribution,
and the work of the CLEAR items (R276 to R305). -/

namespace Sys2Proof.Machine

open Sys2Proof

/-! ### Groups (R277 to R281) -/

def Group9.isLive (g : Group9) (m : Nat) : Bool := g.live.contains m

/-- The live members other than the owner, from the one after it, in list order and wrapping. -/
def afterOwner (g : Group9) (o : Nat) : List Nat :=
  (g.members.drop (o + 1) ++ g.members.take o).filter g.isLive

def ownerOf (g : Group9) (o : Nat) : Nat := g.members.getD o 0

def deputyOf (g : Group9) (o : Nat) : Option Nat := (afterOwner g o).head?

/-- The ring of a RING CLEAR (R300). -/
def ringOrder (g : Group9) (o : Nat) : List Nat := afterOwner g o ++ [ownerOf g o]

/-- The member after another in a list. -/
def nextIn : List Nat → Nat → Option Nat
  | a :: b :: rest, m => if a = m then some b else nextIn (b :: rest) m
  | _, _ => none

def previousIn : List Nat → Nat → Option Nat
  | a :: b :: rest, m => if b = m then some a else previousIn (b :: rest) m
  | _, _ => none

/-- The 64 bytes of a group table entry, and a member list's entries (Table 9.1). -/
def groupEntry (s : State) (account group : Nat) : Nat := readLE s.cmem ((paramsOf s account).groupTable + 64 * group) 64
def memberWords (m : Memory) (entry : Nat) : List Nat :=
  (List.range (groupMembers entry)).map fun i => readLE m (groupList entry + 4 * i) 4

/-- The list as an entry has it now. -/
def freshGroup (m : Memory) (entry : Nat) : Group9 :=
  let words := memberWords m entry
  let l := words.map fun w => bits w 19 0
  { serial := groupSerial entry, members := l, live := l, stray := words.any fun w => decide (bits w 31 20 ≠ 0) }

/-- The group as an entry leaves it: the list is read again only under a new SERIAL (R278, R280). -/
def readGroup (m : Memory) (old : Option Group9) (entry : Nat) : Group9 :=
  let fresh := freshGroup m entry
  match old with
  | none => fresh
  | some g => if g.serial = groupSerial entry then g else fresh

def distinct (l : List Nat) : Bool := decide (l.eraseDups.length = l.length)

/-- The entry, or the list as it was last read, breaks a condition of R279. -/
def groupBad (me entry : Nat) (g : Group9) : Bool :=
  decide (groupMembers entry = 0) || decide (2 ^ 20 < groupMembers entry) || decide (groupList entry % 64 ≠ 0) || groupReserved entry ||
  g.stray || !distinct g.members || !g.members.contains me

/-- The role of this module in a CLEAR (Table 9.5). R281 names the deputy's module a contributor or recipient like any other unless
TO_DEPUTY is 1: only then does ROLE read 2 (DEDUCED, log 74). -/
def roleOf (me : Nat) (g : Group9) (w : Nat) : Nat :=
  if ownerOf g (clearOwner w) = me then 0
  else if clearDistribute w && clearToDeputy w && decide (deputyOf g (clearOwner w) = some me) then 2
  else 1

/-- Count conditions of R284 against the live list. -/
def clearCountsOk (me : Nat) (g : Group9) (w : Nat) : Bool :=
  let n := g.live.length
  let c := clearContributors w
  if clearDistribute w then
    if clearToDeputy w then (deputyOf g (clearOwner w)).isSome && (decide (roleOf me g w = 0) || decide (roleOf me g w = 2))
    else decide (c = n)
  else if clearRing w then decide (c = n)
  else decide (c ≤ n)

/-- Handle offences of a CLEAR in its role (Table 9.3). -/
def clearHandleOffences (s : State) (role w : Nat) : List Nat :=
  let a := s.tensor? (slipA w)
  let b := s.tensor? (slipB w)
  if clearDistribute w then
    if role = 0 then
      offence (decide (slipA w ≠ 0)) 8 ++ offence (decide (slipB w = 0) || tensorIs b fun y => decide (y.cls ≠ 3) && decide (y.cls ≠ 4)) 16
    else
      offence (decide (slipA w = 0) || tensorIs a fun x => decide (x.cls ≠ 3) && decide (x.cls ≠ 4)) 8 ++ offence (decide (slipB w ≠ 0)) 16
  else
    offence (decide (slipB w = 0) || tensorIs b fun y => decide (y.cls ≠ 2)) 16 ++
    (if role = 0 then
      offence (decide (slipA w = 0) || tensorIs a fun x => decide (x.cls ≠ 2)) 8 ++
      offence (disagree a b fun x y => decide (x.rows ≠ y.rows) || decide (x.cols ≠ y.cols)) 8
     else offence (decide (slipA w ≠ 0)) 8)

/-- The byte of a broken count condition: TO_DEPUTY for what R284 says of a deputy, else CONTRIBUTORS. -/
def countByte (w : Nat) : Nat := if clearDistribute w && clearToDeputy w then 46 else 48

/-- Every offence that a CLEAR's group decides once it has been read (R279, R284, R463). -/
def clearOffences (s : State) (w entry : Nat) (g : Group9) : List Nat :=
  if groupBad s.hub.moduleId entry g then [47]
  else if groupMembers entry ≤ clearOwner w then [44]
  else
    clearHandleOffences s (roleOf s.hub.moduleId g w) w ++ offence (!clearCountsOk s.hub.moduleId g w) (countByte w)

/-- GROUP_TABLE_READ_DONE (R278, R279, R284). -/
def execGroupTableReadDone (item : Nat) (cw : List CWrite) (s : State) : Result :=
  let s := s.companion cw
  .next (match find s.items item with
    | none => s
    | some x =>
      if decide (x.stage ≤ 1) && isClear x.slip && !x.groupRead then
        match s.account? x.account with
        | none => s
        | some a =>
          let k := clearGroup x.slip
          let entry := groupEntry s x.account k
          let g := readGroup s.cmem (find a.groups k) entry
          let s := s.setAccount x.account { a with groups := ins a.groups k g }
          match lowestByte (offences s x.account x.slip ++ clearOffences s x.slip entry g) with
          | some byte => (s.setItem item { x with rejectOffset := byte, groupRead := true }).endItem item stMalformed 0
          | none => s.setItem item { x with groupRead := true, group := { g with serial := groupSerial entry } }
      else s)

/-! ### Tickets (R285 to R292) -/

def engineTickets : Nat := 4096

/-- Open tickets of an engine, and an account's among them. -/
def openTickets (s : State) (h : Half) : Nat := (s.tickets.filter fun p => decide (p.2.half = h)).length
def accountTickets (s : State) (h : Half) (a : Nat) : Nat :=
  (s.tickets.filter fun p => decide (p.2.half = h) && decide (p.2.account = a)).length

/-- The engine has room for a ticket of the account (R286, Table 11.4). -/
def engineHasRoom (s : State) (a : Nat) (h : Half) : Bool :=
  !halfOut s h && !(s.island (engineBlock h)).fenced && decide (openTickets s h < engineTickets) &&
  decide (accountTickets s h a < (paramsOf s a).tickets)

/-- The engines that can take a ticket; the placer chooses among them (R33; log 15). -/
def enginesFor (s : State) (a : Nat) : List Half := halves.filter (engineHasRoom s a)

/-- Two tickets of one bucket that may not be open together (R287). -/
def sameBucket (account group bucket : Nat) (distribute toDeputy : Bool) (t : Ticket) : Bool :=
  decide (t.account = account) && decide (t.group = group) && decide (ticketBucket t.ticket = bucket) && t.distribute == distribute &&
  t.toDeputy == toDeputy

def bucketOpen (s : State) (account w : Nat) : Bool :=
  s.tickets.any fun p => sameBucket account (clearGroup w) (ticketBucket (clearTicket w)) (clearDistribute w) (clearToDeputy w) p.2

/-- The ticket that a frame belongs to. -/
def ticketOf (s : State) (f : VfHeader) : Option (Nat × Ticket) :=
  s.tickets.find? fun p => sameBucket f.account.toNat f.group.toNat (ticketBucket f.ticket.toNat) f.phase f.toDeputy p.2 &&
    decide (p.2.ticket = f.ticket.toNat)

/-- An item of a ticket makes progress (R290). -/
def State.progress (s : State) (id : Nat) : State := { s with items := adjust s.items id fun x => { x with progressAt := s.now } }

/-- The tensor whose shape a ticket carries: the contribution, or the source or destination. -/
def ticketTensor (s : State) (x : Item) : Option Tensor :=
  if slipB x.slip ≠ 0 then find s.tensors (slipB x.slip) else find s.tensors (slipA x.slip)

/-- The IEEE 754 binary64 of a magnitude ceiling, which is exact (Table 13.7). -/
def binary64 (d : Dy) : Nat :=
  if d.isZero then 0
  else
    let l := d.floorLog2
    ((l + 1023).toNat) * 2 ^ 52 + (d.at (l - 52)).natAbs % 2 ^ 52

def ofBinary64 (v : Nat) : Dy :=
  if v = 0 then Dy.zero else Dy.norm ⟨(2 ^ 52 + v % 2 ^ 52 : Nat), ((v / 2 ^ 52 % 2048 : Nat) : Int) - 1075⟩

/-- The payload of an OFFER (Table 13.7). -/
def offerPayload (t : Ticket) (x : Tensor) (ceiling : Dy) : List Byte :=
  let a := if t.distribute then binary64 ceiling else 0
  toBE 4 t.rows ++ toBE 4 t.cols ++ [BitVec.ofNat 8 (twos 8 t.scaleExp)] ++
  (if t.distribute then [BitVec.ofNat 8 x.cls, BitVec.ofNat 8 x.fmt.code] else [0, 0]) ++ List.replicate 5 0 ++
  toBE 8 a ++ toBE 8 (onesComplement 64 a)

/-- An offer goes out to a peer. -/
def State.sendOffer (s : State) (id peer : Nat) (ceiling : Dy) : State :=
  match find s.tickets id, find s.items id with
  | some t, some x =>
    match ticketTensor s x with
    | none => s
    | some a =>
      let s := s.setTicket id { t with offered := insertNat t.offered peer, busyAt := del t.busyAt peer }
      (s.send t.half peer (bareFrame (ticketHeader s t frameOffer peer (ownPosition s t)) (offerPayload t a ceiling))).progress id
  | _, _ => s

/-- The group of a ticket: the list its item read, and the live members of it (R278, R280). -/
def ticketGroup (_s : State) (t : Ticket) : Group9 := t.list

/-- The receivers a ticket offers to when it opens (R298, R300, R304). -/
def offersTo (s : State) (t : Ticket) : List Nat :=
  let g := ticketGroup s t
  if t.distribute then
    if t.role ≠ 0 then []
    else if t.toDeputy then (deputyOf g t.owner).toList
    else if t.ring then (afterOwner g t.owner).take 1
    else afterOwner g t.owner
  else if t.role = 0 then []
  else if t.ring then (nextIn (ringOrder g t.owner) s.hub.moduleId).toList
  else [ownerOf g t.owner]

/-- The member a RING DISTRIBUTE forwards to; the last one before the owner forwards nothing (R304). -/
def forwardsTo (s : State) (t : Ticket) : Option Nat :=
  if t.distribute && t.ring && !t.toDeputy && decide (t.role ≠ 0) then nextIn (afterOwner (ticketGroup s t) t.owner) s.hub.moduleId else none

/-- A peer has the role of a sender toward this ticket (R288). -/
def sendsTo (s : State) (t : Ticket) (peer : Nat) : Bool :=
  let g := ticketGroup s t
  let me := s.hub.moduleId
  if t.distribute then
    decide (t.role ≠ 0) && (if t.ring && !t.toDeputy then
      (match previousIn (afterOwner g t.owner) me with
       | some m => decide (m = peer)
       | none => decide (ownerOf g t.owner = peer))
      else decide (ownerOf g t.owner = peer))
  else if t.ring then decide (previousIn (ringOrder g t.owner) me = some peer)
  else decide (t.role = 0) && decide (peer ≠ me) && g.isLive peer

/-! ### Offers received (R288, R289) -/

inductive OfferAnswer where
  | grant
  | refuse (code : Nat)
  | hold
  deriving DecidableEq, Repr

def payloadLE (f : VfFrame) (first n : Nat) : Nat := ofBE ((f.payload.drop first).take n)

/-- Every value of an offer agrees with the ticket's own (R287). -/
def offerAgrees (s : State) (t : Ticket) (x : Option Tensor) (f : VfFrame) : Bool :=
  let h := f.header
  h.opcode == t.ring && decide (h.serial.toNat = t.serial) &&
  (match positionOf (ticketGroup s t) h.source.toNat with
   | some p => decide (h.position.toNat = p)
   | none => true) &&
  decide (payloadLE f 0 4 = t.rows) && decide (payloadLE f 4 4 = t.cols) &&
  (if t.distribute then
    (match x with
     | some a => decide (payloadLE f 9 1 = a.cls) && decide (payloadLE f 10 1 = a.fmt.code)
     | none => false)
   else decide (payloadLE f 8 1 = twos 8 t.scaleExp) && h.transit == t.transitF4)

def ceilingSound (f : VfFrame) : Bool := decide (payloadLE f 24 8 = onesComplement 64 (payloadLE f 16 8))

/-- The answer to an offer at this moment (R288). -/
def answerOf (s : State) (f : VfFrame) : OfferAnswer :=
  let h := f.header
  match ticketOf s h with
  | some (id, t) =>
    let x := match find s.items id with
      | some i => ticketTensor s i
      | none => none
    if !ceilingSound f then .refuse 5
    else if !offerAgrees s t x f then .refuse 1
    else if !sendsTo s t h.source.toNat then .refuse 6
    else if t.grantsOut.contains h.source.toNat then .refuse 2
    else if t.contributors - 1 ≤ t.grantsOut.length then .refuse 3
    else .grant
  | none =>
    let g := ticketGeneration h.ticket.toNat
    if s.tickets.any fun p => decide (p.2.account = h.account.toNat) && decide (p.2.group = h.group.toNat) &&
        decide (ticketBucket p.2.ticket = ticketBucket h.ticket.toNat) && p.2.distribute == h.phase &&
        (generationPrecedes g (ticketGeneration p.2.ticket) || generationIncomparable g (ticketGeneration p.2.ticket)) then .refuse 4
    else .hold

/-- A header that answers a frame. -/
def answerHeader (s : State) (f : VfHeader) (type : Nat) : VfHeader :=
  { f with type := BitVec.ofNat 8 type, retransmit := false, last := false, sourcePort := 0,
           source := BitVec.ofNat 20 s.hub.moduleId, dest := f.source, incarnation := 0, sequence := 0, acked := 0,
           position := BitVec.ofNat 20 ((positionOf (groupOf s f.account.toNat f.group.toNat) s.hub.moduleId).getD 0),
           firstBlock := 0, blocks := 0, dust := 0 }

/-- CLEAR_MISMATCH (Table 12.2). -/
def State.clearMismatch (s : State) (h : Half) (ticket account item : Nat) : State :=
  s.recordFault { code := 0x4004, source := engineBlock h, action := 7, detail0 := ticketBucket ticket, detail1 := account, item := item }

/-- The engine's own ticket after it refused (R289). -/
def State.afterRefusal (s : State) (code : Nat) (f : VfHeader) : State :=
  match ticketOf s f with
  | none => s
  | some (id, t) =>
    let h := t.half
    if code = 1 then (s.clearMismatch h f.ticket.toNat f.account.toNat id).endItem id stFinal 0x4004
    else if code = 5 then (s.complementFault (engineBlock h) 3 f.account.toNat id 7).endItem id stFinal 0x2201
    else s

/-- A sender is granted (R288); a RING DISTRIBUTE goes on to offer to its successor (R304). -/
def State.grantSender (s : State) (f : VfFrame) : State :=
  match ticketOf s f.header with
  | none => s
  | some (id, t) =>
    let ceiling := if t.distribute then ofBinary64 (payloadLE f 16 8) else Dy.zero
    let s := s.setTicket id { t with grantsOut := t.grantsOut ++ [f.header.source.toNat], granted := t.granted + 1, state := 1, ceiling := ceiling }
    let s := (s.send t.half f.header.source.toNat (bareFrame (answerHeader s f.header frameGrant) [])).progress id
    match forwardsTo s t with
    | some next => s.sendOffer id next ceiling
    | none => s

/-- The half whose ports carry the answer to an offer: that of the ticket it matches, or of the newer ticket of its bucket, which
hold the bucket's traffic (R33, R306); the half it came by where there is none. -/
def answerHalf (s : State) (h : Half) (f : VfHeader) : Half :=
  match ticketOf s f with
  | some (_, t) => t.half
  | none => match s.tickets.find? fun p => sameBucket f.account.toNat f.group.toNat (ticketBucket f.ticket.toNat) f.phase p.2.toDeputy p.2 with
    | some p => p.2.half
    | none => h

/-- An offer that came by a half answered: the state, and whether it is still held. -/
def State.answerOffer (s : State) (h : Half) (f : VfFrame) : State × Bool :=
  match answerOf s f with
  | .hold => (s, true)
  | .grant => (s.grantSender f, false)
  | .refuse code =>
    let h := answerHalf s h f.header
    let s := (s.send h f.header.source.toNat (bareFrame (answerHeader s f.header frameRefuse) [BitVec.ofNat 8 code])).bump (engineBlock h) 1 1
    (s.afterRefusal code f.header, false)

def offerStore : Nat := 65536

/-- An OFFER is delivered: answered, held, or turned away busy (R288). -/
def State.deliverOffer (s : State) (port : Nat) (f : VfFrame) : State :=
  let h := halfOfPort port
  let r := s.answerOffer h f
  if r.2 then
    if (s.offers.filter fun o => decide (o.half = h)).length < offerStore then
      { s with offers := s.offers ++ [{ frame := f, half := h, port := port, arrived := s.now }] }
    else (s.send h f.header.source.toNat (bareFrame (answerHeader s f.header frameBusy) [])).bump (engineBlock h) 2 1
  else r.1

/-- Held offers are answered once a ticket has opened (R288): one of an older or incomparable generation of its bucket and phase is
refused then, as an offer that arrived now would be, and not kept to its deadline (DEDUCED, log 75). -/
def State.answerHeld (s : State) : State :=
  s.offers.foldl (fun s o =>
    let r := s.answerOffer o.half o.frame
    if r.2 then { s with offers := s.offers ++ [o] } else r.1) { s with offers := [] }

/-! ### Opening (R286, R295) -/

/-- Bytes of the ledger of a starting CLEAR. -/
def itemLedger (s : State) (x : Item) : Nat := match s.tensor? (slipB x.slip) with
  | some b => ledgerBytes b.elements
  | none => 0

/-- The ledger is placed in the account's SRAM quota where that has room beside its other ledgers there (R295): tensors and images give
way, for they may lie in HBM (log 76). -/
def ledgerInSram (s : State) (x : Item) : Bool := match s.account? x.account with
  | some a => decide (ledgerUsed s x.account true + itemLedger s x ≤ a.sramPool)
  | none => false

/-- The ticket record of a starting CLEAR (Table 9.5). -/
def newTicket (s : State) (x : Item) (half : Half) : Ticket :=
  let w := x.slip
  let g := x.group
  let shape := match ticketTensor s x with
    | some t => (t.rows, t.cols)
    | none => (0, 0)
  let role := roleOf s.hub.moduleId g w
  { ticket := clearTicket w, ticketC := onesComplement 32 (clearTicket w), half := half, account := x.account, role := role,
    group := clearGroup w, owner := clearOwner w, ring := clearRing w, distribute := clearDistribute w, toDeputy := clearToDeputy w,
    transitF4 := clearTransitF4 w, scaleExp := clearScaleExp w, contributors := clearContributors w, serial := g.serial, list := g,
    inSram := ledgerInSram s x, extents := if ledgerInSram s x then [] else newExtents s (itemLedger s x),
    rows := shape.1, cols := shape.2, state := if role = 0 && !clearDistribute w then 1 else 0 }

/-- The ticket opens: its offers go out, and offers held for it are answered (R286 to R288). -/
def State.openTicket (s : State) (id : Nat) (x : Item) (half : Half) : State :=
  let t := newTicket s x half
  let ceiling := match ticketTensor s x with
    | some a => a.ceiling
    | none => Dy.zero
  let s := (({ s with free := s.free + 1 } : State).setTicket id t).bump (engineBlock half) 0 1
  let s := s.progress id
  let s := (offersTo s t).foldl (fun s p => s.sendOffer id p ceiling) s
  s.answerHeld

/-! ### Transit blocks (R293, Table 9.6) -/

def blocksPerRow (cols : Nat) : Nat := ceilDiv cols 32
def totalBlocks (rows cols : Nat) : Nat := rows * blocksPerRow cols

/-- A ledger element as its 24 bytes: three 64-bit words, least significant first (R294). -/
def ledgerElementBytes (l : Int) : List Byte := toLE 24 (twos 192 l)

/-- A ticket's ledger in memory: element i at byte 24 i, then the poison bitmap, one bit an element (R294; log 76). -/
def Ticket.ledgerImage (t : Ticket) : List Byte :=
  let n := t.rows * t.cols
  (List.range n).flatMap (fun i => ledgerElementBytes (lookup 0 t.ledger i)) ++
    toLE (ceilDiv n 8) (t.poisoned.foldl (fun m i => m ||| 2 ^ i) 0)

/-- Elements of block `b`, row-major indices. -/
def blockElements (cols b : Nat) : List Nat :=
  let c0 := 32 * (b % blocksPerRow cols)
  (List.range (min 32 (cols - c0))).map fun j => b / blocksPerRow cols * cols + c0 + j

def Ticket.transit (t : Ticket) : Fmt := if t.transitF4 then .f4 else .f8w

/-- Bytes of one block in transit. -/
def Ticket.blockBytes (t : Ticket) : Nat := if t.transitF4 then 17 else if t.ring then 34 else 33

/-- The tensor's own values of a block. -/
def ownValues (x : Tensor) (b : Nat) : List Val := (blockElements x.cols b).map fun i => x.val (i / x.cols) (i % x.cols)

/-- An encoded block: its group, padded to 32 codes, and its cap byte. -/
def blockBytesOf (t : Ticket) (g : Group) (capByte : Nat) : List Byte :=
  let code := fun j => g.codes.getD j 0
  if t.transitF4 then
    (List.range 16).map (fun j => BitVec.ofNat 8 (code (2 * j) + 16 * code (2 * j + 1))) ++ [BitVec.ofNat 8 g.ebyte]
  else
    (List.range 32).map (fun j => BitVec.ofNat 8 (code j)) ++ [BitVec.ofNat 8 g.ebyte] ++ (if t.ring then [BitVec.ofNat 8 capByte] else [])

/-- Block `k` of a payload: its values, and its cap byte. -/
def transitValues (t : Ticket) (payload : List Byte) (k n : Nat) : List Val × Nat :=
  let l := (payload.drop (k * t.blockBytes)).take t.blockBytes
  let at_ := fun j => (l.getD j 0).toNat
  let code := fun j => if t.transitF4 then bits (at_ (j / 2)) (4 * (j % 2) + 3) (4 * (j % 2)) else at_ j
  let e := at_ (if t.transitF4 then 16 else 32)
  ((List.range n).map fun j => t.transit.value (code j) e t.scaleExp, at_ 33)

/-- A contribution's own blocks all have a cap of at most 15 (R293). -/
def encodable (t : Ticket) (x : Tensor) : Bool :=
  (List.range (totalBlocks x.rows x.cols)).all fun b => decide (groupCap t.transit (ownValues x b) t.scaleExp ≤ 15)

/-- A block of the contribution as encoded. -/
def ownGroup (t : Ticket) (x : Tensor) (nan : Nat → Nat) (b : Nat) : Group :=
  convertGroup t.transit (ownValues x b) t.scaleExp fun j => nan (32 * b + j)

def groupValues (t : Ticket) (g : Group) : List Val := g.codes.map fun c => t.transit.value c g.ebyte t.scaleExp

/-! ### Ledgers (R294 to R297) -/

/-- What adding does to a ledger: its elements, poison, dust and the non-finite values met. -/
structure LedgerAcc where
  ledger : Table Int
  poisoned : List Nat
  dust : Nat
  seen : List Val
  deriving DecidableEq, Repr

/-- One transit element added (R296, R297). -/
def addElement (sigma : Int) (a : LedgerAcc) (q : Nat × Val) : LedgerAcc :=
  if q.2.isFinite then
    let n := q.2.toDy.grid (sigma - 128)
    { a with ledger := put 0 a.ledger q.1 (lookup 0 a.ledger q.1 + n),
             dust := a.dust + ofBool (!Dy.eqv ⟨n, sigma - 128⟩ q.2.toDy) }
  else { a with poisoned := insertNat a.poisoned q.1, seen := q.2 :: a.seen }

/-- One block added. -/
def addBlock (t : Ticket) (a : LedgerAcc) (b : Nat) (vals : List Val) : LedgerAcc :=
  ((blockElements t.cols b).zip vals).foldl (addElement t.scaleExp) a

def Ticket.acc (t : Ticket) : LedgerAcc := { ledger := t.ledger, poisoned := t.poisoned, dust := t.dustCount, seen := [] }

/-- The ticket with what was added. -/
def Ticket.added (t : Ticket) (a : LedgerAcc) : Ticket :=
  { t with ledger := a.ledger, poisoned := a.poisoned, dustCount := a.dust, poisonCount := a.poisoned.length,
           firstPoison := a.poisoned.headD 0 }

/-- AUX0 of a poison count and first index (Table 9.7). An index of 2^32 or more keeps its low 32 bits: Table 2.11 has counts saturate
and says nothing of an index (DESIGN CHOICE, log 77). -/
def poisonAux (l : List Nat) : Nat := saturate 32 l.length + 2 ^ 32 * (l.headD 0 % 2 ^ 32)

/-! ### The result (R298, R301) -/

/-- The owner writes the result from its ledger, and its item is done. -/
def State.writeResult (s : State) (id : Nat) (x : Item) (t : Ticket) : State :=
  match find s.tensors (slipA x.slip) with
  | none => s.endItem id stFinal 0
  | some a =>
    let a := a.openVersion
    let n := s.free
    let c := convert a.fmt a.rows a.cols a.sExp (paramsOf s x.account).orvane (Config.undefinedCode n) fun r j =>
      let i := r * a.cols + j
      if t.poisoned.contains i then .nan else Val.ofDy ⟨lookup 0 t.ledger i, t.scaleExp - 128⟩
    let y := convertOutcome x c a.sExp
    let y := ((y.flagIf (decide (t.poisoned ≠ [])) flPoisoned).flagIf (decide (0 < t.dustCount)) flDust).flagIf t.escalated flEscalated
    let y := { y with aux0 := poisonAux t.poisoned, aux1 := saturate 32 t.dustCount }
    let a := a.learn (commitsOf s x.account) c
    let s := ((({ s with free := n + 1 } : State).bump (engineBlock t.half) 3 t.dustCount).bump (engineBlock t.half) 4 t.poisoned.length)
    let s := s.setTensor (slipA x.slip) a
    s.afterConversion id y (((s.setTicket id { t with state := 3 }).setTensor (slipA x.slip) (a.replace a.sExp c)).finishItem id y)

/-! ### Frames of a ticket -/

def framesOf (n : Nat) : Nat := ceilDiv n 256

/-- One DATA frame (Table 13.7). -/
def dataFrame (s : State) (t : Ticket) (peer first blocks dust : Nat) (last : Bool) (payload : List Byte) : VfFrame :=
  let h := ticketHeader s t frameData peer (ownPosition s t)
  bareFrame { h with last := last, firstBlock := BitVec.ofNat 32 first, blocks := BitVec.ofNat 16 blocks, dust := BitVec.ofNat 32 dust } payload

/-- A frame of a ticket toward a peer, sent and not acknowledged, or waiting to be sent. -/
def isTicketData (t : Ticket) (f : VfFrame) : Bool :=
  decide (f.header.type.toNat = frameData) && decide (f.header.ticket.toNat = t.ticket) && decide (f.header.account.toNat = t.account) &&
  decide (f.header.group.toNat = t.group) && f.header.phase == t.distribute && f.header.toDeputy == t.toDeputy

def outstanding (s : State) (t : Ticket) (peer : Nat) : Bool :=
  let c := s.peer t.half peer
  c.unacked.any (fun u => isTicketData t u.frame) || c.queued.any fun q => isTicketData t q.1

/-- Every receiver has acknowledged every frame. -/
def allAcked (s : State) (t : Ticket) : Bool := t.grantsIn.all fun p => !outstanding s t p

/-- A ticket has sent a peer all it has for it: its contribution, its image, or every block of its hop. -/
def sentWhole (t : Ticket) (peer : Nat) : Bool :=
  if t.distribute then (if t.role = 0 then t.lastFrom.contains peer else decide (t.inbox = []) && decide (2 ≤ t.state))
  else if t.ring then decide (totalBlocks t.rows t.cols ≤ t.passed)
  else t.sentAll

/-- FINISHED (Table 9.5): a REDUCE's owner counts contributions fully added; every other ticket counts the receivers that have acknowledged
every frame. The owner of a ring counts them all once the last block has reached it, for they come added up (log 78). -/
def finishedOf (s : State) (t : Ticket) : Nat :=
  if t.role = 0 ∧ t.distribute = false then (if t.ring then (if totalBlocks t.rows t.cols ≤ t.passed then t.contributors else 0) else t.finished)
  else (t.grantsIn.filter fun p => sentWhole t p && !outstanding s t p).length

/-- FINISHED as it now stands. -/
def State.countFinished (s : State) (id : Nat) : State := match find s.tickets id with
  | some t => s.setTicket id { t with finished := finishedOf s t }
  | none => s

/-- The item's work is done and its ticket is ending (Table 9.5's STATE 3). -/
def State.finishTicket (s : State) (id : Nat) (x : Item) : State :=
  ({ s with tickets := adjust s.tickets id fun t => { t with state := 3 } } : State).finishItem id x

/-- The item whose ticket a frame belongs to makes progress (R290). -/
def State.frameProgress (s : State) (f : VfFrame) : State :=
  match ticketOf s f.header with
  | some (id, _) => s.progress id
  | none => s

/-! ### Owner-ledger REDUCE (R298) -/

/-- The whole contribution sent to a granted owner. -/
def State.sendContribution (s : State) (id : Nat) (t : Ticket) (x : Tensor) (peer : Nat) : State :=
  let n := totalBlocks x.rows x.cols
  let nan := Config.undefinedCode s.free
  let s := { s with free := s.free + 1 }
  let s := (List.range (framesOf n)).foldl (fun s k =>
    let count := min 256 (n - 256 * k)
    let payload := (List.range count).flatMap fun i => blockBytesOf t (ownGroup t x nan (256 * k + i)) 0
    s.send t.half peer (dataFrame s t peer (256 * k) count 0 (decide (framesOf n = k + 1)) payload)) s
  (s.setTicket id { t with sentAll := true, state := 1 }).progress id

/-- Elements of the encoded contribution that are poisoned. -/
def contributionPoison (t : Ticket) (x : Tensor) : List Nat :=
  (List.range (totalBlocks x.rows x.cols)).flatMap fun b =>
    (((blockElements x.cols b).zip (groupValues t (ownGroup t x (fun _ => 0) b))).filter fun q => !q.2.isFinite).map Prod.fst

/-- NaN elements that the encoded contribution carries (R119, R293). -/
def transitNans (t : Ticket) (x : Tensor) : List Val :=
  (List.range (totalBlocks x.rows x.cols)).flatMap fun b => (groupValues t (ownGroup t x (fun _ => 0) b)).filter Val.isNan

/-- A contributor's part. -/
def contributeEffect (s : State) (id : Nat) (x : Item) (t : Ticket) (b : Tensor) : State :=
  match t.grantsIn with
  | [] => s
  | owner :: _ =>
    if !t.sentAll then
      (s.setItem id { (x.saw (nonFinite b)).saw (transitNans t b) with aux0 := poisonAux (contributionPoison t b) }).sendContribution id t b owner
    else if allAcked s t then s.finishTicket id x
    else s

/-- The owner's own contribution, encoded and added. -/
def State.addOwn (s : State) (id : Nat) (x : Item) (t : Ticket) (b : Tensor) : State :=
  let nan := Config.undefinedCode s.free
  let a := (List.range (totalBlocks b.rows b.cols)).foldl (fun a k => addBlock t a k (groupValues t (ownGroup t b nan k))) t.acc
  let state := if t.contributors ≤ t.finished + 1 then 2 else t.state
  (({ s with free := s.free + 1 } : State).setTicket id { t.added a with ownAdded := true, finished := t.finished + 1, state := state }).setItem id
    ((x.saw (nonFinite b)).saw a.seen)

def ownerEffect (s : State) (id : Nat) (x : Item) (t : Ticket) (b : Tensor) : State :=
  let s := if t.ownAdded then s else s.addOwn id x t b
  match find s.tickets id, find s.items id with
  | some t, some x => if t.contributors ≤ t.finished then s.writeResult id x t else s
  | _, _ => s

/-- The checks that every contribution meets, then its role's part. -/
def withContribution (s : State) (id : Nat) (x : Item) (f : Ticket → Tensor → State) : State :=
  match find s.tickets id, find s.tensors (slipB x.slip) with
  | some t, some b =>
    if b.poison ≠ 0 then s.endItem id stFinal b.poison
    else if !encodable t b then s.endItem id stRetryable 0
    else f t b
  | _, _ => s

def ownerReduceEffect (s : State) (id : Nat) (x : Item) : State :=
  withContribution s id x fun t b => if t.role = 0 then ownerEffect s id x t b else contributeEffect s id x t b

def isReduce (op w : Nat) : Bool := isOp famClear op w && !clearDistribute w

def execClearOwnerReduce (item : Nat) (s : State) : Result := s.running item (isReduce 0) (ownerReduceEffect s item)

/-! ### RING REDUCE (R300 to R302) -/

/-- One block at a hop: the working ledger of own and incoming values. -/
def hopBlock (t : Ticket) (own : Group) (b : Nat) (incoming : List Val) : LedgerAcc :=
  let a : LedgerAcc := { ledger := [], poisoned := [], dust := 0, seen := [] }
  addBlock t (addBlock t a b (groupValues t own)) b incoming

/-- The sum of a hop's block as values; a poisoned element is NaN. -/
def hopValues (t : Ticket) (a : LedgerAcc) (b : Nat) : List Val :=
  (blockElements t.cols b).map fun i => if a.poisoned.contains i then .nan else Val.ofDy ⟨lookup 0 a.ledger i, t.scaleExp - 128⟩

/-- The block that a non-owner hop sends: its bytes, and whether it raised the cap (R301). -/
def hopBytes (t : Ticket) (vals : List Val) (capByte : Nat) : List Byte × Bool :=
  let start := bits capByte 5 0
  let need := groupCap .f8w vals t.scaleExp
  let raised := decide (start < need)
  let g := convertGroup .f8w vals t.scaleExp fun _ => 0
  (blockBytesOf t g (max start need + 128 * ofBool (raised || bit capByte 7)), raised)

/-- The running state of one frame at a hop. -/
structure HopAcc where
  bytes : List Byte
  ticket : Ticket
  dust : Nat
  seen : List Val
  deriving DecidableEq, Repr

/-- One frame at a hop: `f` is the incoming frame's payload, or none at ring index 0; blocks from `first`, `count` of them. -/
def hopFrame (t : Ticket) (x : Tensor) (payload : Option (List Byte)) (first count : Nat) : HopAcc :=
  (List.range count).foldl (fun h k =>
    let b := first + k
    let inc := match payload with
      | some p => transitValues t p k (blockElements t.cols b).length
      | none => ([], 0)
    let a := hopBlock t (ownGroup t x (fun _ => 0) b) b inc.1
    let poisoned := a.poisoned.foldl insertNat h.ticket.poisoned
    if t.role = 0 then
      { h with ticket := { h.ticket with ledger := a.ledger.foldl (fun m q => put 0 m q.1 q.2) h.ticket.ledger, poisoned := poisoned,
                                         escalated := h.ticket.escalated || bit inc.2 7 },
               dust := h.dust + a.dust, seen := a.seen ++ h.seen }
    else
      let vals := hopValues t a b
      let o := hopBytes t vals inc.2
      { bytes := h.bytes ++ o.1, ticket := { h.ticket with poisoned := poisoned, escalated := h.ticket.escalated || o.2 },
        dust := h.dust + a.dust, seen := vals.filter Val.isNan ++ a.seen ++ h.seen })
    { bytes := [], ticket := t, dust := 0, seen := [] }

/-- A frame worked at this hop and, by a hop that is not the owner, sent on. -/
def State.hop (s : State) (id : Nat) (x : Tensor) (payload : Option (List Byte)) (first count dust : Nat) (last : Bool) : State :=
  match find s.tickets id with
  | none => s
  | some t =>
    let h := hopFrame t x payload first count
    let total := dust + h.dust
    let t' := { h.ticket with dustCount := t.dustCount + total, poisonCount := h.ticket.poisoned.length, firstPoison := h.ticket.poisoned.headD 0,
                              passed := t.passed + count,
                              state := if t.role = 0 ∧ totalBlocks t.rows t.cols ≤ t.passed + count then 2 else t.state }
    let s := { s with items := adjust s.items id fun i => i.saw h.seen }
    let s := s.setTicket id t'
    if t.role = 0 then s.countFinished id
    else
      match t.grantsIn with
      | [] => s
      | next :: _ => (s.send t.half next (dataFrame s t next first count total last h.bytes)).progress id

/-- Ring index 0 sends its own blocks in frames of its choice: 256 blocks each. -/
def State.startRing (s : State) (id : Nat) (x : Tensor) : State :=
  let n := totalBlocks x.rows x.cols
  (List.range (framesOf n)).foldl (fun s k =>
    s.hop id x none (256 * k) (min 256 (n - 256 * k)) 0 (decide (framesOf n = k + 1))) s

/-- The frames that wait at a hop, in order. -/
def State.drainInbox (s : State) (id : Nat) (x : Tensor) (t : Ticket) : State :=
  t.inbox.foldl (fun s f => s.hop id x (some f.payload) f.header.firstBlock.toNat f.header.blocks.toNat f.header.dust.toNat f.header.last)
    (s.setTicket id { t with inbox := [] })

/-- A hop's receipt fields (R296, R302, Table 9.7). -/
def hopReceipt (x : Item) (t : Ticket) : Item :=
  { (x.flagIf t.escalated flEscalated).flagIf (decide (0 < t.dustCount)) flDust with
      aux0 := poisonAux t.poisoned, aux1 := saturate 32 t.dustCount }

/-- Whether this module holds ring index 0. -/
def firstHop (s : State) (t : Ticket) : Bool := decide ((ringOrder (ticketGroup s t) t.owner).head? = some s.hub.moduleId)

/-- A hop once its blocks have passed: the owner writes the result, another completes when all is acknowledged (R301). -/
def State.ringOutcome (s : State) (id : Nat) : State :=
  match find s.tickets id, find s.items id with
  | some t, some x =>
    if t.passed < totalBlocks t.rows t.cols then s
    else if t.role = 0 then s.writeResult id x t
    else if allAcked s t then s.finishTicket id (hopReceipt x t)
    else s
  | _, _ => s

def ringReduceEffect (s : State) (id : Nat) (x : Item) : State :=
  withContribution s id x fun t b =>
    if decide (t.role ≠ 0) && decide (t.grantsIn = []) then s
    else
      let s := s.setItem id (x.saw (nonFinite b))
      let s := if firstHop s t then (if t.sentAll then s else (s.setTicket id { t with sentAll := true }).startRing id b)
        else s.drainInbox id b t
      s.ringOutcome id

def execClearRingReduce (item : Nat) (s : State) : Result := s.running item (isReduce 1) (ringReduceEffect s item)

/-! ### DISTRIBUTE (R304) -/

/-- Bytes 32 × first onward of an image, padded. -/
def imageUnits (bytes : List Byte) (first count : Nat) : List Byte :=
  let l := (bytes.drop (32 * first)).take (32 * count)
  l ++ List.replicate (32 * count - l.length) 0

/-- The source image sent whole to one receiver. -/
def State.sendImage (s : State) (id : Nat) (t : Ticket) (bytes : List Byte) (peer : Nat) : State :=
  let n := ceilDiv bytes.length 32
  ((List.range (framesOf n)).foldl (fun s k =>
    let count := min 256 (n - 256 * k)
    s.send t.half peer (dataFrame s t peer (256 * k) count 0 (decide (framesOf n = k + 1)) (imageUnits bytes (256 * k) count))) s).progress id

/-- Receivers that have granted and to which nothing has been sent yet. -/
def unsentReceivers (t : Ticket) : List Nat := t.grantsIn.filter fun p => !t.lastFrom.contains p

/-- The owner's part: the image goes to each receiver as it grants. -/
def distributeOwner (s : State) (id : Nat) (x : Item) (t : Ticket) (b : Tensor) : State :=
  let image := imageOf b.fmt b.rows b.cols b.code b.ebyte b.sExp
  let s := s.setItem id (x.saw (nonFinite b))
  let s := (unsentReceivers t).foldl (fun s p => s.sendImage id t image p) s
  let t' := { t with lastFrom := t.grantsIn, state := 1 }
  let s := s.setTicket id t'
  let receivers := offersTo s t
  match find s.items id with
  | some x => if receivers.all (fun p => t'.grantsIn.contains p) && allAcked s t' then s.finishTicket id x else s
  | none => s

/-- Frames received are sent on to the successor, unchanged. -/
def State.forwardImage (s : State) (id : Nat) (t : Ticket) (next : Nat) : State :=
  let s := s.setTicket id { t with inbox := [] }
  t.inbox.foldl (fun s f =>
    (s.send t.half next (dataFrame s t next f.header.firstBlock.toNat f.header.blocks.toNat 0 f.header.last f.payload)).progress id) s

/-- The tensor as distributed, written as a new version (R103, R106, R304). -/
def State.writeDistributed (s : State) (id : Nat) (x : Item) (t : Ticket) (a : Tensor) : State :=
  match imageScale t.bytes 0 a with
  | none => (s.complementFault (engineBlock t.half) 3 x.account id 7).endItem id stFinal 0x2201
  | some none => s.endItem id stFinal 0
  | some (some k) =>
    let a := { loadedTensor t.bytes 0 a k with ceil := t.ceiling }
    let a := a.observe (commitsOf s x.account) (amaxOf a.vals)
    (s.setTensor (slipA x.slip) a).finishTicket id (x.saw (nonFinite a))

/-- A recipient's part. -/
def distributeRecipient (s : State) (id : Nat) (x : Item) (t : Ticket) (a : Tensor) : State :=
  let next := forwardsTo s t
  let s := match next, t.grantsIn with
    | some n, _ :: _ => s.forwardImage id t n
    | _, _ => s
  match find s.tickets id with
  | none => s
  | some t =>
    let whole := decide (ceilDiv (imageBytes a.fmt a.rows a.cols) 32 ≤ t.passed)
    let passed := match next with
      | some n => t.grantsIn.contains n && decide (t.inbox = []) && allAcked s t
      | none => true
    if whole && passed then s.writeDistributed id x t a else s

def distributeEffect (s : State) (id : Nat) (x : Item) : State :=
  match find s.tickets id with
  | none => s
  | some t =>
    if t.role = 0 then
      match find s.tensors (slipB x.slip) with
      | some b => if b.poison ≠ 0 then s.endItem id stFinal b.poison else distributeOwner s id x t b
      | none => s
    else
      match find s.tensors (slipA x.slip) with
      | some a => distributeRecipient s id x t a
      | none => s

def execClearDistribute (item : Nat) (s : State) : Result := s.running item isDistribute (distributeEffect s item)

/-- From when the deadline of a CLEAR counts: its last progress, or, before its ticket opens, the moment its AFTER_PREVIOUS and PRE_WAIT
conditions were met, whether or not a start was tried since (R290; log 29). -/
def clearBase (s : State) (id : Nat) (x : Item) : Option Nat :=
  if (find s.tickets id).isSome then some x.progressAt
  else if previousEnded x && (!enableField (slipPreWait x.slip) || x.preWaitDone) then some x.readyAt
  else none

/-- CLEAR_DEADLINE (R290; log 29). -/
def execClearDeadline (item t : Nat) (s : State) : Result :=
  let s := s.at t
  .next (match find s.items item with
    | none => s
    | some x =>
      if decide (x.stage ≤ 2) && isClear x.slip && waitOverdue s x.account (clearBase s item x) false then s.endItem item stRetryable 0 else s)

end Sys2Proof.Machine
end

