-- ==== Sys2Proof/Machine/Transport.lean ====
section
/-! DEFINITION. The fabric's receive side and its timers: frames accepted in sequence order and delivered, acknowledgements,
retransmission, plane state, lost peers, peer contexts (R287 to R291, R306 to R311, R405 to R409). -/

namespace Sys2Proof.Machine

open Sys2Proof

/-! ### Acceptance (R405, R407, R409) -/

/-- The frame reaches this module's VF logic through a port that is up; others are discarded and counted. -/
def frameTaken (s : State) (f : VfFrame) : Bool :=
  decide (f.header.version = 1) && decide (f.etherType.toNat = s.hub.etherType) && decide (f.header.dest.toNat = s.hub.moduleId) &&
  (match f.tag with
   | none => true
   | some v => decide (v.toNat = s.hub.vlanId))

def portServes (s : State) (port : Nat) : Bool :=
  s.power.powerGood && !halfOut s (halfOfPort port) && (s.port port).up && !(s.island (vfPortBlock port)).fenced

def State.discard (s : State) (port : Nat) : State := s.bump (vfPortBlock port) 3 1

/-- The receive context for a frame: the open one of its incarnation, a new one, or none, where the frame is discarded (R307). -/
def contextFor (s : State) (h : Half) (f : VfHeader) : Option PeerContext :=
  let c := s.peer h f.source.toNat
  let inc := f.incarnation.toNat
  if c.recvOpen then
    if c.recvIncarnation = inc then some c
    else if c.waiting = [] ∧ ((recentOf s.now c.closedRecv).any fun p => decide (p.1 = inc)) = false then
      some { c with recvIncarnation := inc, expected := 0,
                    closedRecv := recentOf s.now c.closedRecv ++ [(c.recvIncarnation, s.now)] }
    else none
  else if contextStore ≤ openContexts s h then none
  else some { c with recvOpen := true, recvIncarnation := inc, expected := 0, waiting := [] }

/-! ### Delivery (R288 to R291, R297, R301, R304, R310) -/

/-- A GRANT: this module's offer is granted and its data may flow (R298). GRANTED counts the senders this ticket granted and the receivers
that granted it: a ring's middle hop counts both its neighbours (DEDUCED from Table 9.5, log 78). -/
def State.deliverGrant (s : State) (f : VfFrame) : State :=
  let p := f.header.source.toNat
  match ticketOf s f.header with
  | none => s
  | some (id, t) =>
    if t.offered.contains p then
      (s.setTicket id { t with offered := t.offered.filter (fun q => decide (q ≠ p)), grantsIn := t.grantsIn ++ [p],
                               granted := if t.role = 0 || !t.distribute then t.granted + 1 else t.granted,
                               state := 1 }).progress id
    else s

/-- A REFUSE ends the sender's item (R289). -/
def State.deliverRefuse (s : State) (f : VfFrame) : State :=
  match ticketOf s f.header with
  | none => s
  | some (id, t) =>
    if t.offered.contains f.header.source.toNat then
      if payloadLE f 0 1 = 5 then s.endItem id stFinal 0x2201
      else (s.clearMismatch t.half t.ticket t.account id).endItem id stFinal 0x4004
    else s

/-- A BUSY: the offer is made again after 100 µs (R288). -/
def State.deliverBusy (s : State) (f : VfFrame) : State :=
  match ticketOf s f.header with
  | none => s
  | some (id, t) =>
    if t.offered.contains f.header.source.toNat then
      (s.setTicket id { t with busyAt := ins t.busyAt f.header.source.toNat s.now }).progress id
    else s

/-- An ABORT ends the matching ticket of a peer that exchanged a grant with it (R291). -/
def State.deliverAbort (s : State) (f : VfFrame) : State :=
  match ticketOf s f.header with
  | none => s
  | some (id, t) =>
    if (t.grantsIn ++ t.grantsOut).contains f.header.source.toNat then s.endItem id stRetryable (payloadLE f 0 2) else s

/-- Transit blocks added at an owner in owner-ledger mode (R296 to R298). -/
def State.addFrame (s : State) (id : Nat) (t : Ticket) (f : VfFrame) : State :=
  let first := f.header.firstBlock.toNat
  let a := (List.range f.header.blocks.toNat).foldl (fun a k =>
    addBlock t a (first + k) (transitValues t f.payload k (blockElements t.cols (first + k)).length).1) t.acc
  let p := f.header.source.toNat
  let n := lookup 0 t.blocksFrom p + f.header.blocks.toNat
  let whole := decide (totalBlocks t.rows t.cols ≤ n) && !t.lastFrom.contains p
  let t' := { t.added a with blocksFrom := ins t.blocksFrom p n, lastFrom := if whole then t.lastFrom ++ [p] else t.lastFrom,
                             finished := t.finished + ofBool whole, state := if t.contributors ≤ t.finished + ofBool whole then 2 else t.state }
  let s := s.setTicket id t'
  { s with items := adjust s.items id fun x => x.saw a.seen }

/-- Units of 32 bytes of the image that a recipient's destination takes (Table 13.7). -/
def imageUnitsOf (s : State) (id : Nat) : Nat :=
  match find s.items id with
  | some x => (match find s.tensors (slipA x.slip) with
    | some a => ceilDiv (imageBytes a.fmt a.rows a.cols) 32
    | none => 0)
  | none => 0

/-- A DATA frame of a granted sender (R298, R301, R304). -/
def State.deliverData (s : State) (f : VfFrame) : State :=
  match ticketOf s f.header with
  | none => s
  | some (id, t) =>
    if !t.grantsOut.contains f.header.source.toNat then s
    else
      let s := s.progress id
      if t.distribute then
        let n := t.passed + f.header.blocks.toNat
        s.setTicket id { t with bytes := writeBytes t.bytes (32 * f.header.firstBlock.toNat) f.payload,
                                passed := n, state := if decide (imageUnitsOf s id ≤ n) then 2 else t.state,
                                inbox := if (forwardsTo s t).isSome then t.inbox ++ [f] else t.inbox }
      else if t.ring then
        s.setTicket id { t with inbox := t.inbox ++ [f] }
      else s.addFrame id t f

/-! ### Lost peers (R310, R311) -/

/-- A ticket still expects something of a peer (R311). -/
def expectsOf (s : State) (t : Ticket) (peer : Nat) : Bool :=
  t.offered.contains peer || outstanding s t peer ||
  (sendsTo s t peer && !t.lastFrom.contains peer &&
    (t.grantsOut.contains peer || decide (t.grantsOut.length < t.contributors - 1)) &&
    (!t.distribute || decide (t.state < 2))) ||
  (t.ring && decide ((ringOrder (ticketGroup s t) t.owner).contains peer = true))

/-- The tickets of one group that end with a lost peer, in item order. -/
def lostTickets (s : State) (account group peer : Nat) : List Nat :=
  (s.tickets.filter fun p => decide (p.2.account = account) && decide (p.2.group = group) && expectsOf s p.2 peer).map Prod.fst

def Group9.without (g : Group9) (peer : Nat) : Group9 := { g with live := g.live.filter fun m => decide (m ≠ peer) }

/-- A lost peer leaves the live lists that CLEARs of the group were read with (R278, R280, R311). -/
def State.forgetMember (s : State) (account group peer : Nat) : State :=
  { s with items := mapValues (fun _ x => if x.account = account ∧ isClear x.slip = true ∧ clearGroup x.slip = group then
             { x with group := x.group.without peer } else x) s.items
           tickets := mapValues (fun _ t => if t.account = account ∧ t.group = group then { t with list := t.list.without peer } else t) s.tickets }

/-- A peer leaves the live list of one group, and its tickets end (R280, R311). -/
def State.loseInGroup (s : State) (account group peer : Nat) : State :=
  match s.account? account with
  | none => s
  | some a =>
    match find a.groups group with
    | none => s
    | some g =>
      if g.live.contains peer then
        let l := lostTickets s account group peer
        let s := (s.setAccount account { a with groups := ins a.groups group (g.without peer) }).forgetMember account group peer
        l.foldl (fun s id => s.endItem id stRetryable 0x4003) s
      else s

/-- A LOST_NOTICE: the peer is lost in the groups named (R310). -/
def State.deliverLost (s : State) (f : VfFrame) : State :=
  let peer := payloadLE f 0 4
  let map := payloadLE f 4 32
  ((List.range 256).filter (bit map)).foldl (fun s g => s.loseInGroup f.header.account.toNat g peer) s

/-- A frame delivered to its engine, by its type (Table 13.7). -/
def State.deliver (s : State) (port : Nat) (f : VfFrame) : State :=
  match f.header.type.toNat with
  | 1 => s.deliverData f
  | 3 => s.deliverOffer port f
  | 4 => s.deliverGrant f
  | 5 => s.deliverRefuse f
  | 6 => s.deliverBusy f
  | 7 => s.deliverAbort f
  | 8 => s.deliverLost f
  | _ => s

/-- Frames that wait are delivered in sequence order. -/
def deliverLoop (h : Half) (peer port : Nat) : Nat → State → State
  | 0, s => s
  | n + 1, s =>
    let c := s.peer h peer
    match find c.waiting c.expected with
    | none => s
    | some f =>
      let s := s.setPeer h peer { c with waiting := del c.waiting c.expected, expected := c.expected + 1 }
      deliverLoop h peer port n (s.deliver port f)

/-- A sequenced frame arrives: acknowledged, kept in order, delivered (R307, R409). -/
def State.receive (s : State) (port : Nat) (f : VfFrame) : State :=
  let h := halfOfPort port
  let peer := f.header.source.toNat
  let seq := f.header.sequence.toNat
  match contextFor s h f.header with
  | none => s.discard port
  | some c =>
    let s := s.setPeer h peer { c with recvActive := s.now }
    if c.expected + frameWindow < seq then s.discard port
    else
      let s := (s.sendAck port f).frameProgress f
      if decide (seq < c.expected) || (find c.waiting seq).isSome then s
      else
        let s := s.setPeer h peer { c with recvActive := s.now, waiting := ins c.waiting seq f }
        deliverLoop h peer port (c.waiting.length + 1) s

/-- A frame at a port, at a time. -/
def State.atPort (s : State) (port t : Nat) (f : VfFrame) (act : State → State) : State :=
  let s := s.at t
  if !portServes s port then s
  else
    let s := (s.bump (vfPortBlock port) 1 1).bump (vfPortBlock port) 7 (frameBytes f.tag.isSome f)
    if frameTaken s f then act s else s.discard port

/-- The frame is of the row's type, and its payload has the size Table 13.7 gives. -/
def frameFits (type size : Nat) (f : VfFrame) : Bool := decide (f.header.type.toNat = type) && decide (f.payload.length = size)

/-- The payload of a DATA frame: whole transit blocks, or units of 32 bytes (Table 13.7). -/
def dataSize (f : VfFrame) : Nat :=
  f.header.blocks.toNat * (if f.header.phase then 32 else if f.header.transit then 17 else if f.header.opcode then 34 else 33)

def execOffer (port : BitVec 5) (frame : VfFrame) (t : Nat) (s : State) : Result :=
  guardWf (frameFits frameOffer 32 frame) (.next (s.atPort port.toNat t frame fun s => s.receive port.toNat frame))

def execGrant (port : BitVec 5) (frame : VfFrame) (t : Nat) (s : State) : Result :=
  guardWf (frameFits frameGrant 0 frame) (.next (s.atPort port.toNat t frame fun s => s.receive port.toNat frame))

def execRefuse (port : BitVec 5) (frame : VfFrame) (t : Nat) (s : State) : Result :=
  guardWf (frameFits frameRefuse 1 frame) (.next (s.atPort port.toNat t frame fun s => s.receive port.toNat frame))

def execBusy (port : BitVec 5) (frame : VfFrame) (t : Nat) (s : State) : Result :=
  guardWf (frameFits frameBusy 0 frame) (.next (s.atPort port.toNat t frame fun s => s.receive port.toNat frame))

/-- A well-formed DATA frame carries 1 to 256 blocks. -/
def dataFits (f : VfFrame) : Bool :=
  frameFits frameData (dataSize f) f && decide (1 ≤ f.header.blocks.toNat) && decide (f.header.blocks.toNat ≤ 256)

def execData (port : BitVec 5) (frame : VfFrame) (t : Nat) (s : State) : Result :=
  guardWf (dataFits frame) (.next (s.atPort port.toNat t frame fun s => s.receive port.toNat frame))

def execAbort (port : BitVec 5) (frame : VfFrame) (t : Nat) (s : State) : Result :=
  guardWf (frameFits frameAbort 2 frame) (.next (s.atPort port.toNat t frame fun s => s.receive port.toNat frame))

def execLostNotice (port : BitVec 5) (frame : VfFrame) (t : Nat) (s : State) : Result :=
  guardWf (frameFits frameLost 36 frame) (.next (s.atPort port.toNat t frame fun s => s.receive port.toNat frame))

/-- A PROBE is answered at once, outside the sequence (R307, R408). -/
def execProbe (port : BitVec 5) (frame : VfFrame) (t : Nat) (s : State) : Result :=
  guardWf (frameFits frameProbe 0 frame) (.next (s.atPort port.toNat t frame fun s => s.sendAck port.toNat frame))

/-- PAUSE and priority flow control are discarded and counted (R405). -/
def execPauseFrame (port : BitVec 5) (s : State) : Result :=
  .next (if portServes s port.toNat then (s.bump (vfPortBlock port.toNat) 1 1).discard port.toNat else s)

/-! ### Acknowledgements and planes (R307) -/

def planeOf (port : Nat) : Nat := port % 8

/-- A plane comes back up for a peer, which is then no longer lost. -/
def State.planeUp (s : State) (h : Half) (peer plane : Nat) : State :=
  let c := s.peer h peer
  let s := s.setPeer h peer { c with downSince := del c.downSince plane, misses := del c.misses plane, probedAt := del c.probedAt plane }
  { s with lostPeers := s.lostPeers.filter fun p => decide (p ≠ peer) }

/-- An acknowledged frame counts toward its ticket's FINISHED, and is progress (R290, R292). -/
def State.frameAcked (s : State) (f : VfFrame) : State :=
  match ticketOf s f.header with
  | some (id, _) => (s.progress id).countFinished id
  | none => s

/-- An ACK releases its frame; an ACK of a PROBE brings its plane up (R307). Both may carry ACKED 0 and one incarnation, and an answer comes
back on the plane its frame went out on: an ACK of 0 on a plane with a probe out is taken as the probe's (DESIGN CHOICE, log 73). -/
def ackEffect (port : Nat) (f : VfFrame) (s : State) : State :=
  let h := halfOfPort port
  let peer := f.header.source.toNat
  let c := s.peer h peer
  let own := if c.sendOpen then c.sendIncarnation else 0
  if f.header.incarnation.toNat ≠ own then s
  else
    if f.header.acked.toNat = 0 ∧ (find c.probedAt (planeOf port)).isSome then (s.planeUp h peer (planeOf port)).flush h peer
    else
      match c.unacked.find? fun u => decide (u.sequence = f.header.acked.toNat) with
      | some u =>
        let c := { c with unacked := c.unacked.filter (fun v => decide (v.sequence ≠ u.sequence)), sendActive := s.now,
                          misses := if (find c.downSince u.plane).isNone then del c.misses u.plane else c.misses }
        ((s.setPeer h peer c).frameAcked u.frame).flush h peer
      | none => s

def execAck (port : BitVec 5) (frame : VfFrame) (t : Nat) (s : State) : Result :=
  guardWf (frameFits frameAck 0 frame) (.next (s.atPort port.toNat t frame (ackEffect port.toNat frame)))

/-- A transmission on a plane went unacknowledged: the second in a row takes the plane down (R307). -/
def State.missPlane (s : State) (h : Half) (peer plane : Nat) : State :=
  let c := s.peer h peer
  let n := lookup 0 c.misses plane + 1
  let down := decide (2 ≤ n) && (find c.downSince plane).isNone
  let s := s.setPeer h peer { c with misses := ins c.misses plane n, downSince := if down then ins c.downSince plane s.now else c.downSince }
  if down then s.bump (vfPortBlock (portBase h + plane)) 4 1 else s

/-- The plane of a retransmission: another one that is up, where there is one (R307). -/
def retryPlane (c : PeerContext) (old : Nat) : Option Nat :=
  let up := planesUp c
  match up.filter fun p => decide (p ≠ old) with
  | p :: _ => some p
  | [] => up.head?

/-- RETRANSMIT_TIMEOUT (R307). -/
def retransmit (h : Half) (peer seq : Nat) (s : State) : State :=
  match (s.peer h peer).unacked.find? fun u => decide (u.sequence = seq) && decide (u.sentAt + 8000 ≤ s.now) with
  | none => s
  | some u =>
    let s := s.missPlane h peer u.plane
    let c := s.peer h peer
    match retryPlane c u.plane with
    | none => s.setPeer h peer { c with unacked := c.unacked.map fun v => if v.sequence = seq then { v with sentAt := s.now } else v }
    | some plane =>
      let port := portOf s h plane seq
      let f := { u.frame with header := { u.frame.header with retransmit := true } }
      let c := { c with unacked := c.unacked.map fun v =>
        if v.sequence = seq then { v with sentAt := s.now, plane := plane, port := port, misses := v.misses + 1 } else v }
      (((s.setPeer h peer c).bump (vfPortBlock port) 2 1).transmit port f).frameProgress f

def execRetransmitTimeout (half : Half) (peer : BitVec 20) (sequence : Word64) (t : Nat) (s : State) : Result :=
  let s := s.at t
  .next (if s.power.powerGood && !halfOut s half then retransmit half peer.toNat sequence.toNat s else s)

def allDown (s : State) (h : Half) (peer : Nat) : Bool := halfOut s h || decide (planesUp (s.peer h peer) = [])

/-- A plane is due for a probe: it is down, or the other half has lost every plane (R307, R310). -/
def probeDue (s : State) (h : Half) (peer plane : Nat) : Bool :=
  let c := s.peer h peer
  ((find c.downSince plane).isSome || allDown s h.other peer) &&
  (match find c.probedAt plane with
   | some t0 => decide (t0 + 100 * ms ≤ s.now)
   | none => true)

/-- The PROBE itself (Table 13.6). -/
def probeFrame (s : State) (h : Half) (peer : Nat) : VfFrame :=
  let c := s.peer h peer
  bareFrame { type := BitVec.ofNat 8 frameProbe, sourcePort := 0, source := BitVec.ofNat 20 s.hub.moduleId, account := 0,
              dest := BitVec.ofNat 20 peer, incarnation := BitVec.ofNat 32 (if c.sendOpen then c.sendIncarnation else 0), sequence := 0 } []

/-- PLANE_PROBE: an earlier probe that is still unanswered counts as a transmission that was missed. -/
def planeProbe (h : Half) (peer plane : Nat) (s : State) : State :=
  if probeDue s h peer plane then
    let s := if (find (s.peer h peer).probedAt plane).isSome then s.missPlane h peer plane else s
    let c := s.peer h peer
    (s.setPeer h peer { c with probedAt := ins c.probedAt plane s.now }).transmit (portOf s h plane 0) (probeFrame s h peer)
  else s

def execPlaneProbe (half : Half) (peer : BitVec 20) (plane : BitVec 3) (t : Nat) (s : State) : Result :=
  let s := s.at t
  .next (if s.power.powerGood && !halfOut s half then planeProbe half peer.toNat plane.toNat s else s)

/-! ### Offers again, and held offers (R288) -/

def execOfferRetry (item : Nat) (peer : BitVec 20) (t : Nat) (s : State) : Result :=
  let s := s.at t
  .next (match find s.tickets item with
    | none => s
    | some k =>
      match find k.busyAt peer.toNat with
      | some t0 => if t0 + 100000 ≤ s.now then s.sendOffer item peer.toNat (match find s.items item with
          | some x => if k.role ≠ 0 ∧ k.distribute = true then k.ceiling else (match ticketTensor s x with
            | some a => a.ceiling
            | none => Dy.zero)
          | none => Dy.zero) else s
      | none => s)

/-- The time after which a held offer is dropped: its account's deadline, or 30,000 ms (R288). -/
def offerDeadline (s : State) (o : HeldOffer) : Nat :=
  match s.account? o.frame.header.account.toNat with
  | some a => a.params.deadline * ms
  | none => 30000 * ms

def execHeldOfferExpiry (half : Half) (t : Nat) (s : State) : Result :=
  let s := s.at t
  .next { s with offers := s.offers.filter fun o => decide (o.half ≠ half) || decide (s.now < o.arrived + offerDeadline s o) }

/-! ### PEER_LOST (R310, R465) -/

/-- Every plane of a half has been down for a second, or the half is fenced. -/
def downForSecond (s : State) (h : Half) (peer : Nat) : Bool :=
  halfOut s h || (List.range 8).all fun p => match find (s.peer h peer).downSince p with
    | some t0 => decide (t0 + 1000 * ms ≤ s.now)
    | none => false

/-- The accounts and groups that list a peer live, by account with the map of groups. -/
def groupsWith (s : State) (peer : Nat) : List (Nat × List Nat) :=
  s.accounts.filterMap fun p =>
    let l := (p.2.groups.filter fun q => q.2.live.contains peer).map Prod.fst
    if l = [] then none else some (p.1, l)

/-- Lost notices of one half to the live members of an account's groups. -/
def State.notify (s : State) (h : Half) (account peer : Nat) (groups : List Nat) : State :=
  let map := groups.foldl (fun n g => n ||| 2 ^ g) 0
  let members := ((groups.flatMap fun g => (groupOf s account g).live).filter fun m => decide (m ≠ s.hub.moduleId) && decide (m ≠ peer)).eraseDups
  members.foldl (fun s m => s.send h m (bareFrame
    { type := BitVec.ofNat 8 frameLost, sourcePort := 0, source := BitVec.ofNat 20 s.hub.moduleId, account := BitVec.ofNat 6 account,
      dest := BitVec.ofNat 20 m, incarnation := 0, sequence := 0 } (toBE 4 peer ++ toBE 32 map))) s

/-- Whether any ticket ends with the peer. -/
def anyTicketEnds (s : State) (peer : Nat) (l : List (Nat × List Nat)) : Bool :=
  l.any fun p => p.2.any fun g => decide (lostTickets s p.1 g peer ≠ [])

def losePeer (peer : Nat) (s : State) : State :=
  let l := groupsWith s peer
  let s := s.recordFault { code := 0x4003, source := engineBlock (reporter s), action := if anyTicketEnds s peer l then 7 else 0, detail0 := peer }
  let s := { s with lostPeers := s.lostPeers ++ [peer] }
  let s := l.foldl (fun s p => p.2.foldl (fun s g => s.loseInGroup p.1 g peer) s) s
  l.foldl (fun s p => (halves.filter fun h => !halfOut s h).foldl (fun s h => s.notify h p.1 peer p.2) s) s

def execPeerLost (peer : BitVec 20) (t : Nat) (s : State) : Result :=
  let s := s.at t
  let p := peer.toNat
  .next (if s.power.powerGood && downForSecond s .west p && downForSecond s .east p && !s.lostPeers.contains p &&
      !(halfOut s .west && halfOut s .east) then losePeer p s else s)

/-! ### Closing contexts (R307) -/

/-- A direction's context may close: idle for 10 s, or to make room (R307). -/
def mayClose (now active : Nat) (makeRoom : Bool) : Bool := makeRoom || decide (active + 10000 * ms ≤ now)

/-- The send context closes, once every frame of it is acknowledged. -/
def PeerContext.closeSend (c : PeerContext) (now : Nat) (makeRoom : Bool) : PeerContext :=
  if c.sendOpen && decide (c.unacked = []) && decide (c.queued = []) && mayClose now c.sendActive makeRoom then
    { c with sendOpen := false, nextSequence := 0, usedSend := recentOf now c.usedSend ++ [(c.sendIncarnation, now)] }
  else c

/-- The receive context closes, once no frame of it waits for an earlier one. -/
def PeerContext.closeRecv (c : PeerContext) (now : Nat) (makeRoom : Bool) : PeerContext :=
  if c.recvOpen && decide (c.waiting = []) && mayClose now c.recvActive makeRoom then
    { c with recvOpen := false, expected := 0, closedRecv := recentOf now c.closedRecv ++ [(c.recvIncarnation, now)] }
  else c

/-- PEER_CONTEXT_CLOSE: each direction's context for itself. -/
def closeContext (h : Half) (peer : Nat) (makeRoom : Bool) (s : State) : State :=
  s.setPeer h peer (((s.peer h peer).closeSend s.now makeRoom).closeRecv s.now makeRoom)

def execPeerContextClose (half : Half) (peer : BitVec 20) (makeRoom : Bool) (t : Nat) (s : State) : Result :=
  let s := s.at t
  .next (closeContext half peer.toNat makeRoom s)

end Sys2Proof.Machine
end

