-- ==== Sys2Proof/Machine/Start.lean ====
section
/-! DEFINITION. The start of an item: the conditions it waits for, the checks made at its start, and what its start does to
its operands (R68, R69, R71, R73, R75, R106, R152, R230 to R232, R235, R247, R248, R286, R287, R295, R311, R321, R464). -/

namespace Sys2Proof.Machine

open Sys2Proof

/-! ### What every item waits for (R75, R278, R321) -/

/-- Items start: the device runs and has not stopped (R384, R432). -/
def itemsStart (s : State) : Bool := s.power.powerGood && decide (s.power.stage = 7) && !s.stopped

/-- AFTER_PREVIOUS, fences, PRE_WAIT and a CLEAR's group read are behind the item. -/
def startConditions (s : State) (id : Nat) (x : Item) : Bool :=
  previousEnded x && !fenced s id x && (!enableField (slipPreWait x.slip) || x.preWaitDone) && (!isClear x.slip || x.groupRead)

/-- An item is ready to start: its checks aside, all that R75, R278 and R321 have it wait for has come. -/
def itemReady (s : State) (id : Nat) (x : Item) : Bool := decide (x.stage ≤ 1) && !previousFailed x && startConditions s id x

/-- The rings of an account that have ready items. -/
def readyRings (s : State) (account : Nat) : List Nat :=
  ((s.items.filter fun p => decide (p.2.account = account) && itemReady s p.1 p.2).map fun p => p.2.ring).eraseDups

/-- The ring that an account is to be served from next. -/
def ringPointer (s : State) (account : Nat) : Nat := match s.account? account with
  | some a => a.robin
  | none => 0

/-- A ring's place in the round of its account's rings. -/
def ringPlace (s : State) (account ring : Nat) : Nat := (ring + 256 - ringPointer s account) % 256

/-- No other ready ring of the account comes before the item's in the round-robin by ring number (R75). -/
def ringTurn (s : State) (x : Item) : Bool :=
  (readyRings s x.account).all fun r => decide (ringPlace s x.account x.ring ≤ ringPlace s x.account r)

/-- The ring has been served: the round goes on after it. -/
def State.serveRing (s : State) (x : Item) : State :=
  match s.account? x.account with
  | some a => s.setAccount x.account { a with robin := (x.ring + 1) % 256 }
  | none => s

/-! ### Checks at the start -/

/-- What a start finds wrong. -/
inductive StartCheck where
  | ok
  | failed (status fault : Nat)
  | malformed (byte : Nat)
  deriving DecidableEq, Repr

/-- A CLEAR against the live list of the moment (R284, R311). -/
def clearStart (s : State) (x : Item) : StartCheck :=
  let w := x.slip
  let g := x.group
  if !g.isLive (ownerOf g (clearOwner w)) || !clearCountsOk s.hub.moduleId g w then .failed stFinal 0x4003
  else
    match lowestByte (clearHandleOffences s (roleOf s.hub.moduleId g w) w) with
    | some byte => .malformed byte
    | none => .ok

/-- The ledger of an owner-ledger REDUCE fits the pool beside what it holds, and the SRAM quota or the HBM quota whole (R295). -/
def ledgerFits (s : State) (x : Item) : Bool :=
  let w := x.slip
  if isReduce 0 w && decide (roleOf s.hub.moduleId x.group w = 0) then
    match s.account? x.account with
    | some a => decide (poolUsed s x.account + itemLedger s x ≤ a.pool) &&
        (ledgerInSram s x || decide (ledgerUsed s x.account false + itemLedger s x ≤ a.hbmPool))
    | none => false
  else true

/-- Declared objects, then the checks that had to wait for them (R67 to R69, R71, R464). -/
def startCheck (s : State) (id : Nat) (x : Item) : StartCheck :=
  let w := x.slip
  if !objectsDeclared s x || retireAhead s id x then .failed stFinal 0
  else
    match lowestByte (objectOffences s w) with
    | some byte => .malformed byte
    | none =>
      if alwaysDigital s w && decide ((paramsOf s x.account).contextSlots = 0) then .failed stQuota 0
      else if isClear w then clearStart s x
      else .ok

/-! ### Versions of the outputs (R106) -/

/-- The scale of a version that a COPY's conversion writes, chosen when the COPY starts (R99, R106, R273). -/
def copyScale (s : State) (x : Item) : Option Int :=
  match find s.tensors (slipA x.slip) with
  | some a => if copyConverts s x.slip then some (a.newScale (commitsOf s x.account) (paramsOf s x.account).headroomLog2) else none
  | none => none

/-- Tensors that an item writes into, or begins a version of by R106's first two cases. -/
def writesInto (s : State) (x : Item) : List Nat :=
  let w := x.slip
  if isGemm w then [slipA w]
  else if isRun w then outputHandles s w
  else if isClear w && !clearDistribute w && decide (slipA w ≠ 0) then [slipA w]
  else []

/-- An item that would begin a new version waits for the writers of the current one. -/
def versionWaits (s : State) (id : Nat) (x : Item) : Bool :=
  (replaces x).any (otherWriter s id) ||
  (writesInto s x).any fun h => (match find s.tensors h with
    | some t => t.beginsVersion (stepNumber s x.account)
    | none => false) && otherWriter s id h

/-- The versions that the start of the item begins; a RECALL begins one only when it copies an entry (R239). -/
def State.beginVersions (s : State) (id : Nat) (x : Item) : State :=
  let step := stepNumber s x.account
  let commits := commitsOf s x.account
  let headroom := (paramsOf s x.account).headroomLog2
  let scale := copyScale s x
  let s := (if isOp famRecall 0 x.slip then [] else replaces x).foldl (fun s h =>
    { s with tensors := adjust s.tensors h fun t => t.newVersion step id scale }) s
  (writesInto s x).foldl (fun s h =>
    { s with tensors := adjust s.tensors h fun t =>
        if isGemm x.slip && t.beginsVersion step then (t.begin step commits headroom id).rewritten else t.begin step commits headroom id }) s

/-! ### Weights (R152, R197, R231, R232) -/

/-- A SETTLE of the tensor waits for a pin that has been released; it starts first (R232). -/
def settleWaiting (s : State) (h : Nat) : Bool :=
  !pinnedNow s h && s.items.any fun p => decide (p.2.stage ≤ 1) && isOp famSettle 0 p.2.slip && decide (slipA p.2.slip = h) && p.2.stampSince.isSome

/-- Decks that an analogue forward evaluates and holds. -/
def heldDecks (s : State) (t : Tensor) : List Nat := ((evaluatedParts s t).map TilePart.deck).eraseDups

/-- An analogue forward may take its holds (R152). -/
def holdsFree (s : State) (t : Tensor) : Bool := (heldDecks s t).all fun d => !stepWaits s d

/-- The item holds the decks (R152), each with a working copy while its account has slots for them (R173, R344). -/
def State.takeHolds (s : State) (id : Nat) (decks : List Nat) : State :=
  decks.foldl (fun s d => (s.takeSlot d).setDeck d { (s.takeSlot d).deck d with holds := insertNat (s.deck d).holds id }) s

/-- A forward pins its weight tensor under the step number in force; a pin under a higher number stays (R231). -/
def State.pin (s : State) (x : Item) : State :=
  { s with tensors := adjust s.tensors (slipC x.slip) fun t => { t with pinned := some (max (t.pinned.getD 0) (stepNumber s x.account)) } }

/-! ### Starting, by kind -/

/-- Work in progress units: GEMMs, RUNs and SETTLEs have a progress map (R375). -/
def hasUnits (w : Nat) : Bool := usesBlocks w || isOp famSettle 0 w

/-- The item runs from now. -/
def State.run (s : State) (id : Nat) (x : Item) : State :=
  s.setItem id { x with stage := 2, progressAt := s.now, progress := if hasUnits x.slip then x.place 0 else 0 }

/-- The format in which a DTB item reads its weight operand. -/
def fallbackFormat (s : State) (w : Nat) : Fmt := match find s.tensors (slipB w) with
  | some b => weightFormat w b
  | none => .bf16

/-- A GEMM starts. -/
def startGemm (s : State) (id : Nat) (x : Item) : State :=
  let w := x.slip
  let go := fun (x : Item) => ((s.beginVersions id x).run id x)
  match find s.tensors (slipC w) with
  | none => go x
  | some c =>
    if isAnalogue s w then
      if settleWaiting s (slipC w) || !holdsFree s c then s
      else
        let y := if anyHomeless s c then (withOperand s x).getD x else x
        ((go y).pin y).takeHolds id (heldDecks s c)
    else if decide (slipOpcode w = 1) && settleWaiting s (slipC w) then s
    else
      match withOperand s x with
      | none => s.endItem id stFinal 0
      | some y =>
        let s' := (go y).holdFallback (slipC w) (fallbackFormat s w)
        if slipOpcode w = 1 then s'.pin y else s'

/-- An update item starts (R230, R247 to R249). -/
def startUpdate (s : State) (id : Nat) (x : Item) : State :=
  let s := s.readRecord x.account
  match s.account? x.account, find s.tensors (slipA x.slip) with
  | some a, some m =>
    match a.record with
    | none => s.endItem id stRetryable 0
    | some words =>
      if words.headD 0 ≤ m.stamp || otherWriter s id (slipA x.slip) then
        s
      else (s.beginVersions id x).run id { x with snapshot := words }
  | _, _ => s.endItem id stFinal 0

/-- A SETTLE starts, or waits for the pin and for the SETTLEs before it (R179, R232). -/
def startSettle (s : State) (id : Nat) (x : Item) : State :=
  let h := slipA x.slip
  let earlier := s.items.any fun p => decide (p.1 < id) && decide (p.2.stage ≤ 1) && isOp famSettle 0 p.2.slip &&
    decide (slipA p.2.slip = h) && p.2.stampSince.isSome
  if pinnedNow s h || settleRuns s h || earlier then s.setItem id { x with stampSince := some (x.stampSince.getD s.now) }
  else s.run id { x with stampSince := none }

/-- A CLEAR starts: its ticket opens in the engine of the placer's choice, once one has room (R33, R286, R287). -/
def startClear (s : State) (id : Nat) (x : Item) : State :=
  let l := enginesFor s x.account
  if !ledgerFits s x then s.endItem id stQuota 0
  else if isReduce 0 x.slip && decide (unmetCharge s ≠ 0) then s.endItem id stRetryable (unmetCharge s)
  else if bucketOpen s x.account x.slip then s
  else
    match l[Config.placerChoice s.free % l.length]? with
    | none => s
    | some half =>
      let s := (s.beginVersions id x).run id x
      match find s.items id with
      | some y => s.openTicket id y half
      | none => s

/-- A STASH starts; its vault decision is made now when consumption made none (R235, R236). -/
def startStash (s : State) (id : Nat) (x : Item) : State :=
  match find s.tensors (slipA x.slip) with
  | none => s.endItem id stFinal 0
  | some t =>
    if x.decision ≠ .none then s.run id x
    else
      let q := s.decideStash x (imageBytes t.fmt t.rows t.cols)
      if q.2.stage = 6 then (q.1.setItem id { q.2 with stage := 1, status := 0 }).endItem id stQuota 0
      else q.1.run id q.2

/-- The start of an item whose conditions are met and whose checks have passed. -/
def startItem (s : State) (id : Nat) (x : Item) : State :=
  let w := x.slip
  if zeroSize s w then s.finishItem id x
  else if versionWaits s id x then s
  else if isGemm w then startGemm s id x
  else if isRun w && isUpdate s w then startUpdate s id x
  else if isOp famSettle 0 w then startSettle s id x
  else if isClear w then startClear s id x
  else if isOp famStash 0 w then startStash s id x
  else (s.beginVersions id x).run id x

/-- ITEM_START. -/
def startEffect (s : State) (id : Nat) (x : Item) : State :=
  if decide (2 ≤ x.stage) || !itemsStart s then s
  else if previousFailed x then s.endItem id stCancelled 0
  else if !startConditions s id x || !ringTurn s x then s
  else
    let s := s.serveRing x
    match startCheck s id x with
    | .failed status fault => s.endItem id status fault
    | .malformed byte => (s.setItem id { x with rejectOffset := byte }).endItem id stMalformed 0
    | .ok => startItem s id x

def execItemStart (item : Nat) (s : State) : Result :=
  .next (match find s.items item with
    | some x => startEffect s item x
    | none => s)

end Sys2Proof.Machine
end

