-- ==== Sys2Proof/Machine/Tellers.lean ====
section
/-! DEFINITION. Tellers: threads, work units, states and configuration images (R250 to R259). What a state computes is
VKS's, which this manual does not define: free values (log 19). -/

namespace Sys2Proof.Machine

open Sys2Proof

/-- Cycles from a state's issue to the write-back of its results (Table 8.1). -/
def fabricPipeline : Nat := 12
/-- Loading an image, and switching between resident images, in teller cycles (R257). -/
def imageLoadCycles : Nat := 2049
def imageSwitchCycles : Nat := 64
/-- The longest a unit may run, in teller cycles (R259). -/
def unitLimit : Nat := 2 ^ 21

/-- Every thread is between work units (R259). -/
def Teller.between (f : Teller) : Bool := f.threads.all fun p => p.2.item.isNone

/-- A unit of the item runs on some teller. -/
def unitRuns (s : State) (id unit : Nat) : Bool :=
  s.tellers.any fun p => p.2.threads.any fun q => decide (q.2.item = some id) && decide (q.2.unit = unit)

/-- Some thread runs a unit of the item. -/
def runsUnits (s : State) (id : Nat) : Bool := s.tellers.any fun f => f.2.threads.any fun q => decide (q.2.item = some id)

/-- The teller may start units of the account: its other threads hold units of the same account or none (R259). -/
def Teller.open (f : Teller) (account : Nat) : Bool :=
  f.threads.all fun p => p.2.item.isNone || decide (p.2.account = some account)

/-- The thread at the first state of a unit; its registers are zeroed when the account changes (R259). -/
def Thread.begin (t : Thread) (id account unit cycle : Nat) : Thread :=
  { item := some id, account := some account, unit := unit, startedAt := cycle, readyAt := cycle, unitCounter := t.unitCounter + 1,
    registers := if t.account = some account then t.registers else [] }

def unitStart (teller n id unit cycle : Nat) (check : BlockCheck) (s : State) (x : Item) : State :=
  let f := s.teller teller
  if decide (unit < runUnits x.slip) && !x.stopping && !x.work.units.contains unit && !unitRuns s id unit && (thread s teller n).item.isNone &&
      f.open x.account && decide (f.current = some (slipD x.slip)) && decide (f.busyUntil ≤ cycle) && blockIssues s (tellerBlock teller) then
    let s := s.blockCheck (tellerBlock teller) x.account id check
    if recurs check then s
    else (s.setThread teller n ((thread s teller n).begin id x.account unit cycle)).bump (tellerBlock teller) 0 1
  else s

/-- WORK_UNIT_START (R258, R259, R367). -/
def execWorkUnitStart (teller : Fin 192) (n : Byte) (item unit cycle : Nat) (check : BlockCheck) (s : State) : Result :=
  s.running item isRun (unitStart teller.val n.toNat item unit cycle check s)

/-! ### Reductions and passes (R258) -/

def slotKey (slot unit : Nat) : Nat := slot * 2 ^ 32 + unit

/-- A unit is finished: its bit in the progress map, and in a first pass its partial of each reduction slot. -/
def Item.finishUnit (x : Item) (digest reductions unit : Nat) : Item :=
  let w := x.work
  let partials := if w.pass = 1 then (List.range reductions).foldl (fun m i =>
    put 0 m (slotKey i unit) (Config.kernelPartial digest i unit)) w.partials else w.partials
  { x with work := { w with units := insertNat w.units unit, partials := partials }, doneUnits := x.doneUnits + 1 }

/-- The partials of a slot combined by the tree over the unit index. -/
def combineSlot (partials : Table F32) (units slot : Nat) : F32 :=
  treeFold F32.add F32.zero ((List.range units).map fun u => lookup 0 partials (slotKey slot u))

def secondPass (id : Nat) (s : State) (x : Item) : State :=
  match find s.images (slipD x.slip) with
  | none => s
  | some g =>
    if decide (g.passes = 2) && decide (x.work.pass = 1) && decide (x.work.units.length = runUnits x.slip) then
      let c := (List.range g.reductions).foldl (fun m i => put 0 m i (combineSlot x.work.partials (runUnits x.slip) i)) []
      s.setItem id { x with work := { x.work with pass := 2, units := [], partials := [], combined := c } }
    else s

/-- SECOND_PASS_START. -/
def execSecondPassStart (item : Nat) (s : State) : Result := s.working item isRun (secondPass item s)

/-- UNIT_TIMEOUT: a unit that has run longer than 2^21 cycles ends its item (R259). -/
def execUnitTimeout (teller : Fin 192) (n : Byte) (cycle : Nat) (s : State) : Result :=
  let t := thread s teller.val n.toNat
  .next (match t.item with
    | none => s
    | some id => if t.startedAt + unitLimit < cycle then s.endItem id stFinal 0 else s)

/-! ### States (R251 to R253) -/

/-- A thread that is ready at a cycle (R252). -/
def Thread.ready (t : Thread) (cycle : Nat) : Bool := t.item.isSome && decide (t.readyAt ≤ cycle)

/-- The next ready thread from the round-robin pointer (R252). -/
def Teller.nextThread (f : Teller) (cycle : Nat) : Option Nat :=
  ((List.range 256).map fun k => (f.robin + k) % 256).find? fun n => (lookup {} f.threads n).ready cycle

/-- The state record at a thread's state pointer, as a number. -/
def stateRecord (g : Image) (state : Nat) : Nat :=
  Config.kernelDigest ((List.range 4096).map fun i => (readByte g.bytes (64 + 4096 * state + i)).toNat)

/-- All that one state of a unit computes from: the run's operands and arguments, its pass, the unit, the state, and the thread's registers. -/
def stateDigest (s : State) (x : Item) (t : Thread) : Nat :=
  Config.kernelDigest ([runDigest s x, x.work.pass, t.unit, t.statePointer] ++
    (x.work.combined.map fun q => q.1 * 2 ^ 32 + q.2.toNat) ++ t.registers.map fun q => q.1 * 2 ^ 32 + q.2.toNat)

/-- Where a vector register's lane is kept: 32 vector registers of 64 × 32 bits (Table 8.1). -/
def laneKey (register lane : Nat) : Nat := 64 * register + lane

/-- A lane's operand: a lane of a vector register, or what comes over the memory port or from the record. -/
def laneOperand (t : Thread) (record digest lane k : Nat) : Word32 :=
  let q := Config.laneSource record lane k
  if q < 2048 then lookup 0 t.registers q else Config.portValue digest lane k

/-- The thread after one state: each lane steps, the results are written back to one vector register or to none, its reads return, and the
image's flow goes on (R250 to R252). -/
def Thread.step (t : Thread) (record digest n cycle : Nat) : Thread :=
  let target := Config.laneTarget record
  let result := fun lane => laneStep (LaneOp.ofNumber (Config.laneOp record lane)) (laneOperand t record digest lane 0)
    (laneOperand t record digest lane 1) (laneOperand t record digest lane 2)
  { t with statePointer := Config.nextState digest, readyAt := cycle + max fabricPipeline (Config.readWait n),
           registers := if target < 32 then (List.range 64).foldl (fun m lane => put 0 m (laneKey target lane) (result lane)) t.registers
             else t.registers,
           reads := t.reads + ofBool (decide (0 < Config.readWait n)), writes := t.writes + ofBool (Config.stateWrites digest) }

/-- The thread's unit ends when the flow leaves the image's states; an item that is to stop ends once no thread runs a unit of it (R259,
R467). -/
def State.endUnit (s : State) (teller n id : Nat) : State :=
  let t := thread s teller n
  let s := s.setThread teller n { t with item := none }
  match find s.items id with
  | none => s
  | some x =>
    match find s.images (slipD x.slip) with
    | none => s
    | some g => (s.setItem id (x.finishUnit (runDigest s x) g.reductions t.unit)).reachStop id (!runsUnits s id)

/-- One state of a thread's unit issues; a thread whose item no longer runs is free (R252). -/
def State.issueState (s : State) (teller n cycle : Nat) : State :=
  let f := s.teller teller
  let t := thread s teller n
  let s := s.setTeller teller { f with robin := (n + 1) % 256, busyUntil := cycle + 1 }
  let idle := s.setThread teller n { t with item := none }
  match t.item with
  | none => idle
  | some id =>
    match find s.items id with
    | none => idle
    | some x =>
      match find s.images (slipD x.slip) with
      | none => idle
      | some g =>
        if x.stage ≠ 2 then idle
        else
          let t := t.step (stateRecord g t.statePointer) (stateDigest s x t) s.free cycle
          let s := (({ s with free := s.free + 1 } : State).setThread teller n t).bump (tellerBlock teller) 1 1
          if g.states ≤ t.statePointer then s.endUnit teller n id else s

/-- TELLER_STATE_ISSUE. -/
def execTellerStateIssue (teller : Fin 192) (cycle : Nat) (s : State) : Result :=
  let f := s.teller teller.val
  .next (if !blockServes s (tellerBlock teller.val) || decide (cycle < f.busyUntil) then s
    else match f.nextThread cycle with
      | none => (s.setTeller teller.val { f with busyUntil := cycle + 1 }).bump (tellerBlock teller.val) 4 1
      | some n => s.issueState teller.val n cycle)

/-! ### Images in a teller (R257) -/

def imageToTeller (teller slot cycle : Nat) (s : State) (x : Item) : State :=
  let f := s.teller teller
  let h := slipD x.slip
  if !blockIssues s (tellerBlock teller) || !f.between || decide (cycle < f.busyUntil) || decide (f.current = some h) then s
  else if f.store.any fun p => decide (p.2 = h) then
    (s.setTeller teller { f with current := some h, busyUntil := cycle + imageSwitchCycles }).bump (tellerBlock teller) 3 1
  else if (find s.images h).isSome then
    (s.setTeller teller { f with store := ins f.store slot h, current := some h, busyUntil := cycle + imageLoadCycles }).bump
      (tellerBlock teller) 2 1
  else s

/-- IMAGE_LOAD_TO_TELLER: a resident image is switched to; any other is loaded into the slot. -/
def execImageLoadToTeller (teller : Fin 192) (slot : Fin 4) (item cycle : Nat) (s : State) : Result :=
  s.working item isRun (imageToTeller teller.val slot.val cycle s)

end Sys2Proof.Machine
end

