-- ==== Sys2Proof/Machine/Banks.lean ====
section
/-! DEFINITION. SRAM banks, HBM controllers and the scrub: reads and writes with SEC-DED granules, poison, write-back, port
priority and ageing, zero tags (R260 to R266, R270, R271, R361, R412, R455). -/

namespace Sys2Proof.Machine

open Sys2Proof

def bankWords : Nat := 65536
def bankBytes : Nat := bankWords * 64
/-- Bytes of a granule (R265), and granules of an extent (R270). -/
def granuleBytes : Nat := 16
def extentGranules : Nat := extentBytes / granuleBytes

/-- Granules an access touches, and those it covers whole. -/
def touched (start length : Nat) : List Nat :=
  (List.range (ceilDiv (start % granuleBytes + length) granuleBytes)).map fun k => start / granuleBytes + k
def covered (start length : Nat) : List Nat :=
  (touched start length).filter fun g => decide (start ≤ g * granuleBytes) && decide ((g + 1) * granuleBytes ≤ start + length)

/-- Flips that have come to granules join those that stood. -/
def strikeGranules (upsets : List Upset) (t : Table Nat) : Table Nat :=
  upsets.foldl (fun m u => modify 0 m u.granule fun n => n + u.bits) t

/-- Granules of a list with one flipped bit, and with more than SEC-DED corrects (R265, R266). -/
def singles (t : Table Nat) (gs : List Nat) : List Nat := gs.filter fun g => decide (lookup 0 t g = 1)
def doubles (t : Table Nat) (gs : List Nat) : List Nat := gs.filter fun g => decide (2 ≤ lookup 0 t g)

def dropKeys (t : Table α) (ks : List Nat) : Table α := t.filter fun p => !ks.contains p.1

/-- The item's receipt will carry RECOVERED. -/
def State.carriesRecovered (s : State) (item : Nat) : State := { s with items := adjust s.items item fun x => x.flagIf true flRecovered }

/-- What follows when an item reads poison, by what the word holds (R291, R373; log 31). -/
def State.readPoison (s : State) (item : Nat) (poisoned : Bool) (holds : Holds) : State :=
  if !poisoned || decide (item = 0) then s
  else
    match holds with
    | .object => s.endItem item stFinal 0x2301
    | .ledger => s.endItem item stRetryable 0x2301
    | .workingCopy _ => s.carriesRecovered item
    | .homeImage d => ((s.assayDeck d.val s.now (tjOf s d.val)).applyMeasured d.val).carriesRecovered item
    | .contextImage block =>
      { s with items := adjust s.items item fun x =>
          { x with work := { x.work with images := x.work.images.filter fun q => decide (q.1 / 2 ^ 40 ≠ block) } } }
    | .journal => s

/-- The device writes the words anew: both copies of a struck copy, from the home image or from an assay (R373). -/
def rewritten : Holds → Bool
  | .workingCopy _ | .homeImage _ => true
  | _ => false

/-! ### Banks -/

/-- A bank's own group serves. -/
def bankServes (s : State) (b : Nat) : Bool := blockServes s (bankGroupBlock b)

/-- ECC_UNCORRECTABLE of a bank, naming the bank and the word (R266). -/
def State.bankPoison (s : State) (b item : Nat) (bad : List Nat) : State :=
  bad.foldl (fun s g =>
    (s.recordFault { code := 0x2301, source := bankGroupBlock b, sub := b % 16, action := 2, detail0 := g / 4, item := item }).bump
      (bankGroupBlock b) 3 1) s

/-- Granules read at a bank: single bits corrected and to be written back, uncorrectable ones poisoned (R265, R266). -/
def State.checkGranules (s : State) (b item : Nat) (gs : List Nat) : State :=
  let k := s.bank b
  let one := singles k.upsets gs
  let new := (doubles k.upsets gs).filter fun g => !k.poisoned.contains g
  let s := s.setBank b { k with writebacks := k.writebacks ++ one.filter (fun g => !k.writebacks.contains g),
                                poisoned := new.foldl insertNat k.poisoned }
  (s.bump (bankGroupBlock b) 2 one.length).bankPoison b item new

/-- Whether an access meets poison. -/
def bankPoisoned (s : State) (b : Nat) (gs : List Nat) : Bool := gs.any fun g => (s.bank b).poisoned.contains g

def State.strikeBank (s : State) (b : Nat) (upsets : List Upset) : State :=
  s.setBank b { s.bank b with upsets := strikeGranules upsets (s.bank b).upsets }

/-- An access of up to 64 bytes at an offset of a word (R260, R264). -/
def bankAccessOk (word offset length : Nat) : Bool :=
  decide (word < bankWords) && decide (offset < 64) && decide (1 ≤ length) && decide (length ≤ 64)

/-- Bytes of an access that lie in the bank it begins in (R264). -/
def insideBank (start length : Nat) : Nat := min length (bankBytes - start)

def upsetsIn (upsets : List Upset) (gs : List Nat) : Bool := upsets.all fun u => gs.contains u.granule

/-- A request as it comes: inside the bank where it begins, with a write's bytes, and not yet stalled. -/
def requestOk (write : Bool) (r : PortRequest) : Bool :=
  bankAccessOk (r.start / 64) (r.start % 64) r.length && decide (r.write = write) && decide (r.stalled = 0) &&
    decide (r.bytes.length = if write then r.length else 0)

/-! ### Port priority (R262, R263, R454) -/

/-- Rank numbers of Table 8.5. -/
def rankNumber : Rank → Nat
  | .recovery => 1
  | .mover => 2
  | .dtbFeed => 3
  | .aabFeed => 4
  | .teller => 5
  | .background => 6

def stallLimit : Nat := 64

/-- Background's cycles at a port in a window of 65,536 (R454). -/
def shareWindow : Nat := 65536
def shareCycles : Nat := 655

/-- A request's place in the order: rank 1, then the aged, then the other ranks. -/
def portPlace (r : PortRequest) : Nat :=
  if r.rank = .recovery then 0 else if stallLimit ≤ r.stalled then 1 else rankNumber r.rank

/-- The first of those with the lowest place; equals in the order they came (log 15). -/
def servedNext : List PortRequest → Option PortRequest
  | [] => none
  | r :: rest =>
    match servedNext rest with
    | none => some r
    | some q => if portPlace q < portPlace r then some q else some r

def foreground (r : PortRequest) : Bool := decide (r.rank ≠ .background)

/-- What one cycle of a port does: the request served, those that stall, and background's cycles in the window. -/
structure PortTurn where
  served : Option PortRequest
  left : List PortRequest
  share : List Nat

/-- One cycle of a port (R262, R263); background beyond its share waits while foreground does (R454). -/
def portTurn (cycle : Nat) (share : List Nat) (q : List PortRequest) : PortTurn :=
  let waits := q.any foreground
  let share := share.filter fun c => decide (cycle < c + shareWindow)
  match servedNext (if waits && decide (shareCycles ≤ share.length) then q.filter foreground else q) with
  | none => ⟨none, q, share⟩
  | some r => ⟨some r, (q.erase r).map fun x => { x with stalled := x.stalled + 1 }, if waits && !foreground r then cycle :: share else share⟩

/-! ### A cycle of a bank (R260 to R265) -/

/-- A write covers a granule only in part, so the granule is read first (R265). -/
def partialWrite (r : PortRequest) : Bool := !((touched r.start r.length).all (covered r.start r.length).contains)

/-- The granules that a served read checks: of a partial write, those it does not cover. -/
def granulesRead (r : PortRequest) : List Nat :=
  if r.write then (touched r.start r.length).filter fun g => !(covered r.start r.length).contains g else touched r.start r.length

/-- A write that is served: its bytes land, and every granule but a poisoned one written in part takes sound check bits (R261, R265). -/
def State.serveWrite (s : State) (b : Nat) (r : PortRequest) : State :=
  let k := s.bank b
  let whole := covered r.start r.length
  let sound := (touched r.start r.length).filter fun g => whole.contains g || !k.poisoned.contains g
  (s.setBank b { k with bytes := writeBytes k.bytes r.start r.bytes, upsets := dropKeys k.upsets sound,
                        writebacks := k.writebacks.filter (fun g => !sound.contains g),
                        poisoned := k.poisoned.filter fun g => !whole.contains g }).bump (bankGroupBlock b) 1 1

/-- Read data leaves the bank 2 cycles after the cycle that serves the read (R260). -/
def readLatency : Nat := 2

/-- A read that is served after the write of the same cycle (R261, R265, R266, R373); poisoned data is no value. -/
def State.serveRead (s : State) (b : Nat) (r : PortRequest) : State :=
  let gs := granulesRead r
  let s := (s.bump (bankGroupBlock b) 0 1).checkGranules b r.item gs
  let bad := bankPoisoned s b gs
  let k := s.bank b
  let s := s.setBank b { k with
    stages := k.stages ++ [(k.cycle + readLatency, r, if bad && !r.write then [] else readBytes k.bytes r.start r.length)],
    poisoned := if bad && decide (r.item ≠ 0) && rewritten r.holds then k.poisoned.filter (fun g => !gs.contains g) else k.poisoned }
  if r.write then s else s.readPoison r.item bad r.holds

/-- The corrected granule is written back in a cycle in which the write port is free (R265). -/
def Bank.writeBack (k : Bank) : Bank :=
  match k.writebacks with
  | [] => k
  | g :: rest => { k with upsets := del k.upsets g, writebacks := rest }

/-- What leaves the bank in its next cycle: read data, and the granules of partial writes. -/
def Bank.leaving (k : Bank) : List (Nat × PortRequest × List Byte) := k.stages.filter fun q => decide (q.1 ≤ k.cycle + 1)

/-- The read port's turn in the bank's next cycle. -/
def Bank.readTurn (k : Bank) (reads writes : List PortRequest) : PortTurn :=
  portTurn (k.cycle + 1) k.readShare (k.readPort ++ reads ++ writes.filter partialWrite)

/-- The write port's turn: a partial write comes to it once its granules are read. -/
def Bank.writeTurn (k : Bank) (writes : List PortRequest) : PortTurn :=
  portTurn (k.cycle + 1) k.writeShare
    (k.writePort ++ (k.leaving.filter fun q => q.2.1.write).map (fun q => { q.2.1 with stalled := 0 }) ++ writes.filter fun q => !partialWrite q)

/-- The bank after both ports' turns, before what they serve. -/
def Bank.turned (k : Bank) (r w : PortTurn) : Bank :=
  { (if w.served.isNone then k.writeBack else k) with
    cycle := k.cycle + 1, readPort := r.left, writePort := w.left, readShare := r.share, writeShare := w.share,
    stages := k.stages.filter (fun q => decide (k.cycle + 1 < q.1)),
    data := (k.leaving.find? fun q => !q.2.1.write).map fun q => (q.2.1.item, q.2.2) }

/-- What a port serves. -/
def serveWith (f : State → PortRequest → State) (served : Option PortRequest) (s : State) : State :=
  match served with
  | some q => f s q
  | none => s

/-- Requests that stalled behind the one a turn serves. -/
def stalledOf (r : PortTurn) : Nat := if r.served.isSome then r.left.length else 0

/-- One cycle of a bank with the requests that arrive in it: the write lands before the read is served (R261). -/
def bankCycle (b : Nat) (reads writes : List PortRequest) (s : State) : State :=
  let r := (s.bank b).readTurn reads writes
  let w := (s.bank b).writeTurn writes
  let s := (s.setBank b ((s.bank b).turned r w)).bump (bankGroupBlock b) 4 (stalledOf r + stalledOf w)
  let s := s.bump (bankGroupBlock b) 5 ((r.served.toList ++ w.served.toList).filter fun q => !foreground q).length
  serveWith (fun s q => s.serveRead b q) r.served (serveWith (fun s q => s.serveWrite b q) w.served s)

/-- The bank after a bank, within its region (R264; log 82). -/
def nextBank (b : Nat) : Nat := b / 1792 * 1792 + (b % 1792 + 1) % 1792

/-- The part of an access that lies in the bank where it begins (R264). -/
def headPart (r : PortRequest) : PortRequest :=
  let n := insideBank r.start r.length
  { r with length := n, bytes := r.bytes.take n }

/-- The part past the bank's last word: an access of its own at the next bank, in the cycle after (R264; log 82). -/
def State.queueTail (s : State) (b : Nat) (r : PortRequest) : State :=
  let n := insideBank r.start r.length
  if n = r.length then s
  else
    let q := { r with start := 0, length := r.length - n, bytes := r.bytes.drop n }
    let k := s.bank (nextBank b)
    s.setBank (nextBank b)
      (if q.write && !partialWrite q then { k with writePort := k.writePort ++ [q] } else { k with readPort := k.readPort ++ [q] })

/-- A cycle with requests of which some cross the bank's last word. -/
def bankTurn (b : Nat) (reads writes : List PortRequest) (s : State) : State :=
  (reads ++ writes).foldl (fun s r => s.queueTail b r) (bankCycle b (reads.map headPart) (writes.map headPart) s)

/-- A read comes to a bank, with the flips that have come to its granules (R260, R367). -/
def bankRead (b : Nat) (r : PortRequest) (upsets : List Upset) (check : BlockCheck) (s : State) : State :=
  if !bankServes s b then s
  else
    let s := s.blockCheck (bankGroupBlock b) noAccount r.item check
    if recurs check then s else bankTurn b [r] [] (s.strikeBank b upsets)

/-- Flips of a read lie in what it reads of the bank. -/
def flipsOk (start length : Nat) (upsets : List Upset) : Bool := upsetsIn upsets (touched start (insideBank start length))

/-- BANK_READ. -/
def execBankRead (bank : Fin 7168) (word : BankWord) (offset length : Nat) (upsets : List Upset) (reader : Reader) (check : BlockCheck)
    (s : State) : Result :=
  guardWf (bankAccessOk word.word offset length && flipsOk (word.word * 64 + offset) length upsets)
    (.next (bankRead bank.val { rank := word.rank, start := word.word * 64 + offset, length := length, item := reader.item, holds := reader.holds }
      upsets check s))

/-- BANK_WRITE. -/
def execBankWrite (bank : Fin 7168) (word : BankWord) (offset : Nat) (bytes : List Byte) (s : State) : Result :=
  guardWf (bankAccessOk word.word offset bytes.length)
    (.next (if bankServes s bank.val then
      bankTurn bank.val [] [{ rank := word.rank, start := word.word * 64 + offset, length := bytes.length, write := true, bytes := bytes }] s else s))

/-- ECC_WRITEBACK: a cycle with no new request. -/
def execEccWriteback (bank : Fin 7168) (s : State) : Result :=
  .next (if bankServes s bank.val then bankCycle bank.val [] [] s else s)

/-- PORT_STALL_AGEING: one cycle of both ports with the requests that arrive in it. -/
def execPortStallAgeing (bank : Fin 7168) (reads writes : List PortRequest) (s : State) : Result :=
  guardWf (reads.all (requestOk false) && writes.all (requestOk true))
    (.next (if bankServes s bank.val then bankTurn bank.val reads writes s else s))

/-! ### HBM (R270, R271, R361) -/

def hbmServes (s : State) (k : Nat) : Bool := blockServes s (hbmBlock k) && !(s.stack k).fenced

def hbmAccessOk (offset length : Nat) : Bool := decide (1 ≤ length) && decide (offset + length ≤ extentBytes)

/-- Pseudo-channel of a granule: 256-byte granules in pseudo-channel order (R270). -/
def pseudoChannel (g : Nat) : Nat := g % extentGranules / 16 % 64

def State.hbmPoison (s : State) (k item : Nat) (bad : List Nat) : State :=
  bad.foldl (fun s g => s.recordFault { code := 0x2301, source := hbmBlock k, sub := pseudoChannel g, action := 2,
                                        detail0 := g / extentGranules, item := item }) s

/-- Granules read at a stack: single bits corrected, written back and counted, uncorrectable ones poisoned (R271). -/
def State.checkStack (s : State) (k item : Nat) (gs : List Nat) : State :=
  let x := s.stack k
  let one := singles x.upsets gs
  let new := (doubles x.upsets gs).filter fun g => !x.poisoned.contains g
  let s := s.setStack k { x with upsets := dropKeys x.upsets one, poisoned := new.foldl insertNat x.poisoned }
  (s.bump (hbmBlock k) 2 one.length).hbmPoison k item new

def State.strikeStack (s : State) (k : Nat) (upsets : List Upset) : State :=
  s.setStack k { s.stack k with upsets := strikeGranules upsets (s.stack k).upsets }

/-- An access to an extent that the stack does not have stops (log 11). -/
def hbmGuard (s : State) (k extent : Nat) (ok : Bool) (f : State → State) : Result :=
  guardWf ok (if !hbmServes s k then .next s else guardWf (decide (extent < stackExtents s k)) (.next (f s)))

/-- A byte of an extent, as a read finds it (R361). -/
def hbmByte (s : State) (k extent offset : Nat) : Byte :=
  if (s.stack k).zeroTags.contains extent then 0 else readByte (s.stack k).bytes (extent * extentBytes + offset)

/-- A read of granules of a stack once they are checked: what they hold, or no value where one is poisoned (R266, R271, R373). -/
def State.serveStack (s : State) (k item : Nat) (holds : Holds) (bytes : List Byte) (gs : List Nat) : State :=
  let s := s.checkStack k item gs
  let x := s.stack k
  let bad := gs.any x.poisoned.contains
  let s := s.setStack k { x with
    data := some (item, if bad then [] else bytes),
    poisoned := if bad && decide (item ≠ 0) && rewritten holds then x.poisoned.filter (fun g => !gs.contains g) else x.poisoned }
  s.readPoison item bad holds

/-- Zeros of a tagged extent, or what its granules hold once checked; poisoned data is no value (R266, R271, R361, R373). -/
def hbmRead (k extent offset length : Nat) (upsets : List Upset) (item : Nat) (holds : Holds) (s : State) : State :=
  let s := s.bump (hbmBlock k) 0 (ceilDiv (offset % 64 + length) 64)
  let bytes := (List.range length).map fun i => hbmByte s k extent (offset + i)
  if (s.stack k).zeroTags.contains extent then s.setStack k { s.stack k with data := some (item, bytes) }
  else (s.strikeStack k upsets).serveStack k item holds bytes (touched (extent * extentBytes + offset) length)

/-- HBM_READ. -/
def execHbmRead (stack : Fin 8) (extent offset length : Nat) (upsets : List Upset) (reader : Reader) (s : State) : Result :=
  hbmGuard s stack.val extent (hbmAccessOk offset length && upsetsIn upsets (touched (extent * extentBytes + offset) length))
    (hbmRead stack.val extent offset length upsets reader.item reader.holds)

/-- The whole extent is filled with zeros and its tag cleared (R361). -/
def Stack.fill (x : Stack) (extent : Nat) : Stack :=
  if x.zeroTags.contains extent then
    { x with bytes := x.bytes.filter fun c => decide (c.1 / extentBytes ≠ extent), zeroTags := x.zeroTags.filter fun e => decide (e ≠ extent),
             upsets := x.upsets.filter fun p => decide (p.1 / extentGranules ≠ extent),
             poisoned := x.poisoned.filter fun g => decide (g / extentGranules ≠ extent) }
  else x

def hbmWrite (k extent offset : Nat) (bytes : List Byte) (s : State) : State :=
  let s := s.setStack k ((s.stack k).fill extent)
  let start := extent * extentBytes + offset
  let whole := covered start bytes.length
  let s := s.checkStack k 0 ((touched start bytes.length).filter fun g => !whole.contains g)
  let x := s.stack k
  (s.setStack k { x with bytes := writeBytes x.bytes start bytes, upsets := dropKeys x.upsets whole,
                         poisoned := x.poisoned.filter fun g => !whole.contains g }).bump (hbmBlock k) 1 (ceilDiv (offset % 64 + bytes.length) 64)

/-- HBM_WRITE. -/
def execHbmWrite (stack : Fin 8) (extent offset : Nat) (bytes : List Byte) (s : State) : Result :=
  hbmGuard s stack.val extent (hbmAccessOk offset bytes.length) (hbmWrite stack.val extent offset bytes)

/-! ### Scrub (R455) -/

/-- SCRUB_READ: one SRAM word or one HBM granule, as background traffic that the half's steward schedules (R32, R455). -/
def execScrubRead (target : ScrubTarget) (upsets : List Upset) (s : State) : Result :=
  match target with
  | .sram bank word =>
    let runs := backgroundRuns s (halfOfRegion (bank.val / 1792))
    guardWf (decide (word < bankWords) && upsetsIn upsets (touched (word * 64) 64))
      (.next (if runs then bankRead bank.val { rank := .background, start := word * 64, length := 64 } upsets .ok s else s))
  | .hbm stack granule =>
    hbmGuard s stack.val (granule / extentGranules) (upsetsIn upsets [granule]) fun s =>
      if backgroundRuns s (if stack.val < 4 then .west else .east) then
        hbmRead stack.val (granule / extentGranules) (granule % extentGranules * granuleBytes) granuleBytes upsets 0 .object s
      else s

/-- HBM_REFRESH: per-bank refresh at the rate the stack's temperature readout requires (R412; log 21). -/
def execHbmRefresh (stack : Fin 8) (celsius : Int) (s : State) : Result :=
  let x := s.stack stack.val
  .next (if hbmServes s stack.val then
    s.setStack stack.val { x with refreshes := x.refreshes + 1, refreshRate := Config.refreshRate celsius } else s)

end Sys2Proof.Machine
end

