-- ==== Sys2Proof/Machine/Sharing.lean ====
section
/-! DEFINITION. Sharing blocks and ports: ready work, ageing, deficit round-robin, grants and quanta (R30, R31, R353 to R358). -/

namespace Sys2Proof.Machine

open Sys2Proof

/-! ### Shared units (Table 11.6) -/

/-- A unit's own number. -/
def unitKey : SharedUnit → Nat
  | .dtb i => i.val
  | .teller i => 1000 + i.val
  | .array i => 2000 + i.val
  | .port b o => 2 ^ 24 + b.toNat * 2 ^ 16 + o

/-- A pool's number: all DTBs, all tellers, or the array or port alone. -/
def poolKey : SharedUnit → Nat
  | .dtb _ => 0
  | .teller _ => 1
  | u => unitKey u

/-- The block whose island a unit lies on. -/
def unitBlock : SharedUnit → Nat
  | .dtb i => dtbBlock i.val
  | .teller i => tellerBlock i.val
  | .array i => aabBlock (i.val / 16)
  | .port b _ => b.toNat

/-- The units whose grants are quanta. -/
def timeSliced : SharedUnit → Bool
  | .dtb _ | .teller _ => true
  | _ => false

/-- A port's block is a region switch or a hub (Table 11.6), and its output is one of 16 bits. -/
def unitOk : SharedUnit → Bool
  | .port b o => validBlock b.toNat && (decide (blockKind b.toNat = 6) || decide (blockKind b.toNat = 0x15)) && decide (o < 2 ^ 16)
  | _ => true

/-- Q in ns (R356). -/
def quantumNs (s : State) : Nat := s.hub.quantum * ms

/-- Credit of a round, in ns of the nominal clock, array cycles or bytes. -/
def creditOf (s : State) (u : SharedUnit) (account : Nat) : Nat :=
  (paramsOf s account).weight * (match u with
    | .dtb _ | .teller _ => quantumNs s
    | .array _ => 256
    | .port _ _ => 512)

/-- When ready work is aged: cycles of the unit's island. -/
def agedAfter (s : State) (u : SharedUnit) : Nat := match u with
  | .dtb _ | .teller _ => 2 * quantumNs s * nominalMHz (unitBlock u) / 1000
  | .array _ => 4096
  | .port _ _ => 256

/-- The age of work in cycles of the unit's own island. -/
def ageOf (s : State) (u : SharedUnit) (r : Ready) (t : Nat) : Nat :=
  (t - r.since) * nominalMHz (unitBlock u) * (16 - (s.island (unitBlock u)).steps) / 16000

def isAged (s : State) (u : SharedUnit) (t : Nat) (r : Ready) : Bool := decide (agedAfter s u ≤ ageOf s u r t)

/-- What a grant charges: Q, array cycles or bytes. -/
def chargeOf (s : State) (u : SharedUnit) (r : Ready) : Nat := if timeSliced u then quantumNs s else r.charge

/-! ### The choice (R354) -/

/-- The work that became ready first; equals in the order given. -/
def oldestOf : List Ready → Option Ready
  | [] => none
  | r :: rest =>
    match oldestOf rest with
    | none => some r
    | some q => if q.since < r.since then some q else some r

def readyOf (ready : List Ready) (a : Nat) : Option Ready := oldestOf (ready.filter fun r => decide (r.account.toNat = a))

/-- The block whose turn it is, among some: the next above the one served last, wrapping (R30). -/
def nextBlock (blocks : List Nat) (last : Nat) : Nat :=
  let l := sortBy (fun a b => decide (a ≤ b)) blocks
  (l.find? fun b => decide (last < b)).getD (l.headD 0)

/-- The request of an account that a port serves: its blocks take turns by index, each with its oldest (R30). -/
def turnOf (ready : List Ready) (p : Pool) (a : Nat) : Option Ready :=
  let mine := ready.filter fun r => decide (r.account.toNat = a)
  let b := nextBlock (mine.map fun r => r.block.toNat) (lookup 0 p.blocks a)
  oldestOf (mine.filter fun r => decide (r.block.toNat = b))

/-- The work of a chosen account that is granted. -/
def workOf (u : SharedUnit) (ready : List Ready) (p : Pool) (a : Nat) : Option Ready := match u with
  | .port _ _ => turnOf ready p a
  | _ => readyOf ready a

/-- The next admitted account after one, wrapping. -/
def nextAccount (admitted : List Nat) (a : Nat) : Nat := (admitted.find? fun b => decide (a < b)).getD (admitted.headD 0)

/-- Each ready account's deficit after a round of credit. -/
def creditRound (s : State) (u : SharedUnit) (ready : List Ready) (d : Table Int) : Table Int :=
  (ready.map fun r => r.account.toNat).eraseDups.foldl (fun m b =>
    put 0 m b (min (lookup 0 m b + creditOf s u b) (creditOf s u b))) d

/-- The loop of R354: the pool at its exit, and the account visited. -/
def roundRobin (s : State) (u : SharedUnit) (ready : List Ready) (admitted : List Nat) : Nat → Pool → Option (Pool × Ready)
  | 0, _ => none
  | n + 1, p =>
    let a := p.pointer
    match readyOf ready a with
    | some r =>
      if 0 < lookup 0 p.deficit a then some (p, r)
      else
        let next := nextAccount admitted a
        let p : Pool := { p with pointer := next }
        roundRobin s u ready admitted n (if next ≤ a then { p with deficit := creditRound s u ready p.deficit } else p)
    | none =>
      let next := nextAccount admitted a
      let p : Pool := { p with deficit := del p.deficit a, pointer := next }
      roundRobin s u ready admitted n (if next ≤ a then { p with deficit := creditRound s u ready p.deficit } else p)

/-- Visits that are always enough: rounds until some ready account's deficit is positive, times the accounts. -/
def robinFuel (p : Pool) (ready : List Ready) (admitted : List Nat) : Nat :=
  (ready.foldl (fun n r => n + (lookup 0 p.deficit r.account.toNat).natAbs) 3) * (admitted.length + 1)

/-- The work a pool chooses among accounts, and whether its account is aged. -/
def chooseAccount (s : State) (u : SharedUnit) (ready : List Ready) (t : Nat) (p : Pool) : Option (Pool × Ready × Bool) :=
  match oldestOf (ready.filter (isAged s u t)) with
  | some r => (workOf u ready p r.account.toNat).map fun w => (p, w, true)
  | none =>
    if ready = [] then none
    else
      let admitted := s.accounts.map Prod.fst
      (roundRobin s u ready admitted (robinFuel p ready admitted) p).bind fun q =>
        (workOf u ready q.1 q.2.account.toNat).map fun w => (q.1, w, false)

/-- Ready work of one kind of traffic. -/
def ofTraffic (k : Traffic) (ready : List Ready) : List Ready := ready.filter fun r => decide (r.traffic = k)

/-! ### Grants -/

def grantOf (s : State) (u : SharedUnit) : Grant := lookup {} s.grants (unitKey u)
def State.setGrant (s : State) (u : SharedUnit) (g : Grant) : State := { s with grants := put {} s.grants (unitKey u) g }
def poolOf (s : State) (u : SharedUnit) : Pool := lookup {} s.pools (poolKey u)
def State.setPool (s : State) (u : SharedUnit) (p : Pool) : State := { s with pools := put {} s.pools (poolKey u) p }

/-- The unit is at a boundary at which its grant may end (R220, R259, R357). -/
def atBoundary (s : State) : SharedUnit → Bool
  | .teller i => (s.teller i.val).between
  | _ => true

/-- Nothing of the granted account is on the unit. -/
def unitIdle (s : State) : SharedUnit → Bool
  | .dtb i => (s.dtb i.val).item.isNone
  | .teller i => (s.teller i.val).between
  | _ => true

/-- The grant of a unit ends: the unused part of its charge is returned. -/
def State.endGrant (s : State) (u : SharedUnit) (t : Nat) : State :=
  let g := grantOf s u
  let unused := g.quantum - (t - g.start)
  let p := poolOf s u
  (s.setPool u { p with deficit := modify 0 p.deficit g.account fun d => d + unused }).setGrant u { g with active := false }

/-- The outgoing account's output block is saved, and the incoming account has the unit; a change costs the incoming account the
switch, at most 8 µs or 2 µs (R357). -/
def State.switchTo (s : State) (u : SharedUnit) (account : Nat) : State × Nat :=
  let cost := Config.switchCost s.free
  match u with
  | .dtb i =>
    if (s.dtb i.val).account = some account then (s, 0)
    else
      let s := ({ s with free := s.free + 1 } : State).saveContext i.val
      (s.setDtb i.val { s.dtb i.val with account := some account }, cost % 8001)
  | .teller _ =>
    if (grantOf s u).account = account then (s, 0) else ({ s with free := s.free + 1 }, cost % 2001)
  | _ => (s, 0)

/-- The unit is granted and the account charged. -/
def State.grantTo (s : State) (u : SharedUnit) (p : Pool) (r : Ready) (aged : Bool) (t : Nat) : State :=
  let a := r.account.toNat
  let q := s.switchTo u a
  let charge := chargeOf s u r
  let s := q.1.setPool u { p with
    deficit := modify 0 p.deficit a (fun d => d - (charge + q.2 : Nat)),
    blocks := match u with
      | .port _ _ => put 0 p.blocks a r.block.toNat
      | _ => p.blocks }
  let s := s.setGrant u { account := a, start := t, quantum := if timeSliced u then charge else 0, charge := charge + q.2, active := timeSliced u }
  match u with
  | .port b _ => if blockKind b.toNat = 6 then (s.bump b.toNat 0 r.charge).bump b.toNat 1 (ofBool aged) else s
  | _ => s

/-- Ready foreground work of accounts that are admitted. -/
def admittedReady (s : State) (ready : List Ready) : List Ready :=
  (ofTraffic .foreground ready).filter fun r => (s.account? r.account.toNat).isSome

/-- A port serves a request of no account (R30). -/
def State.serveOther (s : State) (u : SharedUnit) (r : Ready) : State := match u with
  | .port b _ => if blockKind b.toNat = 6 then s.bump b.toNat 0 r.charge else s
  | _ => s

/-- A port's requests of no account: recovery and fences before any account, background after them all (R30). -/
def otherReady (u : SharedUnit) (k : Traffic) (ready : List Ready) : Option Ready := match u with
  | .port _ _ => oldestOf (ofTraffic k ready)
  | _ => none

/-- A grant that stands is over: its quantum has ended, or its account has nothing left here. -/
def grantOver (s : State) (u : SharedUnit) (ready : List Ready) (t : Nat) : Bool :=
  let g := grantOf s u
  !g.active || (atBoundary s u && (decide (g.start + g.quantum ≤ t) ||
    (unitIdle s u && (readyOf ready g.account).isNone)))

/-- The grant goes to an account's work (R354), or at a port to background traffic when no account has any (R30). -/
def State.grantNext (s : State) (u : SharedUnit) (ready : List Ready) (t : Nat) : State :=
  match chooseAccount s u (admittedReady s ready) t (poolOf s u), otherReady u .background ready with
  | some (p, r, aged), _ => s.grantTo u p r aged t
  | none, some r => s.serveOther u r
  | none, none => s

def grantPoint (u : SharedUnit) (ready : List Ready) (t : Nat) (s : State) : State :=
  if !blockIssues s (unitBlock u) || !atBoundary s u || !grantOver s u (admittedReady s ready) t then s
  else
    match otherReady u .recovery ready with
    | some r => s.serveOther u r
    | none => (if (grantOf s u).active then s.endGrant u t else s).grantNext u ready t

/-- GRANT_POINT. -/
def execGrantPoint (unit : SharedUnit) (ready : List Ready) (t : Nat) (s : State) : Result :=
  guardWf (unitOk unit) (.next (grantPoint unit ready t (s.at t)))

/-- QUANTUM_EXPIRY: the grant of a DTB or teller ends at the first boundary after its quantum (R356). -/
def execQuantumExpiry (unit : SharedUnit) (t : Nat) (s : State) : Result :=
  let s := s.at t
  let g := grantOf s unit
  guardWf (timeSliced unit)
    (.next (if g.active && decide (g.start + g.quantum ≤ t) && atBoundary s unit then s.endGrant unit t else s))

end Sys2Proof.Machine
end

