-- ==== Sys2Proof/Machine/Accounts.lean ====
section
/-! DEFINITION. Account commands: ADMIT, RESIZE, REMOVE, their checks and results (R340 to R348, R359 to R364, R372, R448, R451,
R452). -/

namespace Sys2Proof.Machine

open Sys2Proof

/-- Result codes (Table 11.3). -/
def resDone : Nat := 0
def resBusy : Nat := 1
def resMalformed : Nat := 2
def resInsufficient : Nat := 3
def resWrongState : Nat := 4
def resBelowCharges : Nat := 5
def resNoCharter : Nat := 6

/-! ### Capacities (Tables 8.7 and 11.2) -/

def sramFloor : Nat := 13824
def wearMargin : Nat := 336

/-- A deck-array whose record names an account that has not attached it lies outside every reservation (R360). -/
def deckRecorded (d : Deck) : Bool := d.bound.isNone && d.binding.isSome
/-- Deck-arrays in service. -/
def decksInService (s : State) : Nat :=
  ((List.range deckCount).filter fun dn => deckServes s dn && !deckRecorded (s.deck dn)).length

/-- What an account's reservation charges: SRAM, half of the SRAM floor's charge, HBM, decks, tallies, tickets. -/
def reservationOf (p : Params) : List Nat :=
  [p.sramQuota, 3 * p.workingCopies, p.hbmQuota + p.vaultQuota + p.fallbackQuota + 2 * p.contextSlots, p.decks, p.tallies, p.tickets]

def capacities (s : State) : List Nat :=
  [sramCapacity s, 2 * sramFloor, hbmCapacity s, decksInService s - wearMargin, 65536, 4096]

def addLists (a b : List Nat) : List Nat := List.zipWith (· + ·) a b

/-- Every admitted account's reservation with `p` in place of account `n`'s. -/
def reserved (s : State) (n : Nat) (p : Params) : List Nat :=
  s.accounts.foldl (fun l q => if q.1 = n then l else addLists l (reservationOf q.2.params)) (reservationOf p)

def withinCapacity (s : State) (n : Nat) (p : Params) : Bool :=
  (List.zip (reserved s n p) (capacities s)).all fun q => decide (q.1 ≤ q.2)

/-- A charge of the new parameters is above the old one (R352, R372). -/
def raises (old new : Params) : Bool :=
  (List.zip (reservationOf new) (reservationOf old)).any fun q => decide (q.2 < q.1)

/-! ### Charges of existing objects (R346) -/

/-- A new quota lies below what the account's objects charge. -/
def belowCharges (s : State) (n : Nat) (a : Account) (p : Params) : Bool :=
  decide (({ a with params := p } : Account).pool < poolUsed s n) || decide (p.fallbackQuota * mib < fallbackUsed s n) ||
  decide (p.decks < decksUsed s n) || decide (p.tallies < talliesUsed s n) ||
  decide (p.vaultQuota * mib < vaultUsed s n false + vaultUsed s n true) || decide (p.contextSlots < blocksInProgress s n) ||
  decide (p.workingCopies < workingHeld s n) || decide (p.tickets < accountTickets s .west n) || decide (p.tickets < accountTickets s .east n)

/-! ### Taking a command (R347, R364, R401, R451) -/

def stewardAlive (s : State) : Bool := halves.any fun h => !(s.steward h).fenced && !(s.steward h).restarting && !halfOut s h
/-- Some steward takes a write of HUB.ACCOUNT_COMMAND; without a charter its command ends NO_CHARTER (log 32). -/
def commandsTaken (s : State) : Bool := decide (s.power.stage = 7) && !s.stopped && !s.moving && stewardAlive s

/-- The accepted command's registers change in one change (R451). -/
def State.accepted (s : State) (command account : Nat) : State :=
  s.setHub { s.hub with accountResult := resBusy, accountCommand := command, accountNumber := account,
                        accountCount := (s.hub.accountCount + 1) % 2 ^ 32 }

/-- A discarded command (R347). -/
def State.discardCommand (s : State) (ep : Half) : State := s.bump (stewardBlock ep) 4 1

/-- A command written to HUB.ACCOUNT_COMMAND: answered, then discarded, refused without a charter, or run. -/
def takeCommand (ep : Half) (command account : Nat) (act : State → State) (s : State) : State :=
  s.atEndpoint ep fun s =>
    if !commandsTaken s then s.emit (.retry ep)
    else
      let s := s.emit (.done ep)
      if s.hub.accountResult = resBusy then s.discardCommand ep
      else
        let s := s.accepted command account
        if charterHeld s then act s else s.accountDone resNoCharter

/-- The account's entry as the table in force holds it. -/
def entryOf (s : State) (account : Nat) : Nat := readLE s.cmem (s.hub.accountTableBase + 64 * account) 64

def entryOk (w : Nat) : Bool := !accountEntryReserved w && (paramsOfEntry w).wellFormed

/-! ### ADMIT and RESIZE -/

/-- Released deck-arrays that a reservation needs are zero-programmed while the command runs (R360, R362). -/
def State.prepareDecks (s : State) (n : Nat) (p : Params) : State :=
  let decks := (reserved s n p).getD 3 0
  let dirty := (List.range deckCount).filter fun dn => deckServes s dn && !deckRecorded (s.deck dn) && (s.deck dn).dirty
  let clean := decksInService s - dirty.length
  (dirty.take (decks - clean)).foldl (fun s dn => s.zeroDeck dn s.now) s

/-- The account's context slots take their extents, or give up those they have no more need of (R343, R361). -/
def State.reserveSlots (s : State) (n : Nat) : State :=
  match s.account? n with
  | none => s
  | some a =>
    let e := resizeExtents s a.slotExtents [] a.params.contextSlots
    (s.setAccount n { a with slotExtents := e }).releaseExtents (givenUp a.slotExtents e)

def admitEffect (n : Nat) (s : State) : State :=
  let w := entryOf s n
  let p := paramsOfEntry w
  if (s.account? n).isSome then s.accountDone resWrongState
  else if !entryOk w then s.accountDone resMalformed
  else if !withinCapacity s n p || decide (0 < s.marginUsed) then s.accountDone resInsufficient
  else (((({ s with free := s.free + 1 } : State).prepareDecks n p).setAccount n
    { params := p, vaultExtents := newExtents s (p.vaultQuota * mib) }).reserveSlots n).accountDone resDone

/-- ADMIT. -/
def execAdmitAccount (ep : Half) (account : BitVec 6) (cw : List CWrite) (s : State) : Result :=
  .next (takeCommand ep 1 account.toNat (admitEffect account.toNat) (s.companion cw))

def modeChanged (old new : Params) : Bool :=
  decide (old.headroomLog2 ≠ new.headroomLog2) || decide (old.orvane ≠ new.orvane) || decide (old.clip ≠ new.clip)

def resizeEffect (n : Nat) (s : State) : State :=
  let w := entryOf s n
  let p := paramsOfEntry w
  match s.account? n with
  | none => s.accountDone resWrongState
  | some a =>
    if a.removing then s.accountDone resWrongState
    else if !entryOk w || modeChanged a.params p then s.accountDone resMalformed
    else if belowCharges s n a p then s.accountDone resBelowCharges
    else if raises a.params p && (!withinCapacity s n p || decide (0 < s.marginUsed)) then s.accountDone resInsufficient
    else
      let e := resizeExtents s a.vaultExtents (a.vault.flatMap fun q => flat q.2.place.extents) (ceilDiv (p.vaultQuota * mib) extentBytes)
      (((({ s with free := s.free + 1 } : State).prepareDecks n p).setAccount n { a with params := p, vaultExtents := e }).releaseExtents
        (givenUp a.vaultExtents e)).reserveSlots n |>.accountDone resDone

/-- RESIZE. -/
def execResize (ep : Half) (account : BitVec 6) (cw : List CWrite) (s : State) : Result :=
  .next (takeCommand ep 2 account.toNat (resizeEffect account.toNat) (s.companion cw))

/-! ### REMOVE (R363) -/

/-- Every running submission ring of the account stops consuming. -/
def State.stopAccountRings (s : State) (a : Nat) : State :=
  ((s.rings.filter fun p => decide (p.2.account = a) && decide (p.2.state = .running) && !p.2.completion).map Prod.fst).foldl
    (fun s n => s.stopRing n) s

def removeEffect (n : Nat) (s : State) : State :=
  match s.account? n with
  | none => s.accountDone resWrongState
  | some a =>
    let s := (s.setAccount n { a with removing := true }).stopAccountRings n
    (s.cancelWhere fun p => decide (p.2.account = n)).finishRemove n

/-- REMOVE: its result replaces BUSY once every receipt is written. -/
def execRemove (ep : Half) (account : BitVec 6) (s : State) : Result :=
  .next (takeCommand ep 3 account.toNat (removeEffect account.toNat) s)

/-! ### Other writes of the register -/

def commandOf (v : Nat) : Nat := bits v 7 0

/-- ACCOUNT_COMMAND_MALFORMED: a value other than 0x01 to 0x03 (R448). -/
def execAccountCommandMalformed (ep : Half) (value : Word64) (s : State) : Result :=
  guardWf (decide (commandOf value.toNat = 0) || decide (3 < commandOf value.toNat))
    (.next (takeCommand ep (commandOf value.toNat) (bits value.toNat 13 8) (fun s => s.accountDone resMalformed) s))

/-- ACCOUNT_COMMAND_DISCARDED: a command written while the status reads BUSY (R347). -/
def execAccountCommandDiscarded (ep : Half) (value : Word64) (s : State) : Result :=
  let _ := value
  .next (s.atEndpoint ep fun s =>
    if s.hub.accountResult ≠ resBusy then s
    else if commandsTaken s then (s.emit (.done ep)).discardCommand ep
    else s.emit (.retry ep))

end Sys2Proof.Machine
end

