-- ==== Sys2Proof/Machine/Faults.lean ====
section
/-! DEFINITION. Faults of blocks, regions, stacks and the bridge, and recovery from them (R28, R29, R351, R352, R365 to R384). -/

namespace Sys2Proof.Machine

open Sys2Proof

/-! ### Work in flight (R377, R378) -/

/-- A fault strikes an item: it resumes under Table 12.4, or ends. -/
def State.strikeItem (s : State) (id code : Nat) : State :=
  match find s.items id with
  | none => s
  | some x =>
    if x.stage ≠ 2 then s
    else if isClear x.slip then s.endItem id stRetryable code
    else if x.recoveries = 3 then s.endItem id stRetryable x.fault
    else if isRun x.slip && isUpdate s x.slip then s.setItem id { x.strike code with stage := 1, work := {} }
    else s.setItem id (x.strike code)

/-- A block holds issued work: an AAB's evaluations, a DTB's output block, a teller's units, a bank group's requests. -/
def holdsWork (s : State) (b : Nat) : Bool :=
  decide (itemsOn s b ≠ []) ||
  (decide (blockKind b = 3) && s.banks.any fun p => decide (bankGroupBlock p.1 = b) && decide (p.2.requests ≠ []))

/-- The fault code under which a fenced block's work is struck: that of its latest record. -/
def fenceCode (s : State) (b : Nat) : Nat := match (s.island b).faults.getLast? with
  | some f => f.code
  | none => 0x2202

/-- The items that used a fenced block are accounted for from the journal: they resume elsewhere, or end (R29, R377). -/
def State.resumeFrom (s : State) (b code : Nat) : State :=
  let ids := (s.island b).struck
  ids.foldl (fun s id => s.strikeItem id code) (if ids = [] then s else s.setIsland b { s.island b with struck := [] })

/-! ### Blocks (R368, R369) -/

/-- Blocks of a region whose liveness its switch watches. -/
def watched (b : Nat) : Bool := validBlock b && decide (blockLocation b < 4) && decide (blockKind b < 4)

/-- A silent block: its region switch records it and the block is fenced; in a region that is being fenced the record joins that
region's report and nothing else is done (R28, R368). -/
def silentBlock (b : Nat) (s : State) : State :=
  let unit := switchBlock (blockLocation b)
  if regionFenced s (blockLocation b) then s.recordBy unit { code := 0x2601, source := b, action := 5 }
  else ((s.recordBy unit { code := 0x2601, source := b, action := 3 }).bump unit 2 1).fenceFor b 0x2601 []

/-- LIVENESS_TIMEOUT: a block that holds work and whose last pulse is 1 ms old. -/
def execLivenessTimeout (block : Word16) (t : Nat) (s : State) : Result :=
  let s := s.at t
  let b := block.toNat
  guardWf (watched b)
    (.next (if s.power.powerGood && !(s.island b).fenced && holdsWork s b && decide ((s.island b).pulseAt + ms ≤ t) then silentBlock b s
      else s))

/-- LIVENESS_PULSE: while it holds issued work (R368). -/
def execLivenessPulse (block : Word16) (t : Nat) (s : State) : Result :=
  let s := s.at t
  let b := block.toNat
  guardWf (watched b)
    (.next (if s.power.powerGood && !(s.island b).fenced && holdsWork s b then s.setIsland b { s.island b with pulseAt := t } else s))

/-- Serving blocks of a kind in a region. -/
def servingBlocks (s : State) (r kind : Nat) : List Nat :=
  ((List.range (kindCount false kind)).map (blockId r kind)).filter (blockServes s)

/-- Accounts of some items. -/
def accountsOf (s : State) (ids : List Nat) : List Nat :=
  (ids.filterMap fun id => (find s.items id).map fun x => x.account).eraseDups

/-- A block serves an account: an AAB where one of its deck-arrays holds a weight of it; every other block serves all. -/
def servesAccount (s : State) (b account : Nat) : Bool :=
  decide (blockKind b ≠ 0) || s.decks.any fun p => decide (aabBlock (deckAab p.1) = b) && (match p.2.bound with
    | some (h, _) => decide (handleAccount h = account)
    | none => false)

/-- Serving blocks of the kind in a region that serve some accounts. -/
def rebindTargets (s : State) (r kind : Nat) (accounts : List Nat) : List Nat :=
  (servingBlocks s r kind).filter fun t => accounts.all (servesAccount s t)

/-- A place the work may go: a serving block of the same kind that serves the same accounts, of another region only when its own has none
and a steward holds the charter (R369, R390). -/
def targetOk (s : State) (b : Nat) (accounts : List Nat) : Option Word16 → Bool
  | none => true
  | some w =>
    let t := w.toNat
    validBlock t && decide (blockKind t = blockKind b) && blockServes s t &&
    (if blockLocation t = blockLocation b then accounts.all (servesAccount s t)
     else charterHeld s && decide (rebindTargets s (blockLocation b) (blockKind b) accounts = []))

/-- The region that took the work, recorded once for each account that had work there. -/
def State.reboundFault (s : State) (b region : Nat) (accounts : List Nat) : State :=
  accounts.foldl (fun s a => s.recordBy (issuer s) { code := 0x4006, source := b, action := 6, detail0 := region, detail1 := a }) s

/-- BLOCK_RECOVERY (R28, R29, R369, R377, R382). -/
def execBlockRecovery (block : Word16) (target : Option Word16) (s : State) : Result :=
  let b := block.toNat
  let accounts := accountsOf s (s.island b).struck
  guardWf (watched b && (match target with
      | some w => validBlock w.toNat
      | none => true))
    (.next (if (s.island b).fenced && !regionFenced s (blockLocation b) && mayRecover s (domainOf b) && targetOk s b accounts target then
      let s' := s.resumeFrom b (fenceCode s b)
      let s' := match target with
        | some w => if blockLocation w.toNat = blockLocation b then s' else s'.reboundFault b (blockLocation w.toNat) accounts
        | none => s'
      s'.endRecovery (domainOf b)
    else s))

/-! ### Regions (R333, R351, R352, R370) -/

/-- An account's SRAM reservation at `n` parts in `total`, never below its floor. -/
def cutTo (n total : Nat) (p : Params) : Nat := max (ceilDiv (3 * p.workingCopies) 2) (p.sramQuota * n / total)

/-- The largest number of parts at which the reservations fit. -/
def fitParts (ps : List Params) (total room : Nat) : Nat → Nat
  | 0 => 0
  | n + 1 => if ps.foldl (fun m p => m + min p.sramQuota (cutTo (n + 1) total p)) 0 ≤ room then n + 1 else fitParts ps total room n

/-- Each account's SRAM reservation is reduced until the reservations fit, and the displaced contents lie in the fence margin. -/
def State.cutReservations (s : State) : State :=
  let ps := s.accounts.map fun p => p.2.params
  let total := ps.foldl (fun m p => m + p.sramQuota) 0
  if total ≤ sramCapacity s then s
  else
    let n := fitParts ps total (sramCapacity s) total
    let accounts := mapValues (fun _ a => { a with sramCut := a.params.sramQuota - min a.params.sramQuota (cutTo n total a.params) }) s.accounts
    { s with accounts := accounts }

/-- The tallies of a region are rebuilt in other units, from their images and the journal (R333); one that no unit in service has room for
waits in STATE 3 (log 15). -/
def State.rebuildTallies (s : State) (r : Nat) : State :=
  ((s.tallies.filter fun p => decide (p.2.region = r)).map Prod.fst).foldl (fun s h =>
    match find s.tallies h, tallyRegion s with
    | some t, some k => ({ s with free := s.free + 1 } : State).relocate h t k
    | some t, none => s.setTally h { t with state := 3 }
    | none, _ => s) s

/-- Owner ledgers in SRAM lie in both regions of their ticket's half (R309); their CLEARs are not resumed (R291). -/
def ledgersOf (s : State) (h : Half) : List Nat := (s.tickets.filter fun p => decide (p.2.half = h) && p.2.holdsLedger && p.2.inSram).map Prod.fst

/-- What the blocks of a region held is discarded at the fence (R29). -/
def State.stripRegion (s : State) (r : Nat) : State := (blocksOf r).foldl (fun s b => s.strip b []) s

/-- Steps 2 to 4 of R370. -/
def State.recoverRegion (s : State) (r words : Nat) : State :=
  let s := s.poisonLost 0x3001 { regions := [r] } (decide (0 < words))
  let s := (s.cutReservations).rebuildTallies r
  let s := (blocksOf r).foldl (fun s b => s.resumeFrom b 0x3001) s
  (ledgersOf s (halfOfRegion r)).foldl (fun s id => s.strikeItem id 0x3001) s

/-- A region may fence itself for a unit: its switch, mover or tally unit; an SRAM layer, shown by a fenced bank group whose work no other
bank group of the region can take; or the second of two blocks fenced within 1 s (R26, R370; log 31). -/
def regionCause (s : State) (r failed : Nat) : Bool :=
  if 4 ≤ blockKind failed then true
  else (s.island failed).fenced &&
    ((decide (blockKind failed = 3) && decide (servingBlocks s r 3 = [])) ||
     decide (2 ≤ ((blocksOf r).filter fun b => decide (blockKind b < 4) && (s.island b).fenced && decide (s.now ≤ (s.island b).fencedAt + 1000 * ms)).length))

/-- A recovery that a region's fence covers. -/
def inRegion (r : Nat) (q : Recovery) : Bool := decide (q.domain = .region r)

/-- The region's own recoveries are abandoned to the fence, which discards what its blocks held (R28, R29, R370). -/
def regionFence (r failed words : Nat) (s : State) : State :=
  let s := (s.fenceBlock (switchBlock r)).abandon (inRegion r)
  let s := (s.recordBy (hubBlock (halfOfRegion r))
    { code := 0x3001, source := switchBlock r, sub := blockKind failed, action := 5, detail0 := failed, detail1 := words }).stripRegion r
  if mayRecoverDevice s (.region r) then (s.recoverRegion r words).endRecovery (.region r)
  else s.queueRecovery { domain := .region r, code := 0x3001, block := failed, recorded := s.now, bound := boundRegion, words := words }

/-- REGION_FENCE. -/
def execRegionFence (region : Fin 4) (failed : Word16) (poisonedWords : Nat) (t : Nat) (s : State) : Result :=
  let s := s.at t
  guardWf (validBlock failed.toNat && decide (blockLocation failed.toNat = region.val))
    (.next (if s.power.powerGood && !regionFenced s region.val && regionCause s region.val failed.toNat then
      regionFence region.val failed.toNat poisonedWords s else s))

/-! ### HBM (R371) -/

/-- Tickets whose ledger in HBM had extents on a lost stack (R291, R373). -/
def ledgersOn (s : State) (hbms : List Nat) : List Nat :=
  (s.tickets.filter fun p => p.2.holdsLedger && !p.2.inSram && hbms.any fun k => decide (lookup [] p.2.extents k ≠ [])).map Prod.fst

/-- Deck-arrays whose home image lay on a lost stack are to be assayed (R371). -/
def State.assayHomes (s : State) (hbms : List Nat) : State :=
  { s with decks := s.decks.map fun p =>
      if hbms.contains (p.1 / 2688) && p.2.due.isNone then (p.1, { p.2 with due := some s.now }) else p }

/-- Context images that lay on lost stacks are discarded: their blocks start again at K-step 0 (R373; log 31). -/
def State.dropImages (s : State) : State :=
  let n := s.free
  { s with free := n + 1, items := mapValues (fun i x =>
      { x with work := { x.work with images := x.work.images.filter fun q => !Config.lostBytes n (2 ^ 80 + 2 ^ 40 * i + q.1) } }) s.items }

/-- What lay on lost stacks: home images are assayed anew, extents reallocated and poisoned, tickets whose ledger is gone end. -/
def State.recoverStacks (s : State) (hbms : List Nat) (code : Nat) : State :=
  let ledgers := ledgersOn s hbms
  ledgers.foldl (fun s id => s.strikeItem id code) (((s.assayHomes hbms).dropImages).poisonLost code { hbms := hbms } false)

def hbmFence (k : Nat) (s : State) : State :=
  let lost := stackExtents s k
  let s := s.recordBy (hubBlock (if k < 4 then .west else .east)) { code := 0x4007, source := hbmBlock k, sub := k, action := 3, detail0 := lost }
  let s := (s.fenceBlock (hbmBlock k)).setStack k
    { s.stack k with fenced := true, bytes := [], zeroTags := [], upsets := [], poisoned := [], data := none }
  let d := domainOf (hbmBlock k)
  if mayRecoverDevice s d then (s.recoverStacks [k] 0x4007).endRecovery d
  else s.queueRecovery { domain := d, code := 0x4007, block := hbmBlock k, recorded := s.now, bound := boundHbm }

/-- HBM_FENCED. -/
def execHbmFenced (stack : Fin 8) (t : Nat) (s : State) : Result :=
  let s := s.at t
  .next (if hbmServes s stack.val then hbmFence stack.val s else s)

/-! ### The bridge (R371) -/

def leaseNs : Nat := 45 * ms

/-- The steward of the half holds an unexpired charter (R386). -/
def leaseRuns (s : State) (h : Half) : Bool := believesHolder s h && decide (s.now < (s.steward h).renewedAt + leaseNs)

/-- A half continues alone. -/
def continues (s : State) (h : Half) : Bool :=
  (leaseRuns s h && decide ((s.island (hubBlock h.other)).epoch = (s.steward h).epoch)) ||
  (decide (h = .west) && !(s.steward .west).fenced && (match (s.steward .west).reportAt with
    | none => true
    | some r => decide (r + 50 * ms ≤ s.now)))

def regionsOf : Half → List Nat
  | .west => [0, 1]
  | .east => [2, 3]
def stacksOf : Half → List Nat
  | .west => [0, 1, 2, 3]
  | .east => [4, 5, 6, 7]

/-- A recovery that a half's fence covers. -/
def inHalf (h : Half) (q : Recovery) : Bool := match q.domain with
  | .region r => (regionsOf h).contains r
  | .half k => decide (k = h)
  | _ => false

/-- A half fences itself, with its steward, its regions and its stacks. -/
def State.fenceHalf (s : State) (h : Half) : State :=
  let s := ({ s with halfFenced := s.halfFenced.set h true } : State).abandon (inHalf h)
  let s := s.setSteward h { s.steward h with fenced := true, fencedAt := s.now, holder := false, mirror := some s.items }
  let s := (regionsOf h).foldl (fun s r => if regionFenced s r then s else (s.fenceBlock (switchBlock r)).stripRegion r) s
  (stacksOf h).foldl (fun s k => s.setStack k { s.stack k with fenced := true }) s

/-- What a fenced half held is recovered: its regions' tallies and work, its tickets, the objects that lost bytes. -/
def State.recoverHalf (s : State) (h : Half) (code : Nat) : State :=
  let s := ((s.poisonLost code { regions := regionsOf h } false).recoverStacks (stacksOf h) code)
  let s := (regionsOf h).foldl (fun s r => s.recoverRegion r 0) s
  ((s.tickets.filter fun p => decide (p.2.half = h)).map Prod.fst).foldl (fun s id => s.strikeItem id code) s

/-- BRIDGE_LOST, recorded by the half that continues. -/
def State.bridgeFault (s : State) (h : Half) : State :=
  s.recordBy (hubBlock h) { code := 0x4008, source := bridgeBlock h, action := 3, detail0 := (match h with | .west => 1 | .east => 0) }

def loseBridge (s : State) : State :=
  let stay := halves.filter fun h => !halfOut s h && continues s h
  let leave := halves.filter fun h => !halfOut s h && !stay.contains h
  let s := { s with bridgeUp := false }
  let s := leave.foldl State.fenceHalf s
  let s := stay.foldl State.bridgeFault s
  leave.foldl (fun s h =>
    if mayRecoverDevice s (.half h) then (s.recoverHalf h 0x4008).endRecovery (.half h)
    else s.queueRecovery { domain := .half h, code := 0x4008, block := bridgeBlock h, recorded := s.now, bound := boundRegion }) s

/-- BRIDGE_LOST. -/
def execBridgeLost (t : Nat) (s : State) : Result :=
  let s := s.at t
  .next (if s.power.powerGood && s.bridgeUp then loseBridge s else s)

/-! ### Self-test after a fence (R374) -/

def retestNs : Nat := 600 * 1000 * ms

/-- A steward rejoins as non-holder, once it has copied the journal from the other (R32, R374). -/
def Steward.rejoin (x : Steward) : Steward := { x with fenced := false, holder := false, seen := false, mirror := none }

def selfTestSteward (h : Half) (passes : Bool) (t : Nat) (s : State) : State :=
  let x := s.steward h
  if x.fenced && !x.withdrawn && !halfOut s h && decide (x.fencedAt + retestNs ≤ t) && passes && decide (x.fences < 3) then
    (s.setSteward h.other { s.steward h.other with peerFenced := false }).setSteward h { x.rejoin with heartbeatAt := t }
  else s

/-- A fenced block or region returns to service. -/
def selfTestBlock (b : Nat) (passes : Bool) (t : Nat) (s : State) : State :=
  let i := s.island b
  if i.fenced && !i.withdrawn && decide (i.fencedAt + retestNs ≤ t) && passes && decide (i.fences < 3) then
    let s := s.setIsland b { i with fenced := false, pulseAt := t }
    if blockKind b = 0x13 ∧ 4 ≤ blockLocation b then
      s.setStack ((blockLocation b - 4) * 4 + blockIndex b) { s.stack ((blockLocation b - 4) * 4 + blockIndex b) with fenced := false }
    else s
  else s

/-- FENCE_SELF_TEST. -/
def execFenceSelfTest (block : Word16) (passes : Bool) (t : Nat) (s : State) : Result :=
  let s := s.at t
  let b := block.toNat
  guardWf (validBlock b)
    (.next (if !s.power.powerGood || halfOut s (halfOfBlock b) then s
      else if b = stewardBlock .west then selfTestSteward .west passes t s
      else if b = stewardBlock .east then selfTestSteward .east passes t s
      else selfTestBlock b passes t s))

/-! ### Queued recoveries (R382) -/

/-- The stack of an HBM controller. -/
def stackOf (b : Nat) : Nat := (blockLocation b - 4) * 4 + blockIndex b

/-- A recovery at the device level (R390). -/
def deviceLevel (r : Recovery) : Bool := decide (r.code = 0x3001) || decide (r.code = 0x4007) || decide (r.code = 0x4008)

/-- A recovery that begins: those this model completes at once end; a block's ends with BLOCK_RECOVERY. -/
def State.runRecovery (s : State) (r : Recovery) : State :=
  match r.code, r.domain with
  | 0x3001, .region k => (s.recoverRegion k r.words).endRecovery r.domain
  | 0x4007, _ => (s.recoverStacks [stackOf r.block] 0x4007).endRecovery r.domain
  | 0x4008, .half h => (s.recoverHalf h 0x4008).endRecovery r.domain
  | _, _ => s

/-- QUEUED_RECOVERY_START. -/
def execQueuedRecoveryStart (t : Nat) (s : State) : Result :=
  let s := s.at t
  .next (match s.recovering, s.recoveryQueue with
    | none, r :: rest =>
      if deviceLevel r && !charterHeld s then s
      else ({ s with recovering := some r, recoveryQueue := rest } : State).runRecovery r
    | _, _ => s)

end Sys2Proof.Machine
end

