-- ==== Sys2Proof/Machine/Charter.lean ====
section
/-! DEFINITION. Stewards, the witness record, the charter, epochs, and the hitless firmware update (R32, R371, R380 to R392, R436 to
R438, R466). -/

namespace Sys2Proof.Machine

open Sys2Proof

/-- The READY contact moves; a change raises an in-band interrupt when they are enabled (R432, R462). -/
def State.setReady (s : State) (level : Bool) : State :=
  if s.power.readyPin = level then s
  else
    let s := s.setPower { s.power with readyPin := level }
    if s.i3c.interrupts then s.emit (.i3cInterrupt 3) else s

/-! ### Steward loss (R371, R384, R392) -/

/-- A steward that works. -/
def stewardWorks (s : State) (h : Half) : Bool := !(s.steward h).fenced && !(s.steward h).restarting && !halfOut s h

/-- The other hub, in service, keeps the record as well (R465). -/
def State.mirrorRecord (s : State) : State :=
  let h := (reporter s).other
  match ((s.island (hubBlock (reporter s))).faults.filter fun r => decide (r.code = 0x4009)).getLast? with
  | some r => if halfOut s h then s else s.setIsland (hubBlock h) (addFault (s.island (hubBlock h)) r)
  | none => s

/-- Both stewards are lost: the fault is recorded, an audit dump falls due, and the device stops (R384, R465). -/
def State.bothLost (s : State) : State :=
  let s := (s.recordFault { code := 0x4009, source := hubBlock (reporter s) }).mirrorRecord
  ({ s with stopped := true } : State).setReady false

/-- A steward is fenced from every path, and its hub tells the other hub (R371). -/
def State.fenceSteward (s : State) (h : Half) : State :=
  let x := s.steward h
  let s := s.setSteward h { x with fenced := true, fencedAt := s.now, fences := x.fences + 1, holder := false, restarting := false, mirror := some s.items,
                                   withdrawn := x.withdrawn || decide (2 ≤ x.fences) }
  let s := if 2 ≤ x.fences then { s with flash := { s.flash with withdrawals := s.flash.withdrawals ++ [stewardBlock h] } } else s
  if s.bridgeUp then (s.setSteward h.other { s.steward h.other with peerFenced := true }).emit (.fenceReport h.other) else s

/-- The charter's loss: consumption pauses, and the recovery that the steward conducted goes on under the other one, its bound extended
(R380, R383). -/
def State.loseCharter (s : State) (h : Half) : State :=
  { s with
    moving := true
    recovering := some (match s.recovering with
      | none => { domain := .half h, code := 0x4005, block := stewardBlock h, recorded := s.now, bound := boundSteward }
      | some r => { r with bound := r.bound + boundSteward }) }

def loseSteward (h : Half) (s : State) : State :=
  let held := believesHolder s h
  let s := s.recordBy (hubBlock h) { code := 0x4005, source := stewardBlock h, action := 3 }
  let s := s.fenceSteward h
  let s := if held then s.loseCharter h else s
  if stewardWorks s h.other then s else s.bothLost

/-- Stewards run from the firmware's start (Table 14.5). -/
def stewardsRun (s : State) : Bool := s.power.powerGood && decide (2 ≤ s.power.stage) && decide (s.power.stage ≤ 7)

/-- STEWARD_HEARTBEAT_TIMEOUT. -/
def execStewardHeartbeatTimeout (half : Half) (t : Nat) (s : State) : Result :=
  let s := s.at t
  .next (if stewardsRun s && stewardWorks s half && decide ((s.steward half).heartbeatAt + 5 * ms ≤ t) then loseSteward half s else s)

/-- STEWARD_HEARTBEAT: every 1 ms to its hub (R371). -/
def execStewardHeartbeat (half : Half) (t : Nat) (s : State) : Result :=
  let s := s.at t
  .next (if stewardsRun s && stewardWorks s half then s.setSteward half { s.steward half with heartbeatAt := t } else s)

/-! ### The witness record (R385, R466) -/

def witness (s : State) : Nat := readLE s.cmem s.hub.witnessBase 32

/-- A record whose EPOCH_C is wrong is not used, and is read again 10 ms later (R466). -/
def State.corruptRecord (s : State) (h : Half) (t : Nat) : State :=
  let s := s.complementFault (stewardBlock h) 2 noAccount 0 0
  s.setSteward h { s.steward h with corruptWitness := true, rereadAt := t }

/-- What a steward notes of a record it has read: since when it stands unchanged (R387). -/
def Steward.note (x : Steward) (w t : Nat) : Steward :=
  let same := x.seen && decide (x.seenEpoch = witEpoch w) && decide (x.seenRenewals = witRenewals w)
  { x with seen := true, seenEpoch := witEpoch w, seenRenewals := witRenewals w, corruptWitness := false,
           unchangedSince := if same then x.unchangedSince else t }

/-- WITNESS_LOST: a renewal cannot complete (R390). -/
def State.witnessLost (s : State) (h : Half) : State :=
  let s := s.recordFault { code := 0x4002, source := stewardBlock h }
  s.setSteward h { s.steward h with witnessLost := true }

/-- CHARTER_CONFLICT: the steward stops acting as holder (R389). -/
def State.stepDown (s : State) (h : Half) (winning : Nat) : State :=
  let x := s.steward h
  let s := s.recordFault { code := 0x4001, source := stewardBlock h, detail0 := x.epoch % 2 ^ 32, detail1 := winning % 2 ^ 32 }
  s.setSteward h { s.steward h with holder := false }

/-- The compare-and-swap that renews (R386), and the report to the other hub (R371). -/
def State.renew (s : State) (h : Half) (t : Nat) : State :=
  let x := s.steward h
  let n := (x.renewals + 1) % 2 ^ 32
  let s := s.poke s.hub.witnessBase (toLE 32 (witnessWord x.epoch h n))
  let s := s.setSteward h { x with renewals := n, renewedAt := t, witnessLost := false }
  if s.bridgeUp then (s.setSteward h.other { s.steward h.other with reportAt := some t }).emit (.renewalReport h.other x.epoch) else s

/-- The record a holder expects to find. -/
def ownRecord (s : State) (h : Half) (w : Nat) : Bool :=
  let x := s.steward h
  decide (w = witnessWord x.epoch h x.renewals)

def renewalEffect (h : Half) (reachable : Bool) (t : Nat) (s : State) : State :=
  let w := witness s
  if !reachable then s.witnessLost h
  else if !witSound w then (s.corruptRecord h t).witnessLost h
  else if (s.steward h).epoch < witEpoch w then s.stepDown h (witEpoch w)
  else if ownRecord s h w then s.renew h t
  else s.witnessLost h

/-- CHARTER_RENEWAL: every 10 ms while the lease runs. -/
def execCharterRenewal (half : Half) (cw : List CWrite) (reachable : Bool) (t : Nat) (s : State) : Result :=
  let s := (s.at t).companion cw
  .next (if stewardWorks s half && leaseRuns s half && decide ((s.steward half).renewedAt + 10 * ms ≤ t) then
    renewalEffect half reachable t s else s)

/-- LEASE_EXPIRY: 45 ms after its last successful renewal the holder stops acting as holder (R386, R390). -/
def execLeaseExpiry (half : Half) (t : Nat) (s : State) : Result :=
  let s := s.at t
  .next (if believesHolder s half && decide ((s.steward half).renewedAt + leaseNs ≤ t) then
    s.setSteward half { s.steward half with holder := false } else s)

/-! ### Epochs (R388) -/

/-- A block's highest accepted epoch, with its complement. -/
def Island.setEpoch (i : Island) (e : Nat) : Island := { i with epoch := e, epochC := onesComplement 64 e }

/-- The new holder's epoch reaches every block and unit of the halves in service. -/
def State.broadcastEpoch (s : State) (e : Nat) : State :=
  ((allBlocks.filter fun b => !halfOut s (halfOfBlock b)).foldl (fun s b =>
    if (s.island b).epoch < e then s.setIsland b ((s.island b).setEpoch e) else s) s).emit (.epochBroadcast e)

/-- EPOCH_COMMAND: a block accepts a command of its epoch or a higher one, and rejects one of a lower (R388, R268). -/
def execEpochCommand (block : Word16) (issuer : Half) (epoch epochC : Word64) (s : State) : Result :=
  let b := block.toNat
  let e := epoch.toNat
  let i := s.island b
  guardWf (validBlock b)
    (.next (if !s.power.powerGood || halfOut s (halfOfBlock b) then s
      else if epochC.toNat ≠ onesComplement 64 e then s.complementFault b 2 noAccount 0 0
      else if e < i.epoch then (s.bump b 11 1).emit (.rejection b issuer i.epoch)
      else if i.epoch < e then s.setIsland b (i.setEpoch e) else s))

/-- CHARTER_REJECTION (R389). -/
def execCharterRejection (half : Half) (winning : Word64) (s : State) : Result :=
  .next (if believesHolder s half && decide ((s.steward half).epoch < winning.toNat) then s.stepDown half winning.toNat else s)

/-! ### Taking the charter (R387) -/

/-- The cases in which a steward attempts it. -/
def mayTake (s : State) (h : Half) (w t : Nat) : Bool :=
  let x := s.steward h
  x.peerFenced || !witValid w || (decide (s.hub.fwState = 3)) ||
  (x.seen && decide (x.seenEpoch = witEpoch w) && decide (x.seenRenewals = witRenewals w) && decide (x.unchangedSince + 60 * ms ≤ t))

/-- The record is swapped, the epoch goes to every block, and the device serves under it. -/
def State.takeCharter (s : State) (h : Half) (w t : Nat) : State :=
  let e := (witEpoch w + 1) % 2 ^ 64
  let s := s.poke s.hub.witnessBase (toLE 32 (witnessWord e h 0))
  let s := s.setSteward h { (s.steward h).note (witnessWord e h 0) t with
    holder := true, epoch := e, renewals := 0, renewedAt := t, peerFenced := false, witnessLost := false }
  s.broadcastEpoch e

/-! Firmware images (R436 to R438) -/

def slotBytes : Nat := 2 ^ 25

/-- An image's header field (Table 14.6). -/
def imgField (m : Memory) (offset size : Nat) : Nat := readLE m offset size

/-- A boot image of a kind, laid out as Table 14.6 says, whose signature, key and code digest verify (R436, R437). -/
def imageVerifies (m : Memory) (kind size : Nat) (v : Verdict) : Bool :=
  decide (imgField m 0 1 = 1) && decide (imgField m 1 1 = kind) && decide (imgField m 2 1 ≤ 1) && decide (imgField m 3 1 = 0) &&
  decide (imgField m 12 4 = 0) && decide (4096 + imgField m 8 4 ≤ size) && v.signature && v.keyDigest && v.codeDigest

def imgVersion (m : Memory) : Nat := imgField m 4 4

/-- A firmware slot that may be run (R438). -/
def slotRuns (s : State) (b : Bool) (v : Verdict) : Bool :=
  let m := if b then s.flash.slotB else s.flash.slotA
  imageVerifies m 2 slotBytes v && decide (s.power.record.minFwVersion ≤ imgVersion m)

/-- The digest of the code of a slot, as measured (R444). -/
def slotDigest (s : State) (b : Bool) : Nat :=
  let m := if b then s.flash.slotB else s.flash.slotA
  (Config.sha3 ((readBytes m 4096 (imgField m 8 4)).map BitVec.toNat)).toNat

/-- The former holder restarts on the new image (R391). -/
def handOver (h : Half) (s : State) : State :=
  let x := s.steward h
  if stewardWorks s h then
    (s.setSteward h { x with holder := false, restarting := true, mirror := some [], firmwareDigest := slotDigest s (!x.slotB) }).setHub { s.hub with fwState := 4 }
  else s.setHub { s.hub with fwState := 6 }

/-- Consumption goes on, a stopped device runs again, and a steward-loss recovery ends (R380, R384). -/
def State.resumeService (s : State) : State :=
  let s := { s with moving := false }
  let s := if s.stopped then ({ s with stopped := false } : State).setReady true else s
  match s.recovering with
  | some r => if r.code = 0x4005 then { s with recovering := none } else s
  | none => s

/-- What follows a taking: stage 6 at start-up; the hand-over's next step; a steward-loss recovery ends, and a stopped device goes on. -/
def State.afterTaking (s : State) (h : Half) : State :=
  if s.power.stage = 5 then s.setPower { s.power with stage := 6 }
  else
    let s := if s.hub.fwState = 3 then
        handOver h.other s
      else s
    s.resumeService

/-- The steward reads the record, and swaps it where it may. -/
def witnessEffect (h : Half) (t : Nat) (s : State) : State :=
  let w := witness s
  if !witSound w then s.corruptRecord h t
  else if mayTake s h w t then (s.takeCharter h w t).afterTaking h
  else s.setSteward h ((s.steward h).note w t)

/-- CHARTER_TAKE: the steward reads the record, and swaps it where a case of R387 holds. -/
def execCharterTake (half : Half) (cw : List CWrite) (t : Nat) (s : State) : Result :=
  let s := (s.at t).companion cw
  .next (if s.power.powerGood && stewardWorks s half && !believesHolder s half && s.hub.witnessWritten && !(s.steward half).corruptWitness &&
      decide (5 ≤ s.power.stage) && decide (s.power.stage ≤ 7) then witnessEffect half t s else s)

/-- WITNESS_REREAD (R466). -/
def execWitnessReread (half : Half) (cw : List CWrite) (t : Nat) (s : State) : Result :=
  let s := (s.at t).companion cw
  let x := s.steward half
  .next (if stewardWorks s half && x.corruptWitness && decide (x.rereadAt + 10 * ms ≤ t) then
    (if witSound (witness s) then s.setSteward half (x.note (witness s) t) else s.corruptRecord half t)
    else s)

/-! ### Restarts (R384) and the hitless update (R391, R392, R436 to R438) -/

/-- HUB.STEWARD_RESTART's bit of a half. -/
def restartBit (v : Nat) : Half → Bool
  | .west => bit v 0
  | .east => bit v 1

def restartOne (v : Nat) (s : State) (h : Half) : State :=
  let x := s.steward h
  if restartBit v h && x.fenced && !x.withdrawn && !halfOut s h then s.setSteward h { x with restartRequested := true, restarting := true, mirror := some [] } else s

/-- STEWARD_RESTART. -/
def execStewardRestart (ep : Half) (value : Word64) (s : State) : Result :=
  .next (s.atEndpoint ep fun s => halves.foldl (restartOne value.toNat) (s.emit (.done ep)))

/-- A steward runs the firmware of a slot. -/
def State.runSlot (s : State) (h : Half) (b : Bool) : State :=
  let m := if b then s.flash.slotB else s.flash.slotA
  s.setSteward h { s.steward h with slotB := b, firmware := imgVersion m, firmwareDigest := slotDigest s b }

/-- The half whose steward holds the charter, west where none does. -/
def holderOrWest (s : State) : Half := (holderHalf s).getD .west

/-- An update runs (R391, R415). -/
def updating (s : State) : Bool := decide (1 ≤ s.hub.fwState) && decide (s.hub.fwState ≤ 4)

def fwStart (v : Verdict) (s : State) : State :=
  let h := (holderOrWest s).other
  if slotRuns s (!(s.steward h).slotB) v && stewardWorks s h then
    (s.setSteward h { s.steward h with restarting := true, mirror := some [], firmwareDigest := slotDigest s (!(s.steward h).slotB) }).setHub
      { s.hub with fwState := 2 }
  else s.setHub { s.hub with fwState := 6 }

/-- FW_UPDATE_START: the non-holder verifies the alternate slot and restarts on it. -/
def execFwUpdateStart (ep : Half) (value : Word64) (verdict : Verdict) (s : State) : Result :=
  .next (s.atEndpoint ep fun s =>
    let s := s.emit (.done ep)
    if bit value.toNat 0 && !updating s && charterHeld s && decide (s.power.stage = 7) then fwStart verdict s else s)

/-- A restarted steward is back, and copies the journal from the holder. -/
def State.stewardBack (s : State) (h : Half) (t : Nat) : State :=
  let s := s.setSteward h.other { s.steward h.other with peerFenced := false }
  s.setSteward h { s.steward h with restarting := false, restartRequested := false, fenced := false, holder := false, seen := false,
                                    heartbeatAt := t, corruptWitness := false, mirror := none }

/-- The steward restarted on the image it ran before, and the update has failed (R392). -/
def updateFails (h : Half) (t : Nat) (s : State) : State :=
  ((s.stewardBack h t).runSlot h (s.steward h).slotB).setHub { s.hub with fwState := 6 }

/-- The restart of a companion's request ends (R384). -/
def restartDone (h : Half) (passes : Bool) (t : Nat) (s : State) : State :=
  if passes then s.stewardBack h t
  else s.setSteward h { s.steward h with restarting := false, restartRequested := false }

/-- Step 3 of the update, for the non-holder, and steps 1 to 3 for the former holder. -/
def updateDone (h : Half) (passes : Bool) (v : Verdict) (t : Nat) (s : State) : State :=
  let b := !(s.steward h).slotB
  if s.hub.fwState = 2 then
    if passes then
      { ((s.stewardBack h t).runSlot h b).setHub { s.hub with fwState := 3 } with moving := true }
    else updateFails h t s
  else if s.hub.fwState = 4 then
    if passes && slotRuns s b v then ((s.stewardBack h t).runSlot h b).setHub { s.hub with fwState := 5 }
    else updateFails h t s
  else s.stewardBack h t

/-- STEWARD_RESTART_DONE. -/
def execStewardRestartDone (half : Half) (passes : Bool) (verdict : Verdict) (t : Nat) (s : State) : Result :=
  let s := s.at t
  let x := s.steward half
  .next (if !x.restarting then s
    else if x.restartRequested then restartDone half passes t s
    else updateDone half passes verdict t s)

end Sys2Proof.Machine
end

