-- ==== Sys2Proof/Machine/Clocks.lean ====
section
/-! DEFINITION. Exchange rates, companion time, sample marks and telemetry exports (R328 to R330, R453, R456 to R460). -/

namespace Sys2Proof.Machine

open Sys2Proof

/-- An island that a fence holds: its own, its region's, its half's, or its steward's. -/
def islandFenced (s : State) (b : Nat) : Bool :=
  (s.island b).fenced || (match regionOf b with
    | some r => regionFenced s r
    | none => halfOut s (halfOfBlock b)) || halves.any fun h => decide (b = stewardBlock h) && (s.steward h).fenced

/-- An island that is withdrawn for the rest of the service life (R374). -/
def islandWithdrawn (s : State) (b : Nat) : Bool :=
  (s.island b).withdrawn || (match regionOf b with
    | some r => (s.island (switchBlock r)).withdrawn
    | none => false) || halves.any fun h => decide (b = stewardBlock h) && (s.steward h).withdrawn

/-! ### Exchange rates (R329) -/

def companionBlock : Nat := 0xFFFF

/-- Blocks with an entry in a half's table: its own islands and the other half's hub. -/
def rateBlock (h : Half) (b : Nat) : Bool := validBlock b && (decide (halfOfBlock b = h) || decide (b = hubBlock h.other))

def rateOf (s : State) (h : Half) (b : Nat) : RateEntry := lookup {} (s.rates.get h) b

def State.setRate (s : State) (h : Half) (b : Nat) (e : RateEntry) : State :=
  { s with rates := s.rates.set h (put {} (s.rates.get h) b e) }

/-- Counts per hub cycle since the last refresh, with 24 fraction bits, rounded to nearest (log 33). -/
def rateBetween (e : RateEntry) (count hub : Nat) : Nat :=
  let dh := hub - e.hubCount
  if dh = 0 then e.rate else saturate 32 (((count - e.islandCount) * 2 ^ 25 + dh) / (2 * dh))

/-- An island's counter at a reading of the timer since its clock last changed (R328). -/
def countAt (s : State) (b t : Nat) : Nat := islandCount { s with now := t } b

/-- The entry of an island that answers a mark: its counter at the mark, paired with the midpoint of the hub's counts (R329). -/
def refreshRate (s : State) (h : Half) (b sent marked returned : Nat) : RateEntry :=
  let hub := hubBlock h
  let mid := (countAt s hub sent + countAt s hub returned) / 2
  let count := countAt s b marked
  { rate := rateBetween (rateOf s h b) count mid, islandCount := count, hubCount := mid,
    spread := saturate 16 ((countAt s hub returned - countAt s hub sent) / 2) }

/-- EXCHANGE_RATE_REFRESH: a mark that the hub sent at one reading of the timer, that reached the island at another, and that was answered at
`t`. A fenced island does not answer. -/
def execExchangeRateRefresh (half : Half) (block : Word16) (sent marked t : Nat) (s : State) : Result :=
  let b := block.toNat
  let s := s.at t
  guardWf (rateBlock half b && decide (sent ≤ marked) && decide (marked ≤ t))
    (.next (if s.power.powerGood && !halfOut s half && !islandFenced s b then s.setRate half b (refreshRate s half b sent marked t) else s))

/-- An island count in hub cycles (R330). -/
def toHub (e : RateEntry) (c : Nat) : Int := (e.hubCount : Int) + ((c : Int) - e.islandCount) * 2 ^ 24 / e.rate

/-! ### Companion time (R453) -/

def State.enterTime (s : State) (ep h : Half) (ns : Nat) : State :=
  let hub := islandCount s (hubBlock ep)
  let e := rateOf s h companionBlock
  s.setRate h companionBlock { rate := rateBetween e ns hub, islandCount := ns, hubCount := hub, spread := 2400 }

/-- COMPANION_TIME_WRITE. -/
def execCompanionTimeWrite (ep : Half) (timeNs : Word64) (t : Nat) (s : State) : Result :=
  .next ((s.at t).atEndpoint ep fun s =>
    let s := halves.foldl (fun s h => s.enterTime ep h timeNs.toNat) (s.emit (.done ep))
    { s with telemetry := { s.telemetry with companionNs := timeNs.toNat, companionAt := some t, stale := false } })

/-- COMPANION_TIME_STALE: no write for 100 ms. -/
def execCompanionTimeStale (t : Nat) (s : State) : Result :=
  let s := s.at t
  .next (if s.power.powerGood && decide (s.telemetry.companionAt.getD s.power.powerGoodAt + 100 * ms ≤ t) then
    { s with telemetry := { s.telemetry with stale := true } } else s)

/-! ### Sample marks (R456) -/

def locationsOf : Half → List Nat
  | .west => [0, 1, 4]
  | .east => [2, 3, 5]

/-- The entries of a half's table: its islands, the other half's hub, the companion (R329). -/
def tableBlocks (h : Half) : List Nat := (locationsOf h).flatMap blocksOf ++ [hubBlock h.other, companionBlock]

/-- An island latches its counters; a wrap is kept until it is exported. -/
def Island.latch (i : Island) (n stamp : Nat) : Island :=
  { i with latched := (i.counters.map fun p => (p.1, { p.2 with wrap := p.2.wrap || (lookup {} i.latched p.1).wrap })),
           counters := i.counters.map fun p => (p.1, { p.2 with wrap := false }), sample := n, stamp := stamp }

/-- SAMPLE_MARK: every 1 ms of the hub's reference timer, to every island of its half that is not fenced. -/
def execSampleMark (half : Half) (t : Nat) (s : State) : Result :=
  let s := s.at t
  .next (if s.power.powerGood && !halfOut s half then
    let n := s.telemetry.marks.get half + 1
    let s := { s with telemetry := { s.telemetry with marks := s.telemetry.marks.set half n } }
    ((locationsOf half).flatMap blocksOf).foldl (fun s b =>
      if islandFenced s b then s else s.setIsland b ((s.island b).latch n (islandCount s b))) s
  else s)

/-! ### Exports (R457 to R460) -/

/-- Counters that State does not keep: traffic in bytes and flits, ballast reads, re-converted tiles, the stacks' own reports, cycles
with issued work. An export holds a free value there (log 34). -/
def uncounted (kind slot : Nat) : Bool :=
  decide (slot = 9) || (match kind with
    | 0x00 => decide (slot = 4)
    | 0x01 => decide (slot = 2)
    | 0x04 => decide (slot < 4)
    | 0x06 => decide (slot = 0)
    | 0x11 => decide (slot < 2)
    | 0x13 => decide (slot = 3)
    | 0x16 => decide (slot < 3)
    | _ => false)

/-- The value of a counter slot, with its WRAP. -/
def slotValue (s : State) (restart : Bool) (b k : Nat) : Nat :=
  if uncounted (blockKind b) k then Config.undefinedCode s.free (16 * b + k) % 2 ^ 49
  else if decide (blockKind b = 0x13) && decide (k = 4) then (s.stack ((blockLocation b - 4) * 4 + blockIndex b)).rate
  else
    let c := lookup {} (s.island b).latched k
    c.value + 2 ^ 48 * ofBool (c.wrap && !restart)

/-- A telemetry record (Table 15.6). -/
def telemetryRecord (s : State) (restart : Bool) (b : Nat) : List Byte :=
  let i := s.island b
  let slot := fun k => field (128 + 64 * k) 49 (slotValue s restart b k)
  toLE 128 (field 0 16 b + field 16 1 (ofBool (islandFenced s b)) + field 17 1 (ofBool (islandWithdrawn s b)) + field 32 32 i.sample + field 64 64 i.stamp +
    ((List.range 14).map slot).sum)

/-- A count of the exporting hub as companion time (R330). -/
def toCompanion (e : RateEntry) (hub : Nat) : Nat := (e.islandCount + (hub - e.hubCount) * e.rate / 2 ^ 24) % 2 ^ 64

/-- The export's header (Table 15.5). -/
def telemetryHeader (n hub ns check : Nat) (stale restart : Bool) : List Byte :=
  toLE 64 (field 0 64 n + field 64 64 hub + field 128 64 ns + field 192 16 966 + field 208 1 (ofBool stale) + field 209 1 (ofBool restart) +
    field 224 32 check)

/-- Wraps that have been exported are cleared. -/
def Island.exported (i : Island) : Island := { i with latched := i.latched.map fun p => (p.1, { p.2 with wrap := false }) }

def exportTelemetry (t : Nat) (s : State) : State :=
  let m := s.telemetry
  let n := m.exports + 1
  let hub := islandCount s (hubBlock (reporter s))
  let records := allBlocks.flatMap (telemetryRecord s m.newBase)
  let base := s.hub.telemetryBase + 131072 * (n % 2)
  let s := s.poke (base + 64) records
  let s := s.poke base (telemetryHeader n hub (toCompanion (rateOf s (reporter s) companionBlock) hub) (crc32 records) m.stale m.newBase)
  { s with free := s.free + 1
           telemetry := { m with exports := n, exportedAt := t, newBase := false }
           islands := s.islands.map fun p => (p.1, p.2.exported) }

/-- TELEMETRY_EXPORT: every INTERVAL_MS ms into the next buffer. -/
def execTelemetryExport (t : Nat) (s : State) : Result :=
  let s := s.at t
  .next (if s.power.powerGood && decide (s.hub.telemetryInterval ≠ 0) && stewardServes s &&
      decide (s.telemetry.exportedAt + s.hub.telemetryInterval * ms ≤ t) then exportTelemetry t s else s)

end Sys2Proof.Machine
end

