-- ==== Sys2Proof/Machine/Dump.lean ====
section
/-! DEFINITION. The audit dump and its window (R334 to R339, R398, R449). -/

namespace Sys2Proof.Machine

open Sys2Proof

/-! ### Entries -/

/-- A fault record (Table 12.1). -/
def faultBytes (r : FaultRecord) : List Byte :=
  toLE 32 (field 0 16 r.code + field 16 16 r.source + field 32 8 r.sub + field 40 3 r.action + field 48 8 r.repeats + field 64 32 r.detail0 +
    field 96 32 r.detail1 + field 128 64 r.item + field 192 64 r.stamp)

/-- Waiters of a tally: those of its queue, then those the steward holds for it (R322, R338). -/
def waitersOf (s : State) (h : Nat) (t : Tally) : List Waiter :=
  t.queue ++ ((heldOf s t.region).filter fun p => decide (p.1 = h)).map Prod.snd

/-- A tally record (Table 10.1). -/
def tallyBytes (t : Tally) (waiters : List Waiter) : List Byte :=
  toLE 64 (field 0 32 t.count + field 32 32 t.countC + field 64 32 t.capacity + field 96 6 t.account + field 102 2 t.state + field 104 16 t.number +
    field 128 32 waiters.length + field 160 32 ((waiters.map fun w => w.m).headD 0) + field 192 64 t.signals + field 256 16 t.lastFault +
    field 288 64 t.lastStamp)

/-- Waiter and history entries (Table 10.9). -/
def waiterBytes (w : Waiter) : List Byte :=
  toLE 16 (field 0 64 w.item + field 64 32 w.m + field 96 1 (ofBool w.waitSlip) + field 97 1 (ofBool w.held))
def historyBytes (e : SignalEntry) : List Byte :=
  toLE 32 (field 0 64 e.item + field 64 32 e.n + field 96 16 e.source + field 112 1 (ofBool e.refused) + field 128 64 e.stamp + field 192 32 e.count)

def zeros (n : Nat) : List Byte := List.replicate n 0
def padTo (unit : Nat) (l : List Byte) : List Byte := l ++ zeros (roundUp l.length unit - l.length)

/-- A tally block (R338). -/
def tallyBlockBytes (s : State) (h : Nat) (t : Tally) : List Byte :=
  let w := waitersOf s h t
  tallyBytes t w ++ padTo 64 (w.flatMap waiterBytes) ++ t.history.flatMap historyBytes ++ zeros (32 * (10 - t.history.length))

/-- A journal entry (Table 12.3). -/
def journalBytes (id : Nat) (x : Item) : List Byte :=
  toLE 64 (field 0 64 id + field 64 6 x.account + field 72 8 x.ring + field 80 32 x.slipIndex + field 112 8 x.family + field 120 8 x.opcode +
    field 128 3 x.stage + field 131 2 x.recoveries + field 144 16 x.fault + field 160 8 x.status + field 176 16 x.flags + field 192 32 x.doneUnits +
    field 224 32 x.producer + field 256 64 x.progress + field 320 64 x.context + field 384 64 x.epoch + field 448 64 (onesComplement 64 x.epoch))

/-- A ticket record (Table 9.5). -/
def ticketBytes (id : Nat) (t : Ticket) : List Byte :=
  toLE 64 (field 0 32 t.ticket + field 32 32 t.ticketC + field 64 6 t.account + field 70 2 t.role + field 72 8 t.group + field 80 20 t.owner +
    field 100 1 (ofBool t.ring) + field 101 1 (ofBool t.distribute) + field 102 1 (ofBool t.toDeputy) + field 103 1 (ofBool t.transitF4) +
    field 104 8 (twos 8 t.scaleExp) + field 112 21 t.contributors + field 133 21 t.granted + field 154 21 t.finished + field 175 2 t.state +
    field 192 64 id + field 256 32 t.serial + field 288 32 (saturate 32 t.poisonCount) + field 320 32 t.firstPoison +
    field 352 32 (saturate 32 t.dustCount))

/-- An exchange-rate entry (Table 10.4). -/
def rateBytes (b : Nat) (e : RateEntry) : List Byte :=
  toLE 32 (field 0 16 b + field 32 32 e.rate + field 64 64 e.islandCount + field 128 64 e.hubCount + field 192 16 e.spread)

/-! ### Sections (Table 10.8) -/

structure Section where
  type : Nat
  source : Nat
  entries : Nat
  bytes : List Byte
  deriving DecidableEq, Repr

/-- A steward's copy of the journal: the journal itself, or what it held when it was fenced or restarted (R32). -/
def journalOf (s : State) (h : Half) : Table Item := (s.steward h).mirror.getD s.items

/-- Every section of a dump, by type and then by source (log 33). -/
def sectionsOf (s : State) : List Section :=
  (s.islands.filter fun p => decide (p.2.faults ≠ [])).map (fun p =>
    { type := 1, source := p.1, entries := p.2.faults.length, bytes := p.2.faults.flatMap faultBytes }) ++
  (List.range 4).map (fun r => let l := s.tallies.filter fun p => decide (p.2.region = r) && decide (1 ≤ p.2.state)
    { type := 2, source := tallyBlock r, entries := l.length, bytes := l.flatMap fun p => tallyBlockBytes s p.1 p.2 }) ++
  halves.map (fun h => let l := journalOf s h
    { type := 3, source := stewardBlock h, entries := l.length, bytes := l.flatMap fun p => journalBytes p.1 p.2 }) ++
  halves.map (fun h => let l := s.tickets.filter fun p => decide (p.2.half = h)
    { type := 4, source := engineBlock h, entries := l.length, bytes := l.flatMap fun p => ticketBytes p.1 p.2 }) ++
  halves.map (fun h =>
    { type := 5, source := stewardBlock h, entries := (tableBlocks h).length, bytes := (tableBlocks h).flatMap fun b => rateBytes b (rateOf s h b) }) ++
  (List.range 168).map fun a => let l := (s.aab a).descriptors
    { type := 6, source := aabBlock a, entries := l.length, bytes := l.flatMap (toLE 32) }

/-- Sections laid out from an offset, each at a multiple of 64 bytes: the directory and the bytes. -/
def layOut (s : State) : Nat → List Section → List Byte × List Byte
  | _, [] => ([], [])
  | off, x :: rest =>
    let body := padTo 64 x.bytes
    let r := layOut s (off + body.length) rest
    (toLE 32 (field 0 8 x.type + field 16 16 x.source + field 32 32 x.entries + field 64 64 off + field 128 64 (islandCount s x.source)) ++ r.1, body ++ r.2)

/-- A dump's bytes (Tables 10.6 and 10.7). -/
def dumpBytes (s : State) (number reason trigger : Nat) : List Byte :=
  let secs := sectionsOf s
  let first := roundUp (64 + 32 * secs.length) 64
  let r := layOut s first secs
  let body := r.1 ++ zeros (first - 64 - 32 * secs.length) ++ r.2
  let e := hubEpoch s
  toLE 64 (field 0 8 1 + field 8 8 reason + field 16 16 secs.length + field 64 64 number + field 128 20 s.hub.moduleId + field 160 16 trigger +
    field 192 64 e + field 256 64 (onesComplement 64 e) + field 320 64 (64 + body.length) + field 384 32 (crc32 body)) ++ body

/-- The two most recent dumps are kept, older first (R339). -/
def State.takeDump (s : State) (reason trigger : Nat) : State :=
  let n := s.dumpCount + 1
  let d : Dump := { number := n, reason := reason, trigger := trigger, bytes := dumpBytes s n reason trigger }
  { s with dumpCount := n, dumps := (s.dumps ++ [d]).drop (s.dumps.length - 1) }

/-- AUDIT_DUMP: events in the order they came, then the companion's request (R334, R449). -/
def execAuditDump (t : Nat) (s : State) : Result :=
  let s := s.at t
  .next (if !s.power.powerGood then s
    else match s.dumpDue with
      | (reason, code) :: rest => ({ s with dumpDue := rest } : State).takeDump reason code
      | [] => if s.hub.dumpRequest then (s.setHub { s.hub with dumpRequest := false }).takeDump 1 0 else s)

/-! ### HUB.DUMP_CONTROL and the window -/

/-- A write of HUB.DUMP_CONTROL: REQUEST is set by 1, OLDER takes its value. -/
def State.writeDumpControl (s : State) (v : Nat) : State :=
  s.setHub { s.hub with dumpRequest := s.hub.dumpRequest || bit v 0, dumpOlder := bit v 2 }

def dumpControl (ep : Half) (value : Word64) (s : State) : State :=
  s.atEndpoint ep fun s => (s.emit (.done ep)).writeDumpControl value.toNat

/-- DUMP_REQUEST. -/
def execDumpRequest (ep : Half) (value : Word64) (s : State) : Result :=
  guardWf (bit value.toNat 0) (.next (dumpControl ep value s))

/-- DUMP_SELECT_OLDER. -/
def execDumpSelectOlder (ep : Half) (value : Word64) (s : State) : Result :=
  guardWf (!bit value.toNat 0) (.next (dumpControl ep value s))

/-- The dump that the window presents: the newer of the two, or the older (R339). -/
def presented (s : State) : Option Dump :=
  match s.dumps with
  | [] => none
  | [d] => if s.hub.dumpOlder then none else some d
  | d :: e :: _ => if s.hub.dumpOlder then some d else some e

/-- A read within one page of a window area (R398). -/
def pageAccess (offset size area : Nat) : Bool :=
  decide (1 ≤ size) && decide (size ≤ 4096) && decide (offset % 4096 + size ≤ 4096) && decide (offset + size ≤ area)

/-- A byte of the window; beyond the dump it is unstated (log 16). -/
def windowByte (s : State) (i : Nat) : Byte :=
  match presented s with
  | some d => d.bytes.getD i (BitVec.ofNat 8 (Config.undefinedCode s.free i))
  | none => BitVec.ofNat 8 (Config.undefinedCode s.free i)

/-- DUMP_WINDOW_READ. -/
def execDumpWindowRead (ep : Half) (offset size : Nat) (s : State) : Result :=
  guardWf (pageAccess offset size (2 ^ 28))
    (.next (s.atEndpoint ep fun s =>
      ({ s with free := s.free + 1 } : State).emit (.data ep ((List.range size).map fun k => windowByte s (offset + k)))))

end Sys2Proof.Machine
end

