-- ==== Sys2Proof/Machine/Registers.lean ====
section
/-! DEFINITION. The set-up registers and the rest of the SCL window: what a read returns, writes, ignored writes, RETRY, ERROR, the
flash window and snoops (R10, R397 to R401, R415, R431, R446 to R450). -/

namespace Sys2Proof.Machine

open Sys2Proof

/-! ### The map (Tables 13.2, 15.1) -/

/-- Steward-served registers: every one that is not hub-served (R446). -/
def stewardRegisters : List Nat :=
  [regModuleId, regRingTableBase, regAccountTableBase, regAccountCommand, regQuantum, regBackground, regTelemetryBase, regTelemetryControl,
   regVfEtherType, regVfVlan, regVfMacPrefix] ++ (List.range 32).map regVfPortPhy

def hubRegisters : List Nat :=
  [regIdentity, regSerial, regAwcVersions, regVksVersions, regBootStatus, regCharterEpoch, regLoadError, regWitnessBase, regBellBase, regDumpBase,
   regDumpControl, regCompanionTime, regStewardRestart, regFwControl, regAccountStatus, regSpdmW, regSpdmE]

/-- The four mailbox buffers. -/
def bufferOffset (offset : Nat) : Bool := decide (0x2000 ≤ offset) && decide (offset < 0x6000)

def bellArea (offset : Nat) : Bool := decide (0x10_0000 ≤ offset) && decide (offset < 0x20_0000)
def flashArea (offset : Nat) : Bool := decide (0x100_0000 ≤ offset) && decide (offset < 0x300_0000)
def dumpArea (offset : Nat) : Bool := decide (0x1000_0000 ≤ offset) && decide (offset < 0x2000_0000)
def windowBytes : Nat := 2 ^ 30

/-- An aligned 8-byte access that names a register or a word of a buffer (R398). -/
def registerAccess (offset size : Nat) : Bool :=
  decide (size = 8) && decide (offset % 8 = 0) && (stewardRegisters.contains offset || hubRegisters.contains offset || bufferOffset offset)

/-- An access that is answered as one at a reserved offset: an unlisted offset, a register area access that is not 8 aligned bytes,
a read or a misshapen write of the flash window, a write of the dump window, and a read of a bell page, which returns zeros at any size and
offset (R48, R397, R398). -/
def reservedAccess (offset size : Nat) (write : Bool) : Bool :=
  if registerAccess offset size then false
  else if bellArea offset then !write
  else if flashArea offset then !write || !(decide (offset % 64 = 0) && decide (size % 64 = 0))
  else if dumpArea offset then write
  else true

/-! ### Reads (Tables 15.2, 15.3) -/

def holderBits (s : State) : Nat :=
  match holderHalf s with
  | some h => field 9 1 (match h with | .west => 0 | .east => 1) + field 10 1 (ofBool (leaseRuns s h))
  | none => 0

/-- The state of a port's register (Table 15.3). -/
def portWord (p : Port) : Nat := field 0 3 p.phy + field 3 1 (ofBool p.highLanes) + field 4 1 (ofBool p.fullWidth) + field 8 3 p.state

/-- HUB.SPDM_CONTROL_W and _E. -/
def mailWord (m : Mailbox) : Nat := field 0 13 m.requestLength + field 14 1 (ofBool m.done) + field 16 13 m.responseLength

/-- What a read of a register returns, once it is served. The bits that a write sets to start an operation (HUB.SPDM_CONTROL.GO,
HUB.FW_CONTROL.START) read 0 at once after it: Table 15.2 says no moment (DESIGN CHOICE, log 85). -/
def registerValue (s : State) (offset : Nat) : Nat :=
  let h := s.hub
  if offset = regIdentity then field 0 8 s.power.record.product + field 8 16 s.power.record.sku + field 24 10 s.power.record.hbmGib + field 34 10 (fittedGib s)
  else if offset = regSerial then s.power.record.serial
  else if offset = regModuleId then h.moduleId
  else if offset = regAwcVersions then 3 + field 4 16 7
  else if offset = regVksVersions then 1 + field 4 16 3
  else if offset = regBootStatus then field 0 8 s.power.stage + field 8 1 (ofBool s.power.readyPin) + holderBits s +
    field 11 1 (ofBool s.stewards.west.fenced) + field 12 1 (ofBool s.stewards.east.fenced)
  else if offset = regCharterEpoch then hubEpoch s
  else if offset = regLoadError then field 0 8 h.loadErrorRing + field 8 8 h.loadErrorCode + field 32 32 h.loadErrorCount
  else if offset = regWitnessBase then h.witnessBase
  else if offset = regBellBase then Config.windowBase + 0x0010_0000
  else if offset = regDumpBase then Config.windowBase + 0x1000_0000
  else if offset = regDumpControl then field 0 1 (ofBool h.dumpRequest) + field 2 1 (ofBool h.dumpOlder) +
    field 3 1 (ofBool (presented s).isSome) + field 32 32 (match presented s with
      | some d => d.number
      | none => 0)
  else if offset = regStewardRestart then field 0 1 (ofBool s.stewards.west.restartRequested) + field 1 1 (ofBool s.stewards.east.restartRequested)
  else if offset = regFwControl then field 1 3 h.fwState + field 32 32 (s.steward (holderOrWest s)).firmware
  else if offset = regRingTableBase then h.ringTableBase
  else if offset = regAccountTableBase then h.accountTableBase
  else if offset = regAccountStatus then field 0 8 h.accountResult + field 8 8 h.accountCommand + field 16 6 h.accountNumber + field 32 32 h.accountCount
  else if offset = regQuantum then h.quantum
  else if offset = regBackground then field 0 3 h.sramScrub + field 8 5 h.hbmScrub
  else if offset = regTelemetryBase then h.telemetryBase
  else if offset = regTelemetryControl then h.telemetryInterval
  else if offset = regVfEtherType then h.etherType
  else if offset = regVfVlan then field 0 12 h.vlanId + field 12 3 h.vlanPcp + field 15 1 (ofBool h.vlanEnable)
  else if offset = regVfMacPrefix then h.macPrefix
  else if offset = regSpdmW then mailWord s.mail.west
  else if offset = regSpdmE then mailWord s.mail.east
  else
    match (List.range 32).find? fun p => decide (regVfPortPhy p = offset) with
    | some p => portWord (s.port p)
    | none => 0

/-! ### Writes without behaviour of their own (R448) -/

/-- No peer context is open (Table 15.3). -/
def noContext (s : State) : Bool := s.peers.all fun p => !p.2.sendOpen && !p.2.recvOpen

/-- The hub registers after a write of a steward-served register, or none where the write breaks its condition. -/
def storedHub (s : State) (offset v : Nat) : Option HubRegs :=
  let h := s.hub
  if offset = regModuleId then (if s.accounts = [] then some { h with moduleId := bits v 19 0 } else none)
  else if offset = regRingTableBase then some { h with ringTableBase := bits v 63 12 * 2 ^ 12 }
  else if offset = regAccountTableBase then some { h with accountTableBase := bits v 63 12 * 2 ^ 12 }
  else if offset = regQuantum then (if 2 ≤ bits v 5 0 ∧ bits v 5 0 ≤ 32 then some { h with quantum := bits v 5 0 } else none)
  else if offset = regBackground then
    (if 1 ≤ bits v 2 0 ∧ bits v 2 0 ≤ 6 ∧ 1 ≤ bits v 12 8 ∧ bits v 12 8 ≤ 24 then some { h with sramScrub := bits v 2 0, hbmScrub := bits v 12 8 }
     else none)
  else if offset = regTelemetryBase then some { h with telemetryBase := bits v 63 18 * 2 ^ 18 }
  else if offset = regTelemetryControl then (if bits v 9 0 ≤ 1000 then some { h with telemetryInterval := bits v 9 0 } else none)
  else if offset = regVfEtherType then (if noContext s then some { h with etherType := bits v 15 0 } else none)
  else if offset = regVfVlan then
    (if noContext s then some { h with vlanId := bits v 11 0, vlanPcp := bits v 14 12, vlanEnable := bit v 15 } else none)
  else if offset = regVfMacPrefix then (if noContext s && !bit v 8 then some { h with macPrefix := bits v 15 0 } else none)
  else some h

/-- An interval that changes from 0 makes the next export a new base, one interval from now (R459). -/
def State.storeHub (s : State) (h : HubRegs) : State :=
  let s' := s.setHub h
  if s.hub.telemetryInterval = 0 ∧ h.telemetryInterval ≠ 0 then
    { s' with telemetry := { s.telemetry with newBase := true, exportedAt := s.now } }
  else s'

/-- A write of 8 bytes of a buffer: the request buffers are written, the response buffers are read only. -/
def State.writeBuffer (s : State) (offset v : Nat) : State :=
  if offset < 0x3000 then { s with mail := { s.mail with west := { s.mail.west with request := writeLE s.mail.west.request (offset - 0x2000) 8 v } } }
  else if 0x4000 ≤ offset ∧ offset < 0x5000 then
    { s with mail := { s.mail with east := { s.mail.east with request := writeLE s.mail.east.request (offset - 0x4000) 8 v } } }
  else s

/-- The whole effect of a write of a hub-served register or buffer without behaviour of its own. -/
def State.writeHubRegister (s : State) (offset v : Nat) : State :=
  if offset = regSpdmW then { s with mail := { s.mail with west := { s.mail.west with requestLength := bits v 12 0 } } }
  else if offset = regSpdmE then { s with mail := { s.mail with east := { s.mail.east with requestLength := bits v 12 0 } } }
  else if bufferOffset offset then s.writeBuffer offset v
  else s

/-- Offsets whose writes have commands of their own. -/
def ownCommand (offset v : Nat) : Bool :=
  [regWitnessBase, regDumpControl, regCompanionTime, regStewardRestart, regFwControl, regAccountCommand].contains offset ||
  ((List.range 32).map regVfPortPhy).contains offset || ((decide (offset = regSpdmW) || decide (offset = regSpdmE)) && bit v 13)

def registerWrite (ep : Half) (offset v : Nat) (s : State) : State :=
  if stewardRegisters.contains offset then
    if stewardServes s then
      match storedHub s offset v with
      | some h => (s.emit (.done ep)).storeHub h
      | none => (s.emit (.done ep)).countIgnoredWrite ep
    else s.emit (.retry ep)
  else (s.emit (.done ep)).writeHubRegister offset v

/-- REGISTER_WRITE. -/
def execRegisterWrite (ep : Half) (offset : Nat) (value : Word64) (s : State) : Result :=
  guardWf (registerAccess offset 8 && !ownCommand offset value.toNat)
    (.next (s.atEndpoint ep (registerWrite ep offset value.toNat)))

/-- WITNESS_BASE_WRITE: accepted once after each power good (R431). -/
def execWitnessBaseWrite (ep : Half) (value : Word64) (s : State) : Result :=
  .next (s.atEndpoint ep fun s =>
    let s := s.emit (.done ep)
    if s.hub.witnessWritten then s.countIgnoredWrite ep
    else s.setHub { s.hub with witnessBase := bits value.toNat 63 5 * 32, witnessWritten := true })

/-- REGISTER_RETRY: a steward-served register while no steward can serve it (R401, R431). -/
def execRegisterRetry (ep : Half) (offset : Nat) (write : Bool) (s : State) : Result :=
  let _ := write
  let served := if offset = regAccountCommand then commandsTaken s else stewardServes s
  guardWf (stewardRegisters.contains offset)
    (.next (s.atEndpoint ep fun s => if served then s else s.emit (.retry ep)))

/-! ### Errors and reserved offsets (R397, R398) -/

/-- Companion request types of Table 13.3, in this model's numbers: 0 READ, 1 WRITE, 2 SNOOP (log 21). -/
def requestError (type : Byte) (offset size : Nat) : Bool :=
  decide (3 ≤ type.toNat) || decide (4096 < size) || decide (4096 < offset % 4096 + size)

/-- COMPANION_REQUEST_ERROR. -/
def execCompanionRequestError (ep : Half) (type : Byte) (offset size : Nat) (s : State) : Result :=
  guardWf (requestError type offset size) (.next (s.atEndpoint ep fun s => s.emit (.error ep)))

/-- RESERVED_OFFSET_ACCESS: a read returns zeros, a write is answered DONE, ignored and counted. -/
def execReservedOffsetAccess (ep : Half) (offset size : Nat) (write : Bool) (s : State) : Result :=
  guardWf (pageAccess offset size windowBytes && reservedAccess offset size write)
    (.next (s.atEndpoint ep fun s =>
      if write then (s.emit (.done ep)).countIgnoredWrite ep else s.emit (.data ep (zeros size))))

/-! ### The flash window (R415) -/

/-- The slot that is not in use is slot B. -/
def alternateIsB (s : State) : Bool := !(s.steward (holderOrWest s)).slotB

def State.writeSlot (s : State) (offset : Nat) (bytes : List Byte) : State :=
  let f := s.flash
  { s with flash := if alternateIsB s then { f with slotB := writeBytes f.slotB offset bytes } else { f with slotA := writeBytes f.slotA offset bytes } }

def flashWriteOk (offset size : Nat) : Bool :=
  decide (offset % 64 = 0) && decide (size % 64 = 0) && pageAccess offset size slotBytes

/-- FLASH_WINDOW_WRITE. -/
def execFlashWindowWrite (ep : Half) (offset : Nat) (bytes : List Byte) (s : State) : Result :=
  guardWf (flashWriteOk offset bytes.length)
    (.next (s.atEndpoint ep fun s =>
      if updating s then s.emit (.retry ep) else (s.writeSlot offset bytes).emit (.done ep)))

/-! ### Snoops (R399) -/

/-- A line that the device's last write covers. -/
def lineWritten (s : State) (line : Nat) : Bool := match s.lastWrite with
  | some (a, n) => decide (a < line + 64) && decide (line < a + n)
  | none => false

/-- SNOOP: a line still held is answered when the hold ends, as the transaction left it; any other INVALID. -/
def execSnoop (ep : Half) (line : Nat) (s : State) : Result :=
  guardWf (decide (line % 64 = 0))
    (.next (s.atEndpoint ep fun s =>
      if lineWritten s line && Config.stillHeld s.free then
        ({ s with free := s.free + 1, lastWrite := none } : State).emit (.data ep (readBytes s.cmem line 64))
      else ({ s with free := s.free + 1, lastWrite := none } : State).emit (.invalid ep)))

end Sys2Proof.Machine
end

