-- ==== Sys2Proof/Machine/Links.lean ====
section
/-! DEFINITION. SCL links and VF ports: replay, width, clocks, PHYs and training (R394 to R396, R403, R404). -/

namespace Sys2Proof.Machine

open Sys2Proof

/-! ### SCL endpoints -/

def laneCount (lanes : Nat) : Nat := ((List.range 12).filter (bit lanes)).length

/-- The width that some working lanes carry (R395). -/
def widthOf (n : Nat) : Nat := if n = 12 then 12 else if 8 ≤ n then 8 else if 4 ≤ n then 4 else 0

/-- An endpoint whose link has trained, in a half in service: it may be down. -/
def linkPresent (s : State) (ep : Half) : Bool := s.power.powerGood && !halfOut s ep && decide ((s.links.get ep).trained = true)

/-- A change of an endpoint's link, its width changes counted. -/
def State.changeLink (s : State) (ep : Half) (l : Link) : State :=
  let old := (s.links.get ep).width
  let s := s.setLink ep l
  if l.width = old then s else s.bump (endpointBlock ep) 3 1

/-- SCL_FLIT_CRC_FAILURE: the receiver asks for replay from the failed flit (R394). -/
def execSclFlitCrcFailure (ep : Half) (sequence : BitVec 12) (s : State) : Result :=
  .next (s.atEndpoint ep fun s =>
    ((s.setLink ep { s.links.get ep with replayFrom := some sequence.toNat }).bump (endpointBlock ep) 2 1).emit (.replayRequest ep sequence.toNat))

/-- SCL_LANE_FAILURE: the endpoint drops in width and replays every flit in flight (R395). -/
def execSclLaneFailure (ep : Half) (lane : Fin 12) (s : State) : Result :=
  let l := s.links.get ep
  .next (if linkPresent s ep && bit l.lanes lane.val then
    let lanes := l.lanes - 2 ^ lane.val
    (s.changeLink ep { l with lanes := lanes, width := min l.width (widthOf (laneCount lanes)) }).emit (.replay ep)
  else s)

/-- SCL_WIDTH_RETRY: every 10 minutes a narrowed endpoint tries its full width (R395). -/
def execSclWidthRetry (ep : Half) (lanesWorking : BitVec 12) (t : Nat) (s : State) : Result :=
  let s := s.at t
  let l := s.links.get ep
  .next (if linkPresent s ep && decide (l.width < 12) && decide (l.retryAt + retestNs ≤ t) then
    (if lanesWorking.toNat = 0xFFF then s.changeLink ep { l with lanes := 0xFFF, width := 12, retryAt := t }
     else s.setLink ep { l with retryAt := t })
  else s)

/-- SCL_REFCLK_LOSS: the reference timer counts the on-die oscillator (R396). -/
def execSclRefclkLoss (ep : Half) (s : State) : Result :=
  let l := s.links.get ep
  .next (if s.power.powerGood && !halfOut s ep && !l.oscillator then
    (s.setLink ep { l with oscillator := true }).bump (endpointBlock ep) 4 1
  else s)

/-! ### VF ports (R403, R404, Table 15.3) -/

def phyWide (phy : Nat) : Bool := decide (1 ≤ phy) && decide (phy ≤ 3)
def phyNarrow (phy : Nat) : Bool := decide (4 ≤ phy) && decide (phy ≤ 6)

/-- The port trains, or is disabled. -/
def Port.retrain (p : Port) : Port := { p with state := if p.phy = 0 then 0 else 1 }

/-- A write of HUB.VF_PORT_PHYp that is not turned away. -/
def Port.write (p : Port) (v : Nat) : Port :=
  let phy := bits v 2 0
  let high := bit v 3
  let q : Port := { p with phy := phy, highLanes := high, fullWidth := p.fullWidth || bit v 4 }
  if phy ≠ p.phy then ({ q with narrowed := false, lanesFailed := [] } : Port).retrain
  else if decide (high ≠ p.highLanes) && phyNarrow phy then q.retrain
  else if bit v 4 && p.narrowed then ({ q with narrowed := false, lanesFailed := [] } : Port).retrain
  else q

def writePort (ep : Half) (port v : Nat) (s : State) : State :=
  if !stewardServes s then s.emit (.retry ep)
  else
    let s := s.emit (.done ep)
    if bits v 2 0 = 7 then s.countIgnoredWrite ep
    else
      let q := (s.port port).write v
      let s' := s.setPort port q
      if q.state = 1 ∧ (s.port port).state ≠ 1 then s'.bump (vfPortBlock port) 5 1 else s'

/-- VF_PORT_PHY_WRITE. -/
def execVfPortPhyWrite (ep : Half) (port : BitVec 5) (value : Word64) (s : State) : Result :=
  .next (s.atEndpoint ep (writePort ep port.toNat value.toNat))

/-- VF_FULL_WIDTH_REQUEST. -/
def execVfFullWidthRequest (ep : Half) (port : BitVec 5) (value : Word64) (s : State) : Result :=
  guardWf (bit value.toNat 4) (.next (s.atEndpoint ep (writePort ep port.toNat value.toNat)))

/-- VF_LANE_FAILURE: a 1.6 Tb/s port retrains on the four lanes without the failed one; an 800 Gb/s port whose lane fails is down. -/
def execVfLaneFailure (port : BitVec 5) (lane : BitVec 3) (s : State) : Result :=
  let p := s.port port.toNat
  let high := decide (lane.toNat < 4)
  .next (if !s.power.powerGood || halfOut s (halfOfPort port.toNat) then s
    else if p.state = 2 then
      (s.setPort port.toNat { p with state := 1, narrowed := true, lanesFailed := insertNat p.lanesFailed lane.toNat }).bump
        (vfPortBlock port.toNat) 5 1
    else if p.state = 3 then
      let onHigh := if p.narrowed then p.lanesFailed.any fun l => decide (l < 4) else p.highLanes
      if onHigh = high then s.setPort port.toNat { p with lanesFailed := insertNat p.lanesFailed lane.toNat }
      else s.setPort port.toNat { p with state := 4, lanesFailed := insertNat p.lanesFailed lane.toNat }
    else s)

/-- VF_TRAINING_DONE: the port comes up, and FULL_WIDTH clears. -/
def execVfTrainingDone (port : BitVec 5) (s : State) : Result :=
  let p := s.port port.toNat
  .next (if s.power.powerGood && !halfOut s (halfOfPort port.toNat) && decide (p.state = 1) then
    s.setPort port.toNat { p with state := if phyWide p.phy && !p.narrowed then 2 else 3, fullWidth := false }
  else s)

end Sys2Proof.Machine
end

