-- ==== Sys2Proof/Machine/Attest.lean ====
section
/-! DEFINITION. The SPDM responders and their mailboxes (R441 to R445, R450), and the I3C target (R413, R461, R462). -/

namespace Sys2Proof.Machine

open Sys2Proof

/-! ### Measurements (R444) -/

def digestOf (m : Memory) (start n : Nat) : BitVec 256 := Config.sha3 ((readBytes m start n).map BitVec.toNat)

/-- The code of a half's boot loader, as verified. -/
def loaderDigest (s : State) : Half → BitVec 256
  | .west => digestOf s.flash.loaderW 4096 (readLE s.flash.loaderW 8 4)
  | .east => digestOf s.flash.loaderE 4096 (readLE s.flash.loaderE 8 4)

/-- The configuration record in use, whole. -/
def recordDigest (r : ConfigRecord) : BitVec 256 :=
  Config.sha3 ([r.format, r.product, r.sku, r.hbmGib, r.keyIndex, r.serial, r.recordVersion, r.minFwVersion, r.length, r.certWLength, r.certELength,
    r.helperLength] ++ r.certW.map BitVec.toNat ++ r.certE.map BitVec.toNat)

/-- Blocks 1 to 7 of Table 14.9, with the half whose fence omits each. -/
def measurementTable (s : State) : List (Option Half × Measurement) :=
  [(some .west, ⟨1, .immutableRom, Config.sha3 (Config.bootRom 0)⟩), (some .east, ⟨2, .immutableRom, Config.sha3 (Config.bootRom 1)⟩),
   (some .west, ⟨3, .mutableFirmware, loaderDigest s .west⟩), (some .east, ⟨4, .mutableFirmware, loaderDigest s .east⟩),
   (some .west, ⟨5, .mutableFirmware, BitVec.ofNat 256 (s.steward .west).firmwareDigest⟩),
   (some .east, ⟨6, .mutableFirmware, BitVec.ofNat 256 (s.steward .east).firmwareDigest⟩),
   (none, ⟨7, .hardwareConfiguration, recordDigest s.power.record⟩)]

/-- The blocks a responder reports: without those of a fenced other half. -/
def measurementsOf (s : State) (side : Half) : List Measurement :=
  ((measurementTable s).filter fun m => !(decide (m.1 = some side.other) && halfOut s side.other)).map Prod.snd

/-- The half's chain from the record (Table 14.8). -/
def chainOf (s : State) : Half → List Byte
  | .west => s.power.record.certW
  | .east => s.power.record.certE

/-! ### Responders (R443, R450) -/

/-- SPDM error codes of DMTF (log 23). -/
def errUnspecified : Nat := 5
def errUnsupported : Nat := 7

/-- A responder has the request, of the REQUEST_LENGTH that the write of GO stores, and the response is written (R10, R450). -/
def respond (ep side : Half) (length : Nat) (f : State → List Byte → SpdmResponse) (s : State) : State :=
  let s := s.emit (.done ep)
  let m : Mailbox := { s.mail.get side with requestLength := length }
  let s := { s with mail := s.mail.set side m }
  if halfOut s side then s
  else if m.requestLength = 0 ∨ 4096 < m.requestLength then { s with mail := s.mail.set side { m with done := true, responseLength := 0 } }
  else
    let captured := readBytes m.request 0 m.requestLength
    let r := f s captured
    let mismatch := decide (r = .error errUnspecified)
    let s := (s.bump (hubBlock side) 1 1).bump (hubBlock side) 0 (ofBool mismatch)
    { s with free := s.free + 1
             mail := s.mail.set side { m with captured := captured, response := r, done := true, responseLength := min 4096 (Config.spdmLength s.free) } }

/-- A GO for a responder through an endpoint. -/
def spdm (ep : Half) (go : SpdmGo) (f : State → List Byte → SpdmResponse) (s : State) : Result :=
  .next (s.atEndpoint ep (respond ep go.side go.length.toNat f))

def execSpdmGetVersion (ep : Half) (go : SpdmGo) (s : State) : Result := spdm ep go (fun _ _ => .version 1 3) s
def execSpdmGetCapabilities (ep : Half) (go : SpdmGo) (s : State) : Result := spdm ep go (fun _ _ => .capabilities true true 2 true 4096 4096) s
/-- SHA3-256 twice, and ML-DSA-44 as the extended algorithm 0x0044 of registry 0 (Table 14.8). -/
def execSpdmNegotiateAlgorithms (ep : Half) (go : SpdmGo) (s : State) : Result := spdm ep go (fun _ _ => .algorithms 256 256 0x0044 0) s
def execSpdmGetDigests (ep : Half) (go : SpdmGo) (s : State) : Result :=
  spdm ep go (fun s _ => .digests (Config.sha3 ((chainOf s go.side).map BitVec.toNat))) s
def execSpdmGetCertificate (ep : Half) (go : SpdmGo) (s : State) : Result := spdm ep go (fun s _ => .certificate 0 (chainOf s go.side)) s

/-- What a signature covers: the request and the measurements in force. -/
def signedOver (s : State) (side : Half) (request : List Byte) : BitVec 256 :=
  Config.sha3 (request.map BitVec.toNat ++ (measurementsOf s side).map fun m => m.digest.toNat)

def sideNumber : Half → Nat
  | .west => 0
  | .east => 1

def signature (s : State) (side : Half) (request : List Byte) : Nat :=
  Config.mlDsaSign (Config.identityKey (sideNumber side)) (signedOver s side request)

/-- CHALLENGE: signed, or ERROR Unspecified where the derived key is not the certificate's (R442). -/
def challengeAnswer (side : Half) (s : State) (request : List Byte) : SpdmResponse :=
  if s.power.keyMatches.get side then .challengeAuth (signature s side request) (measurementsOf s side) else .error errUnspecified

def execSpdmChallenge (ep : Half) (go : SpdmGo) (s : State) : Result := spdm ep go (challengeAnswer go.side) s

/-- The request asks for a signature: attribute bit 0, byte 2 of the request (log 23). -/
def wantsSignature (request : List Byte) : Bool := bit (request.getD 2 0).toNat 0

def measurementsAnswer (side : Half) (s : State) (request : List Byte) : SpdmResponse :=
  if !wantsSignature request then .measurements (measurementsOf s side) 0
  else if s.power.keyMatches.get side then .measurements (measurementsOf s side) (signature s side request)
  else .error errUnspecified

def execSpdmGetMeasurements (ep : Half) (go : SpdmGo) (s : State) : Result := spdm ep go (measurementsAnswer go.side) s
def execSpdmUnsupportedRequest (ep : Half) (go : SpdmGo) (s : State) : Result := spdm ep go (fun _ _ => .error errUnsupported) s

/-- SPDM_BAD_LENGTH: a GO with REQUEST_LENGTH 0 or above 4,096 (R450). -/
def execSpdmBadLength (ep side : Half) (length : BitVec 13) (s : State) : Result :=
  guardWf (decide (length.toNat = 0) || decide (4096 < length.toNat))
    (.next (s.atEndpoint ep fun s =>
      let s := s.emit (.done ep)
      let m : Mailbox := { s.mail.get side with requestLength := length.toNat }
      { s with mail := s.mail.set side (if halfOut s side then m else { m with done := true, responseLength := 0 }) }))

/-! ### The I3C target (R413) -/

/-- The target is powered, and has a dynamic address. -/
def i3cPowered (s : State) : Bool := s.power.inputInRange
def i3cAddressed (s : State) : Bool := i3cPowered s && s.i3c.address.isSome

def State.i3cSend (s : State) (bytes : List Byte) : State := if i3cAddressed s then s.emit (.i3c bytes) else s

def staticAddress : Nat := 0x3A

def execEntdaa (address : BitVec 7) (s : State) : Result :=
  .next (if i3cPowered s && s.i3c.address.isNone then { s with i3c := { s.i3c with address := some address.toNat } } else s)
def execSetdasa (static address : BitVec 7) (s : State) : Result :=
  .next (if i3cPowered s && s.i3c.address.isNone && decide (static.toNat = staticAddress) then
    { s with i3c := { s.i3c with address := some address.toNat } } else s)
def execRstdaa (s : State) : Result := .next (if i3cPowered s then { s with i3c := { s.i3c with address := none } } else s)
def execGetpid (s : State) : Result := .next (s.i3cSend (toBE 6 Config.i3cPid.toNat))
def execGetbcr (s : State) : Result := .next (s.i3cSend [Config.i3cBcr])
def execGetdcr (s : State) : Result := .next (s.i3cSend [Config.i3cDcr])
def execGetstatus (s : State) : Result := .next ({ s with free := s.free + 1 }.i3cSend (toBE 2 (Config.i3cStatus s.free).toNat))
def execGetmwl (s : State) : Result := .next (s.i3cSend (toBE 2 Config.i3cMwl.toNat))
def execGetmrl (s : State) : Result := .next (s.i3cSend (toBE 2 Config.i3cMrl.toNat))
/-- Event bit 0 enables in-band interrupts (log 21). -/
def execEnec (events : Byte) (s : State) : Result :=
  .next (if i3cAddressed s && bit events.toNat 0 then { s with i3c := { s.i3c with interrupts := true } } else s)
def execDisec (events : Byte) (s : State) : Result :=
  .next (if i3cAddressed s && bit events.toNat 0 then { s with i3c := { s.i3c with interrupts := false } } else s)

/-! ### Pages (R461, Table 15.8) -/

def execI3cPageSelect (page : Byte) (s : State) : Result :=
  .next (if i3cAddressed s then { s with i3c := { s.i3c with page := page.toNat } } else s)

/-- A page of 64 bytes; what the manual gives no content of is free (log 21). -/
def pageOf (n : Nat) (known : List Byte) : List Byte :=
  known ++ (List.range (63 - known.length)).map (fun k => BitVec.ofNat 8 (Config.undefinedCode n k)) ++ [0]

/-- Pages 0x00 and 0x04 as the hubs send them. -/
def pageZero (s : State) : List Byte :=
  pageOf s.free (toLE 8 s.power.record.serial ++ toLE 2 s.power.record.sku ++ toLE 2 (offeredGib s) ++ toLE 1 s.power.stage)
def throttledBlocks (s : State) : Nat := (s.islands.filter fun p => decide (0 < p.2.steps)).length
def fencedBlocks (s : State) : Nat := (allBlocks.filter (islandFenced s)).length
def pageFour (s : State) : List Byte :=
  pageOf (s.free + 1) (toLE 1 (ofBool s.power.readyPin) ++ toLE 2 (throttledBlocks s) ++ toLE 2 (fencedBlocks s) ++ toLE 2 (decksInService s))

/-- I3C_PAGE_UPDATE: every 10 ms, from either hub. -/
def execI3cPageUpdate (half : Half) (t : Nat) (s : State) : Result :=
  let s := s.at t
  .next (if s.power.powerGood && !halfOut s half then
    { s with free := s.free + 2, i3c := { s.i3c with page0 := pageZero s, page4 := pageFour s, updatedAt := t } } else s)

/-- I3C_PAGE_STALE: byte 63 of those pages reads 1 after 100 ms without an update. -/
def execI3cPageStale (t : Nat) (s : State) : Result :=
  let s := s.at t
  .next (if i3cPowered s && decide (s.i3c.updatedAt + 100 * ms ≤ t) then
    { s with i3c := { s.i3c with page0 := setAt s.i3c.page0 63 1, page4 := setAt s.i3c.page4 63 1 } } else s)

/-- The hottest sensor of a location in 1/8 °C (page 0x03). -/
def hottest (s : State) (location : Nat) : Int :=
  (s.islands.filter fun p => decide (blockLocation p.1 = location)).foldl (fun m p => max m p.2.celsius8) 0

/-- The regulator's own pages: what the manual gives no value of is free (log 21). -/
def pageBytes (s : State) : List Byte :=
  let n := s.free
  match s.i3c.page with
  | 0 => s.i3c.page0
  | 4 => s.i3c.page4
  | 1 => pageOf n (toLE 2 s.power.inputMv ++ toLE 2 (Config.railReading n) ++ toLE 2 (Config.railReading (n + 1)) ++ toLE 2 s.i3c.peakWatts ++
      toLE 1 (ofBool (decide (0 < s.power.setpointsLowered))))
  | 2 => (List.range 64).map fun k => BitVec.ofNat 8 (Config.railReading (n + k))
  | 3 => pageOf n (((List.range 6).flatMap fun l => toLE 2 (twos 16 (hottest s l))) ++ toLE 2 (Config.railReading n) ++
      toLE 1 (ofBool s.power.thermtripSeen))
  | _ => (List.range 64).map fun k => BitVec.ofNat 8 (Config.undefinedCode n k)

/-- I3C_PAGE_READ: up to 64 bytes from byte 0; a read of page 0x01 starts its highest average again. -/
def execI3cPageRead (length : Nat) (s : State) : Result :=
  guardWf (decide (1 ≤ length) && decide (length ≤ 64))
    (.next (if i3cAddressed s then
      let s' := ({ s with free := s.free + 64 } : State).emit (.i3c ((pageBytes s).take length))
      if s.i3c.page = 1 then { s' with i3c := { s'.i3c with peakWatts := 0 } } else s'
    else s))

end Sys2Proof.Machine
end

