-- ==== Sys2Proof/Machine/Power.lean ====
section
/-! DEFINITION. Input, rails, start-up, shutdown, droop, temperature and the power limit (R188 to R190, R420 to R440). -/

namespace Sys2Proof.Machine

open Sys2Proof

/-! ### What outlives a power-off -/

/-- What stays in a deck: its cells, by the levels last recorded; the record in flash; what each weight was last programmed to; and whether it
was withdrawn, with the assays that decide its return (R171, R188, R190; log 59). -/
def Deck.asleep (d : Deck) : Deck :=
  { struck := d.struck, targets := d.targets, refs := d.refs, flash := d.flash, exempt := d.exempt, degraded := d.degraded, badRun := d.badRun,
    goodRun := d.goodRun, withdrawn := d.withdrawn }

/-- The device with its rails but VAUX off (R423): flash, cells, the count of fences of its service life, and what lies outside it (log 35). -/
def State.dark (s : State) : State :=
  { pending := s.pending, out := s.out, free := s.free, now := s.now, cmem := s.cmem, flash := s.flash, i3c := s.i3c
    islands := tidy {} (mapValues (fun _ i => { fences := i.fences }) s.islands)
    stewards := ⟨{ fences := s.stewards.west.fences }, { fences := s.stewards.east.fences }⟩
    decks := tidy {} (mapValues (fun _ d => d.asleep) s.decks)
    power := { enable := s.power.enable, inputInRange := s.power.inputInRange, inputMv := s.power.inputMv,
               rails := ofBool s.power.inputInRange, thermtripN := s.power.thermtripN,
               thermtripSeen := s.power.thermtripSeen, inOrder := s.power.inOrder } }

/-- READY falls, then the rails go (R421, R428, R434, R435). -/
def State.railsOff (s : State) (inOrder : Bool) : State :=
  let s := (s.setReady false).dark
  s.setPower { s.power with inOrder := inOrder }

/-! ### Start-up (R429 to R434) -/

/-- Power good: island counters start from 0, stage 0x00 (R328, R432). -/
def State.powerUp (s : State) (t : Nat) : State :=
  let s := s.dark
  s.setPower { s.power with enable := true, rails := 6, powerGood := true, powerGoodAt := t }

/-- ENABLE_RISE (R423, R430). -/
def execEnableRise (t : Nat) (s : State) : Result :=
  let s := s.at t
  .next (if s.power.enable then s
    else if s.power.inputInRange && s.power.thermtripN then s.powerUp t
    else s.setPower { s.power with enable := true })

def loaderBytes : Nat := 2 ^ 23

/-- A configuration record's fields meet Table 14.7 and its lengths agree (R439, R440). -/
def recordOk (r : ConfigRecord) (v : Verdict) : Bool :=
  decide (r.format = 1) && decide (r.product = 9) && decide (r.sku = 0x4208) && (decide (r.hbmGib = 512) || decide (r.hbmGib = 256)) &&
  (decide (r.keyIndex = 2) || decide (r.keyIndex = 3)) && decide (r.reserved = 0) && decide (r.certWLength = r.certW.length) &&
  decide (r.certELength = r.certE.length) &&
  decide (r.length = 64 + r.certWLength + r.certELength + 2 * r.helperLength + 1312 + 2420) && v.signature && v.keyDigest

/-- The record in use: of two valid copies, the one of the larger RECORD_VERSION (R440). -/
def chooseRecord (f : Flash) (v : Both Verdict) : Option ConfigRecord :=
  if recordOk f.recordW v.west then
    (if recordOk f.recordE v.east && decide (f.recordW.recordVersion < f.recordE.recordVersion) then some f.recordE else some f.recordW)
  else if recordOk f.recordE v.east then some f.recordE
  else none

/-- The slot a boot loader chooses: of those that may run, the higher VERSION (R438). -/
def chooseSlot (s : State) (v : Both Verdict) : Option Bool :=
  let a := slotRuns s false v.west
  let b := slotRuns s true v.east
  if a && b then some (decide (imgVersion s.flash.slotA < imgVersion s.flash.slotB))
  else if a then some false else if b then some true else none

def stopAt (stage : Nat) (s : State) : State :=
  let s := s.setPower { s.power with stage := stage }
  { s with links := ⟨{ s.links.west with trained := true }, { s.links.east with trained := true }⟩ }

/-- A half without a verifiable boot loader stays behind; the other fences it as for a lost bridge (R433). -/
def leaveHalf (h : Half) (s : State) : State :=
  let s := s.setPower { s.power with halfFailed := s.power.halfFailed.set h true }
  let s := ({ s with bridgeUp := false } : State).fenceHalf h
  s.recordBy (hubBlock h.other) { code := 0x4005, source := stewardBlock h, action := 3 }

/-- The loaders of the halves verify (R436, R437). -/
def loaderOk (s : State) (h : Half) (v : Both Verdict) : Bool :=
  match h with
  | .west => imageVerifies s.flash.loaderW 1 loaderBytes v.west
  | .east => imageVerifies s.flash.loaderE 1 loaderBytes v.east

def bootVerify (loaders slots record : Both Verdict) (keyMatches : Both Bool) (t : Nat) (s : State) : State :=
  let good := halves.filter fun h => loaderOk s h loaders
  if good = [] then stopAt 0x81 s
  else
    match chooseRecord s.flash record with
    | none => stopAt 0x80 s
    | some r =>
      let s := s.setPower { s.power with record := r, recordValid := true, keyMatches := keyMatches }
      match chooseSlot s slots with
      | none => stopAt 0x81 s
      | some b =>
        let s := good.foldl (fun s h => let s := s.runSlot h b
          s.setSteward h { s.steward h with heartbeatAt := t }) s
        let s := (halves.filter fun h => !good.contains h).foldl (fun s h => leaveHalf h s) s
        s.setPower { s.power with stage := 2 }

/-- BOOT_VERIFY (step 3 of Table 14.4). -/
def execBootVerify (loaders slots record : Both Verdict) (keyMatches : Both Bool) (t : Nat) (s : State) : Result :=
  let s := s.at t
  .next (if s.power.powerGood && decide (s.power.stage = 0) then bootVerify loaders slots record keyMatches t s else s)

/-! ### The test access port (R416) -/

/-- The instructions of the IEEE 1149.1 port. -/
inductive TapInstruction where
  | bypass
  | idcode
  | samplePreload
  | extest
  | clamp
  | highz
  | extestPulse
  | extestTrain
  deriving DecidableEq, Repr

/-- The half die's boot loader has verified its firmware since power good. -/
def firmwareVerified (s : State) (h : Half) : Bool :=
  decide (2 ≤ s.power.stage) && decide (s.power.stage < 0x80) && !s.power.halfFailed.get h

/-- What the port offers at a half die: everything until the firmware is verified, then BYPASS and IDCODE alone. -/
def tapOffers (s : State) (h : Half) (i : TapInstruction) : Bool :=
  s.power.powerGood && (!firmwareVerified s h || decide (i = .bypass) || decide (i = .idcode))

/-- The instruction a die selects: one that is not offered selects BYPASS. -/
def tapSelects (s : State) (h : Half) (i : TapInstruction) : TapInstruction := if tapOffers s h i then i else .bypass

/-- IDCODE: part number 0x4208 in [27:12], the manufacturer code in [11:1] (layout of IEEE 1149.1, PRESUMED; log 67). -/
def idcode : BitVec 32 :=
  BitVec.ofNat 4 Config.dieVersion ++ (0x4208 : BitVec 16) ++ BitVec.ofNat 11 Config.manufacturer ++ (1 : BitVec 1)

/-- The codes of Table 12.2. -/
def faultCodes : List Nat :=
  [0x2101, 0x2102, 0x2201, 0x2202, 0x2203, 0x2301, 0x2401, 0x2402, 0x2501, 0x2601, 0x3001, 0x4001, 0x4002, 0x4003, 0x4004, 0x4005, 0x4006,
   0x4007, 0x4008, 0x4009]

/-- A code that a self-test may find of a part: one of Table 12.2 that names the level of the part in which the fault lies (R27, R366). A
fault of a region's switch, mover or tally unit may take the region; one of a steward, an HBM channel, a bridge end or a hub, the device. -/
def testCodeOk (b code : Nat) : Bool :=
  faultCodes.contains code &&
    (decide (code / 0x1000 = 2) ||
     (decide (code / 0x1000 = 3) && decide (blockLocation b < 4) && decide (4 ≤ blockKind b)) ||
     (decide (code / 0x1000 = 4) && decide (4 ≤ blockLocation b) && ([0x10, 0x13, 0x14, 0x15, 0x16] : List Nat).contains (blockKind b)))

/-- A part starts fenced: a steward, a stack with its controller, or any other block or unit. -/
def State.startFenced (s : State) (b : Nat) : State :=
  match halves.find? fun h => decide (b = stewardBlock h) with
  | some h => if (s.steward h).fenced then s else s.fenceSteward h
  | none =>
    let s := if (s.island b).fenced then s else s.fenceBlock b
    if blockKind b = 0x13 ∧ 4 ≤ blockLocation b then s.setStack (stackOf b) { s.stack (stackOf b) with fenced := true } else s

/-- A part that fails self-test starts fenced, with a record of the code the test found (R433). -/
def failPart (f : SelfTestFault) (s : State) : State :=
  let b := f.block.toNat
  (s.recordFault { code := f.code.toNat, source := b, sub := f.sub.toNat, action := 3 }).startFenced b

/-- A withdrawal record is honoured (R374). -/
def honour (b : Nat) (s : State) : State :=
  if b = stewardBlock .west then s.setSteward .west { s.stewards.west with fenced := true, withdrawn := true }
  else if b = stewardBlock .east then s.setSteward .east { s.stewards.east with fenced := true, withdrawn := true }
  else
    let s := s.setIsland b { s.island b with fenced := true, withdrawn := true }
    if blockKind b = 0x13 ∧ 4 ≤ blockLocation b then s.setStack (stackOf b) { s.stack (stackOf b) with fenced := true } else s

/-- A stack trained: its capacity, and 9.6 or 8.0 Gb/s per pin (R411, R412). -/
def trainStack (fitted : List Nat) (slow : List (Fin 8)) (s : State) (k : Nat) : State :=
  s.setStack k { s.stack k with fittedGib := fitted.getD k 0, rate := if (slow.map Fin.val).contains k then 80 else 96 }

def selfTest (failures : List SelfTestFault) (fitted : List Nat) (slow : List (Fin 8)) (s : State) : State :=
  let s := s.flash.withdrawals.foldl (fun s b => honour b s) s
  let s := failures.foldl (fun s f => failPart f s) s
  let s := (List.range 8).foldl (trainStack fitted slow) s
  { s with links := ⟨{ s.links.west with trained := true }, { s.links.east with trained := true }⟩
           power := { s.power with stage := 4 } }

/-- SELF_TEST (step 4): it waits until every sensor reads 0 °C or above (R429). -/
def execSelfTest (failures : List SelfTestFault) (fittedGib : List Nat) (trainFailed : List (Fin 8)) (coldest : Int) (t : Nat) (s : State) : Result :=
  let s := s.at t
  guardWf (decide (fittedGib.length = 8) && failures.all fun f => validBlock f.block.toNat && testCodeOk f.block.toNat f.code.toNat)
    (.next (if s.power.powerGood && decide (s.power.stage = 2) && decide (0 ≤ coldest) then selfTest failures fittedGib trainFailed s else s))

/-! ### Wear, bindings and the first assay (R188 to R190) -/

/-- The newer wear image whose integrity check passes (R189). -/
def newerWear (f : Flash) : Table (Table Wear) :=
  let a := f.wear0.filter WearImage.ok
  let b := f.wear1.filter WearImage.ok
  match if f.newer1 then b.or a else a.or b with
  | some i => i.rows
  | none => []

/-- A row's record as start-up takes it: its settlement count saturates, and a row that reaches 10^8 pulses is debased (R182, R186, R189). -/
def wokenRow (inOrder : Bool) (exempt : Nat) (w : Wear) : Wear :=
  let pulses := w.pulses + (if inOrder then 0 else 3072) + 12 * exempt
  { w with pulses := pulses, settlements := min 16383 (w.settlements + (if inOrder then 0 else 256) + exempt),
           debased := w.debased || decide (10 ^ 8 ≤ pulses) }

def wokenWear (inOrder : Bool) (exempt : Nat) (t : Table Wear) : Table Wear :=
  (List.range 1024).foldl (fun m r => put {} m r (wokenRow inOrder exempt (lookup {} t r))) []

/-- The binding record that start-up takes: one that passes its check (R190). -/
def Deck.record (d : Deck) : Option Binding := d.flash.filter fun b => b.valid d.exempt

/-- A deck-array as its records leave it: bound as its record says, without one to be zero-programmed. -/
def Deck.wake (d : Deck) (inOrder : Bool) (wear : Table Wear) : Deck :=
  { d with binding := d.record, skip := (match d.record with
             | some b => b.skip
             | none => []),
           refs := referencesOf (d.record.map Binding.fmt), dirty := d.record.isNone, wear := wokenWear inOrder d.exempt wear }

/-- The drift that the first assay finds, against the levels last recorded (R170, R188). -/
def Deck.startupDrift (d : Deck) (new : Table Nat) : Nat × Nat :=
  match d.binding with
  | some b => partDrift d new b.fmt b.part
  | none => (0, 1)

/-- The first assay of a deck-array: it rebuilds the struck copy, sets the trims, and judges the drift (R165 to R171, R188). -/
def Deck.firstAssay (d : Deck) (n t : Nat) (tj : Int) : Deck :=
  let new := assayLevels n d.dataPairs
  let drift := d.startupDrift new
  { (d.judged (decide (drift.2 < drift.1))).trimmed n t tj with struck := new }

/-- Start-up of one deck-array, with the faults that its wear and its drift record (R171, R186, R188, R189). -/
def State.wakeDeck (images : Table (Table Wear)) (tj : Int) (t : Nat) (s : State) (dn : Nat) : State :=
  let n := s.free
  let wear := lookup [] images dn
  let d := (s.deck dn).wake s.power.inOrder wear
  let s := ({ s with free := n + 1 } : State).setDeck dn (d.firstAssay n t tj)
  let s := (newlyDebased wear d.wear).foldl (fun s p => s.debasedFault dn p.1 p.2) s
  s.driftFault dn (d.startupDrift (assayLevels n d.dataPairs))

def startupAssay (tj : Int) (t : Nat) (s : State) : State :=
  let s := (List.range deckCount).foldl (State.wakeDeck (newerWear s.flash) tj t) s
  s.setPower { s.power with stage := 5 }

/-- STARTUP_ASSAY (step 5). -/
def execStartupAssay (tj : Int) (t : Nat) (s : State) : Result :=
  let s := s.at t
  .next (if s.power.powerGood && decide (s.power.stage = 4) then startupAssay tj t s else s)

/-- READY (step 7): the charter has been taken. -/
def execReady (t : Nat) (s : State) : Result :=
  let s := s.at t
  .next (if s.power.powerGood && decide (s.power.stage = 6) && charterHeld s then
    (s.setPower { s.power with stage := 7, inOrder := false }).setReady true else s)

/-- ENABLE_FALL_DURING_STARTUP (R434); with the rails off the contact alone falls, so that a later rising edge starts the device (R430). -/
def execEnableFallDuringStartup (t : Nat) (s : State) : Result :=
  let s := s.at t
  .next (if s.power.enable && decide (s.power.stage ≠ 7) then
    (if s.power.powerGood then (s.setPower { s.power with enable := false }).railsOff true
     else s.setPower { s.power with enable := false })
    else s)

/-! ### Shutdown (R435) -/

/-- Every item in flight ends CANCELLED, but those whose work is done (R435, R467). -/
def State.cancelAll (s : State) : State :=
  (s.items.map Prod.fst).foldl (fun s id =>
    match find s.items id with
    | some x => if x.stage ≤ 2 then s.endItem id stCancelled 0 else if x.stage = 3 then s.completeItem id x else s
    | none => s) s

/-- Kept receipts of a ring go into its free slots (R78). -/
def State.flushReceipts (n : Nat) : Nat → State → State
  | 0, s => s
  | k + 1, s => State.flushReceipts n k (s.deferredReceipt n)

/-- Every item ends, and every receipt that a slot is free for is written, those kept first (R78, R79, R435). -/
def State.endEveryItem (s : State) : State :=
  let s := s.cancelAll
  let s := (s.rings.map Prod.fst).foldl (fun s n => State.flushReceipts n (s.ring n).kept.length s) s
  (s.items.map Prod.fst).foldl State.writeReceipt s

/-- Binding records that changed go to flash. -/
def State.writeBindings (s : State) : State :=
  { s with decks := s.decks.map fun p => (p.1, if p.2.bindingDirty.isSome then { p.2 with flash := p.2.binding.map (fun b => b.sealed p.2.exempt), bindingDirty := none } else p.2) }

def shutdown (t : Nat) (s : State) : State :=
  let s := s.setReady false
  let s := (s.setPower { s.power with enable := false, shuttingDown := true }).endEveryItem
  ((s.writeBindings).writeWear t).railsOff true

/-- SHUTDOWN: ENABLE falls after ready. -/
def execShutdown (t : Nat) (s : State) : Result :=
  let s := s.at t
  .next (if s.power.enable && s.power.powerGood && decide (s.power.stage = 7) then shutdown t s else s)

/-! ### The input (R420, R421, R462) -/

def inputOk (mv : Nat) : Bool := decide (38000 ≤ mv) && decide (mv ≤ 50000)

/-- An input outside the range that the module still rides through (R420). -/
def tolerated (mv lasting : Nat) : Bool :=
  (decide (30000 ≤ mv) && decide (mv < 38000) && decide (lasting ≤ 100000)) || (decide (50000 < mv) && decide (mv ≤ 55000) && decide (lasting ≤ ms))

def State.interruptBoard (s : State) (byte : Nat) : State := if s.i3c.interrupts then s.emit (.i3cInterrupt byte) else s

/-- The input has gone: VAUX and the I3C target are off, and THERMTRIP_N is released (R413, R423, R428). -/
def State.inputGone (s : State) : State :=
  { s with i3c := {}, power := { s.power with thermtripN := true, rails := 0 } }

/-- INPUT_OUT_OF_RANGE. -/
def execInputOutOfRange (mv since t : Nat) (s : State) : Result :=
  let s := s.at t
  guardWf (!inputOk mv)
    (.next (
      let s := if s.power.inputInRange then s.interruptBoard 2 else s
      let s := s.setPower { s.power with inputInRange := false, inputMv := mv }
      if tolerated mv (t - since) then s
      else (if s.power.powerGood then s.railsOff false else s).inputGone))

/-- INPUT_IN_RANGE: VAUX is on (R423); an input applied anew begins a new record of THERMTRIP_N (Table 15.8). -/
def execInputInRange (mv t : Nat) (s : State) : Result :=
  let s := s.at t
  guardWf (inputOk mv)
    (.next (s.setPower { s.power with inputInRange := true, inputMv := mv, rails := max 1 s.power.rails,
                                      thermtripSeen := s.power.thermtripSeen && (s.power.powerGood || s.power.inputInRange) }))

/-! ### Droop and temperature (R424 to R428) -/

/-- The island's clock steps change; its counter goes on from where it stands (R328). -/
def State.setSteps (s : State) (b : Nat) (f : Island → Island) : State :=
  let n := islandCount s b
  s.setIsland b { f (s.island b) with countBase := n, countAt := s.now }

/-- Steps that a local supply calls for, in permille of nominal (R424). -/
def droopCalls (permille : Nat) : Nat := if permille < 970 then min 8 (1 + (970 - permille) / 10) else 0

/-- DROOP_STEP. -/
def execDroopStep (block : Word16) (millivoltPermille : Nat) (t : Nat) (s : State) : Result :=
  let s := s.at t
  let b := block.toNat
  let i := s.island b
  let n := droopCalls millivoltPermille
  guardWf (validBlock b)
    (.next (if s.power.powerGood && decide (i.droopSteps < n) then
      (s.setSteps b fun i => { i with droopSteps := n, droopAt := t }).bump b 12 (n - i.droopSteps) else s))

/-- DROOP_RECOVER: one step per microsecond at or above 98%. -/
def execDroopRecover (block : Word16) (permille : Nat) (t : Nat) (s : State) : Result :=
  let s := s.at t
  let b := block.toNat
  let i := s.island b
  guardWf (validBlock b)
    (.next (if s.power.powerGood && decide (0 < i.droopSteps) && decide (980 ≤ permille) && decide (i.droopAt + 1000 ≤ t) then
      s.setSteps b fun i => { i with droopSteps := i.droopSteps - 1, droopAt := t } else s))

/-- TEMPERATURE_STEP: at 100 °C or more, one step and then one per 10 µs, to a floor of 4/16. -/
def execTemperatureStep (block : Word16) (celsius8 : Int) (t : Nat) (s : State) : Result :=
  let s := s.at t
  let b := block.toNat
  let i := s.island b
  guardWf (validBlock b)
    (.next (if !s.power.powerGood then s
      else
        let s := s.setIsland b { i with celsius8 := celsius8 }
        if decide (800 ≤ celsius8) && decide (i.tempSteps < 12) && (decide (i.tempSteps = 0) || decide (i.tempAt + 10000 ≤ t)) then
          (s.setSteps b fun i => { i with tempSteps := i.tempSteps + 1, tempAt := t }).bump b 13 1
        else s))

/-- TEMPERATURE_RECOVER: below 97 °C, one step per 100 µs. -/
def execTemperatureRecover (block : Word16) (celsius8 : Int) (t : Nat) (s : State) : Result :=
  let s := s.at t
  let b := block.toNat
  let i := s.island b
  guardWf (validBlock b)
    (.next (if !s.power.powerGood then s
      else
        let s := s.setIsland b { i with celsius8 := celsius8 }
        if decide (celsius8 < 776) && decide (0 < i.tempSteps) && decide (i.tempAt + 100000 ≤ t) then
          s.setSteps b fun i => { i with tempSteps := i.tempSteps - 1, tempAt := t }
        else s))

/-- THERMTRIP: at 115 °C THERMTRIP_N goes low and stays until the input is removed; the regulators shut down (R428, R462). -/
def execThermtrip (block : Word16) (celsius8 : Int) (t : Nat) (s : State) : Result :=
  let s := s.at t
  let b := block.toNat
  guardWf (validBlock b)
    (.next (if s.power.powerGood && decide (920 ≤ celsius8) then
      (((s.setIsland b { s.island b with celsius8 := celsius8 }).interruptBoard 1).setPower
        { s.power with thermtripN := false, thermtripSeen := true }).railsOff false
    else s))

/-- POWER_LIMIT: setpoints are lowered above 3.4 kW, by 1% of nominal a step down to 10%, and raised at or below 3.3 kW (R427). -/
def execPowerLimit (watts : Nat) (s : State) : Result :=
  let p := s.power
  .next (if !p.powerGood then s
    else
      let s := { s with i3c := { s.i3c with peakWatts := max s.i3c.peakWatts watts } }
      if 3400 < watts then s.setPower { p with setpointsLowered := min 10 (p.setpointsLowered + 1) }
      else if watts ≤ 3300 then s.setPower { p with setpointsLowered := p.setpointsLowered - 1 }
      else s)

end Sys2Proof.Machine
end

