-- ==== Sys2Proof/Machine/Dispatch.lean ====
section
/-! DEFINITION. One arm per command of spec/opcode_table.json, each one call of its meaning. -/

namespace Sys2Proof.Machine

def exec (i : Instr) (s : State) : Host.Outcome State Fault Refusal :=
  match i with
  | .bell ep ring word => Sys2Proof.Machine.execBell ep ring word s
  | .bellPageWriteIgnored ep ring offset size => Sys2Proof.Machine.execBellPageWriteIgnored ep ring offset size s
  | .load ep ring word cw => Sys2Proof.Machine.execLoad ep ring word cw s
  | .stop ep ring word => Sys2Proof.Machine.execStop ep ring word s
  | .drain ep ring word => Sys2Proof.Machine.execDrain ep ring word s
  | .controlReservedCommand ep ring word => Sys2Proof.Machine.execControlReservedCommand ep ring word s
  | .ringIdle ring => Sys2Proof.Machine.execRingIdle ring s
  | .slipConsume ring cw => Sys2Proof.Machine.execSlipConsume ring cw s
  | .groupTableReadDone item cw => Sys2Proof.Machine.execGroupTableReadDone item cw s
  | .itemStart item => Sys2Proof.Machine.execItemStart item s
  | .itemComplete item => Sys2Proof.Machine.execItemComplete item s
  | .receiptWriteDeferred ring => Sys2Proof.Machine.execReceiptWriteDeferred ring s
  | .gemmForward item => Sys2Proof.Machine.execGemmForward item s
  | .gemmForwardDigital item => Sys2Proof.Machine.execGemmForwardDigital item s
  | .forwardWide item => Sys2Proof.Machine.execForwardWide item s
  | .backwardData item => Sys2Proof.Machine.execBackwardData item s
  | .backwardWeight item => Sys2Proof.Machine.execBackwardWeight item s
  | .plain item => Sys2Proof.Machine.execPlain item s
  | .kernelRun item => Sys2Proof.Machine.execKernelRun item s
  | .loadImage item cw => Sys2Proof.Machine.execLoadImage item cw s
  | .clearOwnerReduce item => Sys2Proof.Machine.execClearOwnerReduce item s
  | .clearRingReduce item => Sys2Proof.Machine.execClearRingReduce item s
  | .clearDistribute item => Sys2Proof.Machine.execClearDistribute item s
  | .copy item => Sys2Proof.Machine.execCopy item s
  | .moveLoad item cw => Sys2Proof.Machine.execMoveLoad item cw s
  | .store item => Sys2Proof.Machine.execStore item s
  | .declare item => Sys2Proof.Machine.execDeclare item s
  | .retire item => Sys2Proof.Machine.execRetire item s
  | .settle item => Sys2Proof.Machine.execSettle item s
  | .stash item => Sys2Proof.Machine.execStash item s
  | .recallItem item => Sys2Proof.Machine.execRecall item s
  | .signal item => Sys2Proof.Machine.execSignal item s
  | .wait item => Sys2Proof.Machine.execWait item s
  | .take item => Sys2Proof.Machine.execTake item s
  | .stepWriteStage item => Sys2Proof.Machine.execStepWriteStage item s
  | .stepWriteCommit item => Sys2Proof.Machine.execStepWriteCommit item s
  | .fenceRing item => Sys2Proof.Machine.execFenceRing item s
  | .fenceAccount item => Sys2Proof.Machine.execFenceAccount item s
  | .tallySignal source account number n signal => Sys2Proof.Machine.execTallySignal source account number n signal s
  | .waitIssue item => Sys2Proof.Machine.execWaitIssue item s
  | .heldWaitEnqueue region => Sys2Proof.Machine.execHeldWaitEnqueue region s
  | .waitDeadline item t => Sys2Proof.Machine.execWaitDeadline item t s
  | .updateStampDeadline item t => Sys2Proof.Machine.execUpdateStampDeadline item t s
  | .vksSignal teller thread number n => Sys2Proof.Machine.execVksSignal teller thread number n s
  | .vksDrain teller thread => Sys2Proof.Machine.execVksDrain teller thread s
  | .tallyMove account number region arrived => Sys2Proof.Machine.execTallyMove account number region arrived s
  | .evaluationIssue aab descriptor vector cycle check => Sys2Proof.Machine.execEvaluationIssue aab descriptor vector cycle check s
  | .referenceSequence aab array cycle => Sys2Proof.Machine.execReferenceSequence aab array cycle s
  | .outputTileConvert item tile => Sys2Proof.Machine.execOutputTileConvert item tile s
  | .spillPartial item vector => Sys2Proof.Machine.execSpillPartial item vector s
  | .assayDue deck cause t tj => Sys2Proof.Machine.execAssayDue deck cause t tj s
  | .assay deck t tj => Sys2Proof.Machine.execAssay deck t tj s
  | .assayApply deck => Sys2Proof.Machine.execAssayApply deck s
  | .tileMove deck newDeck t => Sys2Proof.Machine.execTileMove deck newDeck t s
  | .oldDeckZeroProgram deck t => Sys2Proof.Machine.execOldDeckZeroProgram deck t s
  | .wearLevelCheck aab t => Sys2Proof.Machine.execWearLevelCheck aab t s
  | .rowRefresh deck row t => Sys2Proof.Machine.execRowRefresh deck row t s
  | .wearImageWrite t => Sys2Proof.Machine.execWearImageWrite t s
  | .bindingRecordWrite deck t => Sys2Proof.Machine.execBindingRecordWrite deck t s
  | .deckZeroProgram deck t => Sys2Proof.Machine.execDeckZeroProgram deck t s
  | .tileInstructionIssue dtb item blockRow blockCol kStart range check => Sys2Proof.Machine.execTileInstructionIssue dtb item blockRow blockCol kStart range check s
  | .dtbTileConvert item tile => Sys2Proof.Machine.execDtbTileConvert item tile s
  | .contextRestore dtb item blockRow blockCol => Sys2Proof.Machine.execContextRestore dtb item blockRow blockCol s
  | .workUnitStart teller thread item unit cycle check => Sys2Proof.Machine.execWorkUnitStart teller thread item unit cycle check s
  | .secondPassStart item => Sys2Proof.Machine.execSecondPassStart item s
  | .unitTimeout teller thread cycle => Sys2Proof.Machine.execUnitTimeout teller thread cycle s
  | .tellerStateIssue teller cycle => Sys2Proof.Machine.execTellerStateIssue teller cycle s
  | .imageLoadToTeller teller slot item cycle => Sys2Proof.Machine.execImageLoadToTeller teller slot item cycle s
  | .bankRead bank word offset length upsets reader check => Sys2Proof.Machine.execBankRead bank word offset length upsets reader check s
  | .bankWrite bank word offset bytes => Sys2Proof.Machine.execBankWrite bank word offset bytes s
  | .eccWriteback bank => Sys2Proof.Machine.execEccWriteback bank s
  | .portStallAgeing bank reads writes => Sys2Proof.Machine.execPortStallAgeing bank reads writes s
  | .hbmRead stack extent offset length upsets reader => Sys2Proof.Machine.execHbmRead stack extent offset length upsets reader s
  | .hbmWrite stack extent offset bytes => Sys2Proof.Machine.execHbmWrite stack extent offset bytes s
  | .scrubRead target upsets => Sys2Proof.Machine.execScrubRead target upsets s
  | .vaultEvict account toSram => Sys2Proof.Machine.execVaultEvict account toSram s
  | .offer port frame t => Sys2Proof.Machine.execOffer port frame t s
  | .grant port frame t => Sys2Proof.Machine.execGrant port frame t s
  | .refuse port frame t => Sys2Proof.Machine.execRefuse port frame t s
  | .busy port frame t => Sys2Proof.Machine.execBusy port frame t s
  | .offerRetry item peer t => Sys2Proof.Machine.execOfferRetry item peer t s
  | .heldOfferExpiry half t => Sys2Proof.Machine.execHeldOfferExpiry half t s
  | .data port frame t => Sys2Proof.Machine.execData port frame t s
  | .ack port frame t => Sys2Proof.Machine.execAck port frame t s
  | .retransmitTimeout half peer sequence t => Sys2Proof.Machine.execRetransmitTimeout half peer sequence t s
  | .planeProbe half peer plane t => Sys2Proof.Machine.execPlaneProbe half peer plane t s
  | .probe port frame t => Sys2Proof.Machine.execProbe port frame t s
  | .abort port frame t => Sys2Proof.Machine.execAbort port frame t s
  | .lostNotice port frame t => Sys2Proof.Machine.execLostNotice port frame t s
  | .pauseFrame port => Sys2Proof.Machine.execPauseFrame port s
  | .peerLost peer t => Sys2Proof.Machine.execPeerLost peer t s
  | .peerContextClose half peer makeRoom t => Sys2Proof.Machine.execPeerContextClose half peer makeRoom t s
  | .clearDeadline item t => Sys2Proof.Machine.execClearDeadline item t s
  | .grantPoint unit ready t => Sys2Proof.Machine.execGrantPoint unit ready t s
  | .quantumExpiry unit t => Sys2Proof.Machine.execQuantumExpiry unit t s
  | .admitAccount ep account cw => Sys2Proof.Machine.execAdmitAccount ep account cw s
  | .resize ep account cw => Sys2Proof.Machine.execResize ep account cw s
  | .remove ep account => Sys2Proof.Machine.execRemove ep account s
  | .accountCommandMalformed ep value => Sys2Proof.Machine.execAccountCommandMalformed ep value s
  | .accountCommandDiscarded ep value => Sys2Proof.Machine.execAccountCommandDiscarded ep value s
  | .blockRecovery block target => Sys2Proof.Machine.execBlockRecovery block target s
  | .livenessTimeout block t => Sys2Proof.Machine.execLivenessTimeout block t s
  | .regionFence region failed poisonedWords t => Sys2Proof.Machine.execRegionFence region failed poisonedWords t s
  | .stewardHeartbeatTimeout half t => Sys2Proof.Machine.execStewardHeartbeatTimeout half t s
  | .hbmFenced stack t => Sys2Proof.Machine.execHbmFenced stack t s
  | .bridgeLost t => Sys2Proof.Machine.execBridgeLost t s
  | .fenceSelfTest block passes t => Sys2Proof.Machine.execFenceSelfTest block passes t s
  | .queuedRecoveryStart t => Sys2Proof.Machine.execQueuedRecoveryStart t s
  | .charterRenewal half cw reachable t => Sys2Proof.Machine.execCharterRenewal half cw reachable t s
  | .leaseExpiry half t => Sys2Proof.Machine.execLeaseExpiry half t s
  | .charterTake half cw t => Sys2Proof.Machine.execCharterTake half cw t s
  | .witnessReread half cw t => Sys2Proof.Machine.execWitnessReread half cw t s
  | .charterRejection half winning => Sys2Proof.Machine.execCharterRejection half winning s
  | .epochCommand block issuer epoch epochC => Sys2Proof.Machine.execEpochCommand block issuer epoch epochC s
  | .stewardRestart ep value => Sys2Proof.Machine.execStewardRestart ep value s
  | .fwUpdateStart ep value verdict => Sys2Proof.Machine.execFwUpdateStart ep value verdict s
  | .stewardRestartDone half passes verdict t => Sys2Proof.Machine.execStewardRestartDone half passes verdict t s
  | .dumpRequest ep value => Sys2Proof.Machine.execDumpRequest ep value s
  | .auditDump t => Sys2Proof.Machine.execAuditDump t s
  | .dumpSelectOlder ep value => Sys2Proof.Machine.execDumpSelectOlder ep value s
  | .dumpWindowRead ep offset size => Sys2Proof.Machine.execDumpWindowRead ep offset size s
  | .exchangeRateRefresh half block sent marked t => Sys2Proof.Machine.execExchangeRateRefresh half block sent marked t s
  | .companionTimeWrite ep timeNs t => Sys2Proof.Machine.execCompanionTimeWrite ep timeNs t s
  | .companionTimeStale t => Sys2Proof.Machine.execCompanionTimeStale t s
  | .witnessBaseWrite ep value => Sys2Proof.Machine.execWitnessBaseWrite ep value s
  | .registerWrite ep offset value => Sys2Proof.Machine.execRegisterWrite ep offset value s
  | .registerRetry ep offset write => Sys2Proof.Machine.execRegisterRetry ep offset write s
  | .companionRequestError ep type offset size => Sys2Proof.Machine.execCompanionRequestError ep type offset size s
  | .reservedOffsetAccess ep offset size write => Sys2Proof.Machine.execReservedOffsetAccess ep offset size write s
  | .flashWindowWrite ep offset bytes => Sys2Proof.Machine.execFlashWindowWrite ep offset bytes s
  | .snoop ep line => Sys2Proof.Machine.execSnoop ep line s
  | .sclFlitCrcFailure ep sequence => Sys2Proof.Machine.execSclFlitCrcFailure ep sequence s
  | .sclLaneFailure ep lane => Sys2Proof.Machine.execSclLaneFailure ep lane s
  | .sclWidthRetry ep lanesWorking t => Sys2Proof.Machine.execSclWidthRetry ep lanesWorking t s
  | .sclRefclkLoss ep => Sys2Proof.Machine.execSclRefclkLoss ep s
  | .vfPortPhyWrite ep port value => Sys2Proof.Machine.execVfPortPhyWrite ep port value s
  | .vfFullWidthRequest ep port value => Sys2Proof.Machine.execVfFullWidthRequest ep port value s
  | .vfLaneFailure port lane => Sys2Proof.Machine.execVfLaneFailure port lane s
  | .vfTrainingDone port => Sys2Proof.Machine.execVfTrainingDone port s
  | .spdmGetVersion ep go => Sys2Proof.Machine.execSpdmGetVersion ep go s
  | .spdmGetCapabilities ep go => Sys2Proof.Machine.execSpdmGetCapabilities ep go s
  | .spdmNegotiateAlgorithms ep go => Sys2Proof.Machine.execSpdmNegotiateAlgorithms ep go s
  | .spdmGetDigests ep go => Sys2Proof.Machine.execSpdmGetDigests ep go s
  | .spdmGetCertificate ep go => Sys2Proof.Machine.execSpdmGetCertificate ep go s
  | .spdmChallenge ep go => Sys2Proof.Machine.execSpdmChallenge ep go s
  | .spdmGetMeasurements ep go => Sys2Proof.Machine.execSpdmGetMeasurements ep go s
  | .spdmUnsupportedRequest ep go => Sys2Proof.Machine.execSpdmUnsupportedRequest ep go s
  | .spdmBadLength ep side length => Sys2Proof.Machine.execSpdmBadLength ep side length s
  | .sampleMark half t => Sys2Proof.Machine.execSampleMark half t s
  | .telemetryExport t => Sys2Proof.Machine.execTelemetryExport t s
  | .i3cPageSelect page => Sys2Proof.Machine.execI3cPageSelect page s
  | .i3cPageRead length => Sys2Proof.Machine.execI3cPageRead length s
  | .i3cPageUpdate half t => Sys2Proof.Machine.execI3cPageUpdate half t s
  | .i3cPageStale t => Sys2Proof.Machine.execI3cPageStale t s
  | .entdaa address => Sys2Proof.Machine.execEntdaa address s
  | .setdasa static address => Sys2Proof.Machine.execSetdasa static address s
  | .rstdaa => Sys2Proof.Machine.execRstdaa s
  | .getpid => Sys2Proof.Machine.execGetpid s
  | .getbcr => Sys2Proof.Machine.execGetbcr s
  | .getdcr => Sys2Proof.Machine.execGetdcr s
  | .getstatus => Sys2Proof.Machine.execGetstatus s
  | .getmwl => Sys2Proof.Machine.execGetmwl s
  | .getmrl => Sys2Proof.Machine.execGetmrl s
  | .enec events => Sys2Proof.Machine.execEnec events s
  | .disec events => Sys2Proof.Machine.execDisec events s
  | .enableRise t => Sys2Proof.Machine.execEnableRise t s
  | .bootVerify loaders slots record keyMatches t => Sys2Proof.Machine.execBootVerify loaders slots record keyMatches t s
  | .selfTest failures fittedGib trainFailed coldest t => Sys2Proof.Machine.execSelfTest failures fittedGib trainFailed coldest t s
  | .startupAssay tj t => Sys2Proof.Machine.execStartupAssay tj t s
  | .ready t => Sys2Proof.Machine.execReady t s
  | .enableFallDuringStartup t => Sys2Proof.Machine.execEnableFallDuringStartup t s
  | .shutdown t => Sys2Proof.Machine.execShutdown t s
  | .inputOutOfRange mv since t => Sys2Proof.Machine.execInputOutOfRange mv since t s
  | .thermtrip block celsius8 t => Sys2Proof.Machine.execThermtrip block celsius8 t s
  | .droopStep block millivoltPermille t => Sys2Proof.Machine.execDroopStep block millivoltPermille t s
  | .droopRecover block permille t => Sys2Proof.Machine.execDroopRecover block permille t s
  | .temperatureStep block celsius8 t => Sys2Proof.Machine.execTemperatureStep block celsius8 t s
  | .temperatureRecover block celsius8 t => Sys2Proof.Machine.execTemperatureRecover block celsius8 t s
  | .powerLimit watts => Sys2Proof.Machine.execPowerLimit watts s
  | .inputInRange mv t => Sys2Proof.Machine.execInputInRange mv t s
  | .stewardHeartbeat half t => Sys2Proof.Machine.execStewardHeartbeat half t s
  | .livenessPulse block t => Sys2Proof.Machine.execLivenessPulse block t s
  | .hbmRefresh stack celsius => Sys2Proof.Machine.execHbmRefresh stack celsius s

end Sys2Proof.Machine
end

