-- ==== Sys2Proof/WellFormed.lean ====
section
/-! DEFINITION. The checks of one command on its own: the units, indexes, sizes and frame shapes it names exist, and its bits are
those of its row (R40, R55, R260, R270, R397, R398, R405). A meaning stops on a command that fails them (log 11). -/

namespace Sys2Proof

open Sys2Proof.Machine

/-- A bank word, or a granule, and flips that lie in what the scrub reads (R455). -/
def scrubOk (target : ScrubTarget) (upsets : List Upset) : Bool :=
  match target with
  | .sram _ word => decide (word < bankWords) && upsetsIn upsets (touched (word * 64) 64)
  | .hbm _ granule => upsetsIn upsets [granule]

/-- A place that takes work over is a block of the module (R369). -/
def targetNamed (target : Option Word16) : Bool :=
  match target with
  | some w => validBlock w.toNat
  | none => true

/-- The command is well formed. -/
def Instr.wf (i : Instr) : Bool :=
  match i with
  | .bell _ _ _ => true
  | .bellPageWriteIgnored _ _ offset size => ignoredBellWrite offset size
  | .load _ _ word _ => decide (controlCommand word.toNat = 1) || !controlSound word.toNat
  | .stop _ _ word => decide (controlCommand word.toNat = 2) || !controlSound word.toNat
  | .drain _ _ word => decide (controlCommand word.toNat = 3) || !controlSound word.toNat
  | .controlReservedCommand _ _ word => decide (controlCommand word.toNat = 0) || !controlSound word.toNat
  | .ringIdle _ => true
  | .slipConsume _ _ => true
  | .groupTableReadDone _ _ => true
  | .itemStart _ => true
  | .itemComplete _ => true
  | .receiptWriteDeferred _ => true
  | .gemmForward _ => true
  | .gemmForwardDigital _ => true
  | .forwardWide _ => true
  | .backwardData _ => true
  | .backwardWeight _ => true
  | .plain _ => true
  | .kernelRun _ => true
  | .loadImage _ _ => true
  | .clearOwnerReduce _ => true
  | .clearRingReduce _ => true
  | .clearDistribute _ => true
  | .copy _ => true
  | .moveLoad _ _ => true
  | .store _ => true
  | .declare _ => true
  | .retire _ => true
  | .settle _ => true
  | .stash _ => true
  | .recallItem _ => true
  | .signal _ => true
  | .wait _ => true
  | .take _ => true
  | .stepWriteStage _ => true
  | .stepWriteCommit _ => true
  | .fenceRing _ => true
  | .fenceAccount _ => true
  | .tallySignal source _ _ _ moved => validBlock source.toNat && moved.together.all opValid
  | .waitIssue _ => true
  | .heldWaitEnqueue _ => true
  | .waitDeadline _ _ => true
  | .updateStampDeadline _ _ => true
  | .vksSignal _ _ _ _ => true
  | .vksDrain _ _ => true
  | .tallyMove _ _ _ arrived => arrived.all opValid
  | .evaluationIssue _ _ _ _ _ => true
  | .referenceSequence _ _ _ => true
  | .outputTileConvert _ _ => true
  | .spillPartial _ _ => true
  | .assayDue _ _ _ _ => true
  | .assay _ _ _ => true
  | .assayApply _ => true
  | .tileMove _ _ _ => true
  | .oldDeckZeroProgram _ _ => true
  | .wearLevelCheck _ _ => true
  | .rowRefresh _ _ _ => true
  | .wearImageWrite _ => true
  | .bindingRecordWrite _ _ => true
  | .deckZeroProgram _ _ => true
  | .tileInstructionIssue _ _ _ _ _ _ _ => true
  | .dtbTileConvert _ _ => true
  | .contextRestore _ _ _ _ => true
  | .workUnitStart _ _ _ _ _ _ => true
  | .secondPassStart _ => true
  | .unitTimeout _ _ _ => true
  | .tellerStateIssue _ _ => true
  | .imageLoadToTeller _ _ _ _ => true
  | .bankRead _ word offset length upsets _ _ => bankAccessOk word.word offset length && flipsOk (word.word * 64 + offset) length upsets
  | .bankWrite _ word offset bytes => bankAccessOk word.word offset bytes.length
  | .eccWriteback _ => true
  | .portStallAgeing _ reads writes => reads.all (requestOk false) && writes.all (requestOk true)
  | .hbmRead _ extent offset length upsets _ => hbmAccessOk offset length && upsetsIn upsets (touched (extent * extentBytes + offset) length)
  | .hbmWrite _ _ offset bytes => hbmAccessOk offset bytes.length
  | .scrubRead target upsets => scrubOk target upsets
  | .vaultEvict _ _ => true
  | .offer _ frame _ => frameFits frameOffer 32 frame
  | .grant _ frame _ => frameFits frameGrant 0 frame
  | .refuse _ frame _ => frameFits frameRefuse 1 frame
  | .busy _ frame _ => frameFits frameBusy 0 frame
  | .offerRetry _ _ _ => true
  | .heldOfferExpiry _ _ => true
  | .data _ frame _ => dataFits frame
  | .ack _ frame _ => frameFits frameAck 0 frame
  | .retransmitTimeout _ _ _ _ => true
  | .planeProbe _ _ _ _ => true
  | .probe _ frame _ => frameFits frameProbe 0 frame
  | .abort _ frame _ => frameFits frameAbort 2 frame
  | .lostNotice _ frame _ => frameFits frameLost 36 frame
  | .pauseFrame _ => true
  | .peerLost _ _ => true
  | .peerContextClose _ _ _ _ => true
  | .clearDeadline _ _ => true
  | .grantPoint unit _ _ => unitOk unit
  | .quantumExpiry unit _ => timeSliced unit
  | .admitAccount _ _ _ => true
  | .resize _ _ _ => true
  | .remove _ _ => true
  | .accountCommandMalformed _ value => decide (commandOf value.toNat = 0) || decide (3 < commandOf value.toNat)
  | .accountCommandDiscarded _ _ => true
  | .blockRecovery block target => watched block.toNat && targetNamed target
  | .livenessTimeout block _ => watched block.toNat
  | .regionFence region failed _ _ => validBlock failed.toNat && decide (blockLocation failed.toNat = region.val)
  | .stewardHeartbeatTimeout _ _ => true
  | .hbmFenced _ _ => true
  | .bridgeLost _ => true
  | .fenceSelfTest block _ _ => validBlock block.toNat
  | .queuedRecoveryStart _ => true
  | .charterRenewal _ _ _ _ => true
  | .leaseExpiry _ _ => true
  | .charterTake _ _ _ => true
  | .witnessReread _ _ _ => true
  | .charterRejection _ _ => true
  | .epochCommand block _ _ _ => validBlock block.toNat
  | .stewardRestart _ _ => true
  | .fwUpdateStart _ _ _ => true
  | .stewardRestartDone _ _ _ _ => true
  | .dumpRequest _ value => bit value.toNat 0
  | .auditDump _ => true
  | .dumpSelectOlder _ value => !bit value.toNat 0
  | .dumpWindowRead _ offset size => pageAccess offset size (2 ^ 28)
  | .exchangeRateRefresh half block sent marked t => rateBlock half block.toNat && decide (sent ≤ marked) && decide (marked ≤ t)
  | .companionTimeWrite _ _ _ => true
  | .companionTimeStale _ => true
  | .witnessBaseWrite _ _ => true
  | .registerWrite _ offset value => registerAccess offset 8 && !ownCommand offset value.toNat
  | .registerRetry _ offset _ => stewardRegisters.contains offset
  | .companionRequestError _ type offset size => requestError type offset size
  | .reservedOffsetAccess _ offset size write => pageAccess offset size windowBytes && reservedAccess offset size write
  | .flashWindowWrite _ offset bytes => flashWriteOk offset bytes.length
  | .snoop _ line => decide (line % 64 = 0)
  | .sclFlitCrcFailure _ _ => true
  | .sclLaneFailure _ _ => true
  | .sclWidthRetry _ _ _ => true
  | .sclRefclkLoss _ => true
  | .vfPortPhyWrite _ _ _ => true
  | .vfFullWidthRequest _ _ value => bit value.toNat 4
  | .vfLaneFailure _ _ => true
  | .vfTrainingDone _ => true
  | .spdmGetVersion _ _ => true
  | .spdmGetCapabilities _ _ => true
  | .spdmNegotiateAlgorithms _ _ => true
  | .spdmGetDigests _ _ => true
  | .spdmGetCertificate _ _ => true
  | .spdmChallenge _ _ => true
  | .spdmGetMeasurements _ _ => true
  | .spdmUnsupportedRequest _ _ => true
  | .spdmBadLength _ _ length => decide (length.toNat = 0) || decide (4096 < length.toNat)
  | .sampleMark _ _ => true
  | .telemetryExport _ => true
  | .i3cPageSelect _ => true
  | .i3cPageRead length => decide (1 ≤ length) && decide (length ≤ 64)
  | .i3cPageUpdate _ _ => true
  | .i3cPageStale _ => true
  | .entdaa _ => true
  | .setdasa _ _ => true
  | .rstdaa => true
  | .getpid => true
  | .getbcr => true
  | .getdcr => true
  | .getstatus => true
  | .getmwl => true
  | .getmrl => true
  | .enec _ => true
  | .disec _ => true
  | .enableRise _ => true
  | .bootVerify _ _ _ _ _ => true
  | .selfTest failures fittedGib _ _ _ => decide (fittedGib.length = 8) && failures.all fun f => validBlock f.block.toNat && testCodeOk f.block.toNat f.code.toNat
  | .startupAssay _ _ => true
  | .ready _ => true
  | .enableFallDuringStartup _ => true
  | .shutdown _ => true
  | .inputOutOfRange mv _ _ => !inputOk mv
  | .thermtrip block _ _ => validBlock block.toNat
  | .droopStep block _ _ => validBlock block.toNat
  | .droopRecover block _ _ => validBlock block.toNat
  | .temperatureStep block _ _ => validBlock block.toNat
  | .temperatureRecover block _ _ => validBlock block.toNat
  | .powerLimit _ => true
  | .inputInRange mv _ => inputOk mv
  | .stewardHeartbeat _ _ => true
  | .livenessPulse block _ => watched block.toNat
  | .hbmRefresh _ _ => true

/-- An HBM access lies within the extents that the serving stack has (R270). -/
def hbmPresent (s : State) (i : Instr) : Bool :=
  match i with
  | .hbmRead k e _ _ _ _ => !hbmServes s k.val || decide (e < stackExtents s k.val)
  | .hbmWrite k e _ _ => !hbmServes s k.val || decide (e < stackExtents s k.val)
  | .scrubRead (.hbm k g) _ => !hbmServes s k.val || decide (g / extentGranules < stackExtents s k.val)
  | _ => true

end Sys2Proof
end

