-- ==== Sys2Proof/Safety.lean ====
section
/-! DEFINITION. What claims about the block are stated in: a command that completes, a run that does not stop, and the canonical
form of every byte memory, and which parts of the state may change. -/

namespace Sys2Proof.Machine

open Sys2Proof

/-- The command completes in a next state with the property. -/
def Answers (i : Instr) (s : State) (P : State → Prop) : Prop := ∃ t, exec i s = .next t ∧ P t

/-- Every byte memory of the state is in the canonical form: companion memory, banks, stacks, the flash images and the attestation
buffers. -/
def MemoriesCanonical (s : State) : Prop :=
  s.cmem.wf = true ∧ (∀ p ∈ s.banks, p.2.bytes.wf = true) ∧ (∀ p ∈ s.hbmStacks, p.2.bytes.wf = true) ∧
  s.flash.loaderW.wf = true ∧ s.flash.loaderE.wf = true ∧ s.flash.slotA.wf = true ∧ s.flash.slotB.wf = true ∧
  s.mail.west.request.wf = true ∧ s.mail.east.request.wf = true

/-- The parts of the state, one for each field. -/
inductive Part where
  | pending
  | out
  | free
  | now
  | cmem
  | lastWrite
  | power
  | flash
  | hub
  | stewards
  | halfFenced
  | bridgeUp
  | moving
  | stopped
  | rings
  | accounts
  | tensors
  | tallies
  | images
  | items
  | nextItem
  | heldWaits
  | islands
  | decks
  | aabs
  | dtbs
  | tellers
  | banks
  | hbmStacks
  | tickets
  | offers
  | peers
  | lostPeers
  | ports
  | pools
  | grants
  | recovering
  | recoveryQueue
  | links
  | mail
  | rates
  | dumps
  | dumpCount
  | dumpDue
  | telemetry
  | i3c
  deriving DecidableEq, Repr

/-- The part is equal in two states. -/
def Part.same (p : Part) (s t : State) : Prop :=
  match p with
  | .pending => t.pending = s.pending
  | .out => t.out = s.out
  | .free => t.free = s.free
  | .now => t.now = s.now
  | .cmem => t.cmem = s.cmem
  | .lastWrite => t.lastWrite = s.lastWrite
  | .power => t.power = s.power
  | .flash => t.flash = s.flash
  | .hub => t.hub = s.hub
  | .stewards => t.stewards = s.stewards
  | .halfFenced => t.halfFenced = s.halfFenced
  | .bridgeUp => t.bridgeUp = s.bridgeUp
  | .moving => t.moving = s.moving
  | .stopped => t.stopped = s.stopped
  | .rings => t.rings = s.rings
  | .accounts => t.accounts = s.accounts
  | .tensors => t.tensors = s.tensors
  | .tallies => t.tallies = s.tallies
  | .images => t.images = s.images
  | .items => t.items = s.items
  | .nextItem => t.nextItem = s.nextItem
  | .heldWaits => t.heldWaits = s.heldWaits
  | .islands => t.islands = s.islands
  | .decks => t.decks = s.decks
  | .aabs => t.aabs = s.aabs
  | .dtbs => t.dtbs = s.dtbs
  | .tellers => t.tellers = s.tellers
  | .banks => t.banks = s.banks
  | .hbmStacks => t.hbmStacks = s.hbmStacks
  | .tickets => t.tickets = s.tickets
  | .offers => t.offers = s.offers
  | .peers => t.peers = s.peers
  | .lostPeers => t.lostPeers = s.lostPeers
  | .ports => t.ports = s.ports
  | .pools => t.pools = s.pools
  | .grants => t.grants = s.grants
  | .recovering => t.recovering = s.recovering
  | .recoveryQueue => t.recoveryQueue = s.recoveryQueue
  | .links => t.links = s.links
  | .mail => t.mail = s.mail
  | .rates => t.rates = s.rates
  | .dumps => t.dumps = s.dumps
  | .dumpCount => t.dumpCount = s.dumpCount
  | .dumpDue => t.dumpDue = s.dumpDue
  | .telemetry => t.telemetry = s.telemetry
  | .i3c => t.i3c = s.i3c

/-- The frame of a command: every part of the state outside the list is as before. -/
def Touches (ps : List Part) (s t : State) : Prop := ∀ p, p ∉ ps → p.same s t

/-- Every part. -/
def allParts : List Part :=
  [.pending, .out, .free, .now, .cmem, .lastWrite, .power, .flash, .hub, .stewards, .halfFenced, .bridgeUp, .moving,
   .stopped, .rings, .accounts, .tensors, .tallies, .images, .items, .nextItem, .heldWaits, .islands, .decks, .aabs, .dtbs,
   .tellers, .banks, .hbmStacks, .tickets, .offers, .peers, .lostPeers, .ports, .pools, .grants, .recovering,
   .recoveryQueue, .links, .mail, .rates, .dumps, .dumpCount, .dumpDue, .telemetry, .i3c]

/-- Every part but those listed. -/
def partsBut (ps : List Part) : List Part := allParts.filter fun p => !ps.contains p

/-- What the end of an item may change: its waits and tallies, its outputs, what it holds, its ring and its receipt. -/
def endParts : List Part := [.out, .free, .cmem, .lastWrite, .rings, .accounts, .tensors, .tallies, .items, .heldWaits, .islands, .decks, .aabs, .dtbs, .tellers, .tickets, .peers]

end Sys2Proof.Machine

namespace Sys2Proof

open Sys2Proof.Machine

/-- The parts of the state that a command may change. -/
def Instr.reach (i : Instr) : List Part :=
  match i with
  | .bell _ _ _ => [.out, .cmem, .lastWrite, .rings, .islands, .dumpDue]
  | .bellPageWriteIgnored _ _ _ _ => [.out, .islands]
  | .load _ _ _ _ => [.out, .cmem, .lastWrite, .hub, .rings, .islands, .dumpDue]
  | .stop _ _ _ => [.dumpDue] ++ endParts
  | .drain _ _ _ => [.out, .cmem, .lastWrite, .rings, .islands, .dumpDue]
  | .controlReservedCommand _ _ _ => [.out, .cmem, .lastWrite, .rings, .islands, .dumpDue]
  | .ringIdle _ => [.cmem, .lastWrite, .rings]
  | .slipConsume _ _ => [.cmem, .lastWrite, .rings, .accounts, .items, .nextItem, .islands, .dumpDue]
  | .groupTableReadDone _ _ => endParts
  | .itemStart _ => [.offers, .dumpDue] ++ endParts
  | .itemComplete _ => [.hub, .images, .hbmStacks, .offers, .pools, .dumpDue] ++ endParts
  | .receiptWriteDeferred _ => [.out, .cmem, .lastWrite, .hub, .rings, .accounts, .tensors, .tallies, .images, .items, .islands, .decks, .tellers, .hbmStacks, .offers, .pools]
  | .gemmForward _ => [.dumpDue] ++ endParts
  | .gemmForwardDigital _ => [.dumpDue] ++ endParts
  | .forwardWide _ => [.dumpDue] ++ endParts
  | .backwardData _ => [.dumpDue] ++ endParts
  | .backwardWeight _ => [.dumpDue] ++ endParts
  | .plain _ => [.dumpDue] ++ endParts
  | .kernelRun _ => [.dumpDue] ++ endParts
  | .loadImage _ _ => [.images] ++ endParts
  | .clearOwnerReduce _ => [.dumpDue] ++ endParts
  | .clearRingReduce _ => [.dumpDue] ++ endParts
  | .clearDistribute _ => [.dumpDue] ++ endParts
  | .copy _ => [.dumpDue] ++ endParts
  | .moveLoad _ _ => [.dumpDue] ++ endParts
  | .store _ => [.dumpDue] ++ endParts
  | .declare _ => endParts
  | .retire _ => [.tensors, .tallies, .images, .items, .decks, .tellers, .hbmStacks]
  | .settle _ => [.dumpDue] ++ endParts
  | .stash _ => [.dumpDue] ++ endParts
  | .recallItem _ => [.dumpDue] ++ endParts
  | .signal _ => [.dumpDue] ++ endParts
  | .wait _ => [.dumpDue] ++ endParts
  | .take _ => [.dumpDue] ++ endParts
  | .stepWriteStage _ => endParts
  | .stepWriteCommit _ => [.dumpDue] ++ endParts
  | .fenceRing _ => [.items]
  | .fenceAccount _ => [.items]
  | .tallySignal _ _ _ _ _ => [.dumpDue] ++ endParts
  | .waitIssue _ => [.dumpDue] ++ endParts
  | .heldWaitEnqueue _ => [.tallies, .items, .heldWaits, .islands]
  | .waitDeadline _ _ => [.now] ++ endParts
  | .updateStampDeadline _ _ => [.now] ++ endParts
  | .vksSignal _ _ _ _ => [.dumpDue] ++ endParts
  | .vksDrain _ _ => endParts
  | .tallyMove _ _ _ _ => [.dumpDue] ++ endParts
  | .evaluationIssue _ _ _ _ _ => [.free, .flash, .items, .islands, .decks, .aabs, .dtbs, .tellers, .banks, .recovering, .recoveryQueue, .dumpDue]
  | .referenceSequence _ _ _ => [.free, .decks, .aabs]
  | .outputTileConvert _ _ => [.dumpDue] ++ endParts
  | .spillPartial _ _ => [.dumpDue] ++ endParts
  | .assayDue _ _ _ _ => [.now, .islands, .decks]
  | .assay _ _ _ => [.free, .now, .islands, .decks, .dumpDue]
  | .assayApply _ => [.tensors, .decks]
  | .tileMove _ _ _ => [.free, .now, .tensors, .islands, .decks, .dumpDue]
  | .oldDeckZeroProgram _ _ => [.free, .now, .islands, .decks, .dumpDue]
  | .wearLevelCheck _ _ => [.free, .now, .tensors, .islands, .decks, .aabs, .dumpDue]
  | .rowRefresh _ _ _ => [.free, .now, .tensors, .islands, .decks, .dumpDue]
  | .wearImageWrite _ => [.now, .flash, .islands, .decks]
  | .bindingRecordWrite _ _ => [.now, .decks]
  | .deckZeroProgram _ _ => [.free, .now, .islands, .decks, .dumpDue]
  | .tileInstructionIssue _ _ _ _ _ _ _ => [.flash, .banks, .recovering, .recoveryQueue, .dumpDue] ++ endParts
  | .dtbTileConvert _ _ => [.dumpDue] ++ endParts
  | .contextRestore _ _ _ _ => [.items, .islands, .dtbs, .dumpDue]
  | .workUnitStart _ _ _ _ _ _ => [.flash, .banks, .recovering, .recoveryQueue, .dumpDue] ++ endParts
  | .secondPassStart _ => [.items]
  | .unitTimeout _ _ _ => endParts
  | .tellerStateIssue _ _ => endParts
  | .imageLoadToTeller _ _ _ _ => [.islands, .tellers]
  | .bankRead _ _ _ _ _ _ _ => [.flash, .banks, .recovering, .recoveryQueue, .dumpDue] ++ endParts
  | .bankWrite _ _ _ _ => [.banks, .dumpDue] ++ endParts
  | .eccWriteback _ => [.banks, .dumpDue] ++ endParts
  | .portStallAgeing _ _ _ => [.banks, .dumpDue] ++ endParts
  | .hbmRead _ _ _ _ _ _ => [.hbmStacks, .dumpDue] ++ endParts
  | .hbmWrite _ _ _ _ => [.islands, .hbmStacks, .dumpDue]
  | .scrubRead _ _ => [.flash, .banks, .hbmStacks, .recovering, .recoveryQueue, .dumpDue] ++ endParts
  | .vaultEvict _ _ => [.free, .accounts]
  | .offer _ _ _ => [.now, .offers, .dumpDue] ++ endParts
  | .grant _ _ _ => [.now, .offers, .dumpDue] ++ endParts
  | .refuse _ _ _ => [.now, .offers, .dumpDue] ++ endParts
  | .busy _ _ _ => [.now, .offers, .dumpDue] ++ endParts
  | .offerRetry _ _ _ => [.out, .free, .now, .items, .islands, .tickets, .peers]
  | .heldOfferExpiry _ _ => [.now, .offers]
  | .data _ _ _ => [.now, .offers, .dumpDue] ++ endParts
  | .ack _ _ _ => [.out, .free, .now, .items, .islands, .tickets, .peers, .lostPeers]
  | .retransmitTimeout _ _ _ _ => [.out, .now, .items, .islands, .peers]
  | .planeProbe _ _ _ _ => [.out, .now, .islands, .peers]
  | .probe _ _ _ => [.out, .now, .islands]
  | .abort _ _ _ => [.now, .offers, .dumpDue] ++ endParts
  | .lostNotice _ _ _ => [.now, .offers, .dumpDue] ++ endParts
  | .pauseFrame _ => [.islands]
  | .peerLost _ _ => [.now, .lostPeers, .dumpDue] ++ endParts
  | .peerContextClose _ _ _ _ => [.now, .peers]
  | .clearDeadline _ _ => [.now] ++ endParts
  | .grantPoint _ _ _ => [.free, .now, .items, .islands, .dtbs, .pools, .grants]
  | .quantumExpiry _ _ => [.now, .pools, .grants]
  | .admitAccount _ _ _ => [.out, .free, .cmem, .hub, .accounts, .islands, .decks, .hbmStacks, .dumpDue]
  | .resize _ _ _ => [.out, .free, .cmem, .hub, .accounts, .islands, .decks, .hbmStacks, .dumpDue]
  | .remove _ _ => [.hub, .images, .hbmStacks, .offers, .pools] ++ endParts
  | .accountCommandMalformed _ _ => [.out, .hub, .islands]
  | .accountCommandDiscarded _ _ => [.out, .islands]
  | .blockRecovery _ _ => [.recovering, .dumpDue] ++ endParts
  | .livenessTimeout _ _ => [.now, .flash, .items, .islands, .decks, .aabs, .dtbs, .tellers, .banks, .recovering, .recoveryQueue, .dumpDue]
  | .regionFence _ _ _ _ => [.now, .flash, .images, .banks, .recovering, .recoveryQueue, .dumpDue] ++ endParts
  | .stewardHeartbeatTimeout _ _ => [.out, .now, .power, .flash, .stewards, .moving, .stopped, .islands, .recovering, .dumpDue]
  | .hbmFenced _ _ => [.now, .flash, .images, .hbmStacks, .recovering, .recoveryQueue, .dumpDue] ++ endParts
  | .bridgeLost _ => partsBut [.pending, .power, .hub, .moving, .stopped, .nextItem, .offers, .lostPeers, .ports, .pools, .grants, .links, .mail, .rates, .dumps, .dumpCount, .telemetry, .i3c]
  | .fenceSelfTest _ _ _ => [.now, .stewards, .islands, .hbmStacks]
  | .queuedRecoveryStart _ => [.now, .images, .recovering, .recoveryQueue] ++ endParts
  | .charterRenewal _ _ _ _ => [.out, .now, .cmem, .lastWrite, .stewards, .islands, .dumpDue]
  | .leaseExpiry _ _ => [.now, .stewards]
  | .charterTake _ _ _ => [.out, .now, .cmem, .lastWrite, .power, .hub, .stewards, .moving, .stopped, .islands, .recovering, .dumpDue]
  | .witnessReread _ _ _ => [.now, .cmem, .stewards, .islands, .dumpDue]
  | .charterRejection _ _ => [.stewards, .islands, .dumpDue]
  | .epochCommand _ _ _ _ => [.out, .islands, .dumpDue]
  | .stewardRestart _ _ => [.out, .stewards]
  | .fwUpdateStart _ _ _ => [.out, .hub, .stewards]
  | .stewardRestartDone _ _ _ _ => [.now, .hub, .stewards, .moving]
  | .dumpRequest _ _ => [.out, .hub]
  | .auditDump _ => [.now, .hub, .dumps, .dumpCount, .dumpDue]
  | .dumpSelectOlder _ _ => [.out, .hub]
  | .dumpWindowRead _ _ _ => [.out, .free]
  | .exchangeRateRefresh _ _ _ _ _ => [.now, .rates]
  | .companionTimeWrite _ _ _ => [.out, .now, .rates, .telemetry]
  | .companionTimeStale _ => [.now, .telemetry]
  | .witnessBaseWrite _ _ => [.out, .hub, .islands]
  | .registerWrite _ _ _ => [.out, .hub, .islands, .mail, .telemetry]
  | .registerRetry _ _ _ => [.out]
  | .companionRequestError _ _ _ _ => [.out]
  | .reservedOffsetAccess _ _ _ _ => [.out, .islands]
  | .flashWindowWrite _ _ _ => [.out, .flash]
  | .snoop _ _ => [.out, .free, .lastWrite]
  | .sclFlitCrcFailure _ _ => [.out, .islands, .links]
  | .sclLaneFailure _ _ => [.out, .islands, .links]
  | .sclWidthRetry _ _ _ => [.now, .islands, .links]
  | .sclRefclkLoss _ => [.islands, .links]
  | .vfPortPhyWrite _ _ _ => [.out, .islands, .ports]
  | .vfFullWidthRequest _ _ _ => [.out, .islands, .ports]
  | .vfLaneFailure _ _ => [.islands, .ports]
  | .vfTrainingDone _ => [.ports]
  | .spdmGetVersion _ _ => [.out, .free, .islands, .mail]
  | .spdmGetCapabilities _ _ => [.out, .free, .islands, .mail]
  | .spdmNegotiateAlgorithms _ _ => [.out, .free, .islands, .mail]
  | .spdmGetDigests _ _ => [.out, .free, .islands, .mail]
  | .spdmGetCertificate _ _ => [.out, .free, .islands, .mail]
  | .spdmChallenge _ _ => [.out, .free, .islands, .mail]
  | .spdmGetMeasurements _ _ => [.out, .free, .islands, .mail]
  | .spdmUnsupportedRequest _ _ => [.out, .free, .islands, .mail]
  | .spdmBadLength _ _ _ => [.out, .mail]
  | .sampleMark _ _ => [.now, .islands, .telemetry]
  | .telemetryExport _ => [.free, .now, .cmem, .lastWrite, .islands, .telemetry]
  | .i3cPageSelect _ => [.i3c]
  | .i3cPageRead _ => [.out, .free, .i3c]
  | .i3cPageUpdate _ _ => [.free, .now, .i3c]
  | .i3cPageStale _ => [.now, .i3c]
  | .entdaa _ => [.i3c]
  | .setdasa _ _ => [.i3c]
  | .rstdaa => [.i3c]
  | .getpid => [.out]
  | .getbcr => [.out]
  | .getdcr => [.out]
  | .getstatus => [.out, .free]
  | .getmwl => [.out]
  | .getmrl => [.out]
  | .enec _ => [.i3c]
  | .disec _ => [.i3c]
  | .enableRise _ => partsBut [.pending, .out, .free, .cmem, .flash, .i3c]
  | .bootVerify _ _ _ _ _ => [.now, .power, .flash, .stewards, .halfFenced, .bridgeUp, .items, .islands, .decks, .aabs, .dtbs, .tellers, .banks, .hbmStacks, .recovering, .recoveryQueue, .links, .dumpDue]
  | .selfTest _ _ _ _ _ => [.out, .now, .power, .flash, .stewards, .islands, .hbmStacks, .links, .dumpDue]
  | .startupAssay _ _ => [.free, .now, .power, .islands, .decks, .dumpDue]
  | .ready _ => [.out, .now, .power]
  | .enableFallDuringStartup _ => partsBut [.pending, .free, .cmem, .flash, .i3c]
  | .shutdown _ => partsBut [.pending, .i3c]
  | .inputOutOfRange _ _ _ => partsBut [.pending, .free, .cmem, .flash]
  | .thermtrip _ _ _ => partsBut [.pending, .free, .cmem, .flash, .i3c]
  | .droopStep _ _ _ => [.now, .islands]
  | .droopRecover _ _ _ => [.now, .islands]
  | .temperatureStep _ _ _ => [.now, .islands]
  | .temperatureRecover _ _ _ => [.now, .islands]
  | .powerLimit _ => [.power, .i3c]
  | .inputInRange _ _ => [.now, .power]
  | .stewardHeartbeat _ _ => [.now, .stewards]
  | .livenessPulse _ _ => [.now, .islands]
  | .hbmRefresh _ _ => [.hbmStacks]

end Sys2Proof

namespace Sys2Proof.Machine

open Sys2Proof

/-- Every entry of a table of the state but one is as before. -/
def Beside {α : Type} (get : State → Nat → α) (n : Nat) (s t : State) : Prop := ∀ m, m ≠ n → get t m = get s m

/-- Bytes have been stored in companion memory from an address, and every other byte reads as before. -/
def Stored (m m' : Memory) (a : Nat) (bytes : List Byte) : Prop :=
  readBytes m' a bytes.length = bytes ∧ ∀ c, c < a ∨ a + bytes.length ≤ c → readByte m' c = readByte m c

/-- A telemetry slot of a block has advanced, and nothing else of any block has changed. -/
def Counts (b slot k : Nat) (s t : State) : Prop :=
  Beside State.island b s t ∧ t.island b = { s.island b with counters := (t.island b).counters } ∧
  lookup {} (t.island b).counters slot = bumpCounter (lookup {} (s.island b).counters slot) k ∧
  ∀ j, j ≠ slot → lookup {} (t.island b).counters j = lookup {} (s.island b).counters j

/-- A run of `n` steps reaches a state: no step of a safe run stops. -/
def Runs : Nat → State → State → Prop
  | 0, s, t => s = t
  | n + 1, s, t => ∃ u, step s = .next u ∧ Runs n u t

/-- The commands that wait are well formed. -/
def QueueWf (s : State) : Prop := ∀ i ∈ s.pending, i.wf = true

end Sys2Proof.Machine
end

