-- ==== Sys2Proof/Certificates/Slice0/Obligations.lean ====
section
/-! DEFINITION. The statements for the provers: what the rules of spec/ say the commands do, by family, with the frame of each. -/

open Sys2Proof Sys2Proof.Machine

/-! ### The queue, and what every command keeps -/

/-- A step runs the command at the front of the queue, with the rest left waiting (95_what_each_step_holds.md). -/
def Obligations.StepRunsTheFrontCommand : Prop :=
  (∀ (c : Instr) (rest : List Instr) (s : State), step { s with pending := c :: rest } = exec c { s with pending := rest }) ∧
  ∀ s : State, s.pending = [] → step s = .next s

/-- No command changes the queue of waiting commands (95_what_each_step_holds.md). -/
def Obligations.CommandsLeaveTheQueue : Prop :=
  ∀ (i : Instr) (s t : State), exec i s = .next t → t.pending = s.pending

/-- Every step keeps every byte memory in its canonical form (08_tellers_and_banks.md, 13_external_interfaces.md,
14_power_boot_security.md). -/
def Obligations.StepsKeepMemoriesCanonical : Prop :=
  ∀ s t : State, MemoriesCanonical s → step s = .next t → MemoriesCanonical t

/-- A well-formed command never stops the block, and an ill-formed one always does (01_device_organisation.md,
08_tellers_and_banks.md, 13_external_interfaces.md). -/
def Obligations.WellFormedCommandsComplete : Prop :=
  ∀ (i : Instr) (s : State),
    (i.wf = true ∧ hbmPresent s i = true → ∃ t, exec i s = .next t) ∧
    (¬(i.wf = true ∧ hbmPresent s i = true) → exec i s = .fault .illFormed)

/-- Every command changes only the parts of the state that belong to it (95_what_each_step_holds.md). -/
def Obligations.CommandsTouchOnlyTheirParts : Prop :=
  ∀ (i : Instr) (s t : State), exec i s = .next t → Touches i.reach s t

/-! ### Rings (R41 to R60, R71 to R78, R402) -/

/-- The error of a ring (R49, R58): a running ring enters error state and a stopping one takes the code, each with its shadow
written; an idle ring and one in error state stay as they are, and no shadow is written. -/
def RingErrs (n code : Nat) (s t : State) : Prop :=
  Touches [.rings, .cmem, .lastWrite] s t ∧ Beside State.ring n s t ∧
  match (s.ring n).state with
  | .running => t.ring n = { s.ring n with state := .error, error := code } ∧
      Stored s.cmem t.cmem (s.ring n).shadow (shadowBytes (s.ring n).shadowIndex .error code)
  | .stopping => t.ring n = { s.ring n with error := code } ∧
      Stored s.cmem t.cmem (s.ring n).shadow (shadowBytes (s.ring n).shadowIndex .stopping code)
  | .idle | .error => t.ring n = s.ring n ∧ t.cmem = s.cmem

/-- A bell whose index is ahead and within the ring's bound is accepted and forwarded (R50, R52, R402, 02_work_contract.md). -/
def Obligations.BellAheadIsAccepted : Prop :=
  ∀ (s : State) (ep : Half) (ring : Byte) (word : Word64),
    let r := s.ring ring.toNat
    let index := bits word.toNat 31 0
    endpointUp s ep = true → bits word.toNat 63 32 = onesComplement 32 index → r.state ≠ .idle → r.flips = [] → ahead32 index (r.kept1 ep) = true →
    (r.completion = false → sub32 index r.consumer ≤ 2 ^ r.log2Size) → (r.completion = true → ahead32 index r.producer = false) →
    Answers (.bell ep ring word) s fun t =>
      Touches [.rings, .out] s t ∧ Beside State.ring ring.toNat s t ∧
      t.ring ring.toNat = { r with
        bellWest := if s.bridgeUp = true ∨ ep = .west then index else r.bellWest
        bellEast := if s.bridgeUp = true ∨ ep = .east then index else r.bellEast
        consumer := if r.completion = true then index else r.consumer } ∧
      t.out = s.out ++ .done ep :: (if s.bridgeUp = true then [.bellForward ep.other ring.toNat index] else [])

/-- A bell beyond the ring's bound is discarded and sets error 0x02 or 0x05 (R51). -/
def Obligations.BellBeyondTheBoundSetsError : Prop :=
  ∀ (s : State) (ep : Half) (ring : Byte) (word : Word64),
    let r := s.ring ring.toNat
    let index := bits word.toNat 31 0
    endpointUp s ep = true → bits word.toNat 63 32 = onesComplement 32 index → r.state ≠ .idle → r.unsound (r.bellReads ep) = false →
    ahead32 index (r.kept1 ep) = true →
    (r.completion = false → 2 ^ r.log2Size < sub32 index r.consumer →
      Answers (.bell ep ring word) s fun t => RingErrs ring.toNat 2 { s with out := s.out ++ [.done ep] } t) ∧
    (r.completion = true → ahead32 index r.producer = true →
      Answers (.bell ep ring word) s fun t => RingErrs ring.toNat 5 { s with out := s.out ++ [.done ep] } t)

/-- A stale bell, a bell to an idle ring and a failed complement change no ring index (R49, R50, R56, R268, 02_work_contract.md). -/
def Obligations.BellTurnedAway : Prop :=
  ∀ (s : State) (ep : Half) (ring : Byte) (word : Word64),
    let r := s.ring ring.toNat
    let index := bits word.toNat 31 0
    endpointUp s ep = true →
    (bits word.toNat 63 32 = onesComplement 32 index → r.state ≠ .idle → r.unsound (r.bellReads ep) = false → ahead32 index (r.kept1 ep) = false →
      exec (.bell ep ring word) s = .next { s with out := s.out ++ [.done ep] }) ∧
    (bits word.toNat 63 32 = onesComplement 32 index → r.state = .idle →
      Answers (.bell ep ring word) s fun t =>
        Touches [.out, .islands] s t ∧ t.out = s.out ++ [.done ep] ∧ Counts (stewardBlock ep) 2 1 s t) ∧
    (bits word.toNat 63 32 ≠ onesComplement 32 index ∨ (r.state ≠ .idle ∧ r.unsound (r.bellReads ep) = true) →
      Answers (.bell ep ring word) s fun t => ∃ account,
        RingErrs ring.toNat 3 (({ s with out := s.out ++ [.done ep] } : State).complementFault (endpointBlock ep) 5 account 0 0) t)

/-- Ignored bell-page writes and reserved commands are answered, counted and change nothing else (R48, R55, 02_work_contract.md). -/
def Obligations.IgnoredBellPageWritesAreCounted : Prop :=
  ∀ (s : State) (ep : Half) (ring : Byte), endpointUp s ep = true →
    (∀ offset size : Nat, ignoredBellWrite offset size = true →
      Answers (.bellPageWriteIgnored ep ring offset size) s fun t =>
        Touches [.out, .islands] s t ∧ t.out = s.out ++ [.done ep] ∧ Counts (stewardBlock ep) 2 1 s t) ∧
    (∀ word : Word64, controlSound word.toNat = true → controlCommand word.toNat = 0 →
      Answers (.controlReservedCommand ep ring word) s fun t =>
        Touches [.out, .islands] s t ∧ t.out = s.out ++ [.done ep] ∧ Counts (stewardBlock ep) 2 1 s t)

/-- LOAD starts an idle ring from its entry, and fails as R45 says (R43, R44, R45, R46, R54, R55, 02_work_contract.md). -/
def Obligations.LoadStartsOrFails : Prop :=
  ∀ (s : State) (ep : Half) (ring : Byte) (word : Word64) (cw : List CWrite),
    let n := ring.toNat
    let m := applyStores s.cmem cw
    let entry := readLE m (s.hub.ringTableBase + 32 * n) 32
    let u : State := { s with cmem := m, out := s.out ++ [.done ep] }
    endpointUp s ep = true → controlSound word.toNat = true → controlCommand word.toNat = 1 →
    ((s.ring n).state = .idle → loadOk s entry = true →
      Answers (.load ep ring word cw) s fun t => Touches [.rings, .cmem, .lastWrite] u t ∧ Beside State.ring n s t ∧
        t.ring n = { ringOfEntry entry with state := .running } ∧
        Stored m t.cmem (bits entry 191 128) (shadowBytes 0 .running 0)) ∧
    ((s.ring n).state = .idle → loadOk s entry = false →
      Answers (.load ep ring word cw) s fun t => Touches [.rings, .cmem, .lastWrite, .hub] u t ∧ Beside State.ring n s t ∧
        t.ring n = { s.ring n with error := 1 } ∧
        t.hub = { s.hub with loadErrorRing := n, loadErrorCode := 1, loadErrorCount := (s.hub.loadErrorCount + 1) % 2 ^ 32 } ∧
        (bits entry 131 128 = 0 → Stored m t.cmem (bits entry 191 128) (shadowBytes 0 .idle 1)) ∧
        (bits entry 131 128 ≠ 0 → t.cmem = m)) ∧
    ((s.ring n).state ≠ .idle → Answers (.load ep ring word cw) s fun t => RingErrs n 4 u t)

/-- A STOP or a DRAIN that R55 turns away: an idle ring, and a completion ring that submission rings still report to. -/
def StopTurnedAway (n : Nat) (ep : Half) (s t : State) : Prop :=
  ((s.ring n).state = .idle → Touches [.out, .islands] s t ∧ t.out = s.out ++ [.done ep] ∧ Counts (stewardBlock ep) 2 1 s t) ∧
  ((s.ring n).state ≠ .idle → RingErrs n 6 { s with out := s.out ++ [.done ep] } t)

/-- STOP and DRAIN stop a ring, STOP ends its items at their stopping points, and R55's cases change no state (R54, R55, R57, R467,
02_work_contract.md). -/
def Obligations.StopAndDrain : Prop :=
  ∀ (s : State) (ep : Half) (ring : Byte) (word : Word64),
    let n := ring.toNat
    let r := s.ring n
    let st := if r.completion = true then RingState.idle else .stopping
    let refused := r.state = .idle ∨ (r.completion = true ∧ ringInUse s n = true)
    endpointUp s ep = true → controlSound word.toNat = true →
    (controlCommand word.toNat = 3 → ¬refused →
      Answers (.drain ep ring word) s fun t => Touches [.rings, .cmem, .lastWrite, .out] s t ∧ Beside State.ring n s t ∧
        t.ring n = { r with state := st } ∧ t.out = s.out ++ [.done ep] ∧
        Stored s.cmem t.cmem r.shadow (shadowBytes r.shadowIndex st r.error)) ∧
    (controlCommand word.toNat = 2 → ¬refused →
      Answers (.stop ep ring word) s fun t => t.ring n = { r with state := st, lastStatus := (t.ring n).lastStatus } ∧
        (∀ m, m ≠ n → t.ring m = { s.ring m with lastStatus := (t.ring m).lastStatus }) ∧
        ∀ id x, find s.items id = some x → ∃ y, find t.items id = some y ∧
          (2 < x.stage → y.stage = x.stage ∧ y.status = x.status) ∧
          (x.ring = n → x.stage ≤ 1 ∨ (x.stage = 2 ∧ isRun x.slip = false ∧ isGemm x.slip = false) → y.stage = 6 ∧ y.status = stCancelled) ∧
          (x.ring = n → x.stage = 2 → (y.stage = 6 ∧ y.status = stCancelled) ∨ (y.stage = 2 ∧ y.stopping = true))) ∧
    (controlCommand word.toNat = 3 → refused → Answers (.drain ep ring word) s (StopTurnedAway n ep s)) ∧
    (controlCommand word.toNat = 2 → refused → Answers (.stop ep ring word) s (StopTurnedAway n ep s))

/-- A stopping ring with nothing in flight goes idle, and its shadow says so (R54, R57, 02_work_contract.md). -/
def Obligations.StoppingRingGoesIdle : Prop :=
  ∀ (s : State) (ring : Byte), (s.ring ring.toNat).state = .stopping → inFlight s ring.toNat = 0 →
    Answers (.ringIdle ring) s fun t => Touches [.rings, .cmem, .lastWrite] s t ∧ Beside State.ring ring.toNat s t ∧
      t.ring ring.toNat = { s.ring ring.toNat with state := .idle } ∧
      Stored s.cmem t.cmem (s.ring ring.toNat).shadow
        (shadowBytes (s.ring ring.toNat).shadowIndex .idle (s.ring ring.toNat).error)

/-- The one slip a bell announced is copied, checked and journalled, and the shadow INDEX moves past it (R59, R71, R74, R82, R83,
02_work_contract.md). -/
def Obligations.AnnouncedSlipIsConsumed : Prop :=
  ∀ (s : State) (ring : Byte) (cw : List CWrite),
    let n := ring.toNat
    let r := s.ring n
    let m := applyStores s.cmem cw
    consumes s = true → mayConsume s n = true → r.flips = [] → (r.consumer + 1) % 2 ^ 32 = r.bellIndex →
    Answers (.slipConsume ring cw) s fun t =>
      Touches [.rings, .cmem, .lastWrite, .accounts, .items, .nextItem, .islands] s t ∧ Beside State.ring n s t ∧
      (t.ring n).consumer = (r.consumer + 1) % 2 ^ 32 ∧ (t.ring n).state = .running ∧ t.nextItem = s.nextItem + 1 ∧
      (∃ x, find t.items s.nextItem = some x ∧ x.slip = readLE m (r.base + 64 * (r.consumer % 2 ^ r.log2Size)) 64 ∧
        x.ring = n ∧ x.account = r.account ∧ x.slipIndex = r.consumer ∧
        (x.stage = 0 ∨ (x.stage = 6 ∧ isRejection x.status = true))) ∧
      Stored m t.cmem r.shadow (shadowBytes ((r.consumer + 1) % 2 ^ 32) .running r.error)

/-! ### Items, from start to receipt (R68 to R84, R467) -/

/-- The item has ended without success, with the status; it is no longer live. -/
def EndedAs (id status : Nat) (t : State) : Prop := ∃ y, find t.items id = some y ∧ y.stage = 6 ∧ y.status = status

/-- The item is at a stage. -/
def AtStage (id stage : Nat) (t : State) : Prop := ∃ y, find t.items id = some y ∧ y.stage = stage

/-- Every other item is as before. -/
def OtherItems (id : Nat) (s t : State) : Prop := Beside (fun u => find u.items) id s t

/-- Every other tensor is as before. -/
def OtherTensors (h : Nat) (s t : State) : Prop := Beside (fun u => find u.tensors) h s t

/-- The item's ring has been served (R75): of the account only the round's pointer moves. -/
def RingServed (x : Item) (s t : State) : Prop :=
  Beside State.account? x.account s t ∧
  t.account? x.account = (s.account? x.account).map fun a => { a with robin := (x.ring + 1) % 256 }

/-- An item whose predecessor failed is cancelled, one not ready or not its ring's turn waits, and one whose checks fail ends (R68,
R69, R71, R73, R75, R77, R278, R321, 02_work_contract.md). -/
def Obligations.ItemStartChecksAndWaits : Prop :=
  ∀ (s : State) (id : Nat) (x : Item), find s.items id = some x → let u := s.serveRing x
    (2 ≤ x.stage → exec (.itemStart id) s = .next s) ∧
    (x.stage ≤ 1 → itemsStart s = true →
      (previousFailed x = true → Answers (.itemStart id) s (EndedAs id stCancelled)) ∧
      (previousFailed x = false → startConditions s id x = false ∨ ringTurn s x = false → exec (.itemStart id) s = .next s) ∧
      (previousFailed x = false → startConditions s id x = true → ringTurn s x = true →
        (∀ status fault, startCheck u id x = .failed status fault → Answers (.itemStart id) s (EndedAs id status)) ∧
        (∀ byte, startCheck u id x = .malformed byte → Answers (.itemStart id) s fun t =>
          ∃ y, find t.items id = some y ∧ y.stage = 6 ∧ y.status = stMalformed ∧ y.rejectOffset = byte) ∧
        (startCheck u id x = .ok → zeroSize u x.slip = true → Answers (.itemStart id) s fun t =>
          Touches [.items, .accounts] s t ∧ RingServed x s t ∧ OtherItems id s t ∧ AtStage id 3 t)))

/-- The item may start now: it has not started, its conditions are met and it is its ring's turn, its checks pass, it has work to do,
and no writer of a version it would replace is running. -/
def MayStart (s : State) (id : Nat) (x : Item) : Prop :=
  find s.items id = some x ∧ x.stage ≤ 1 ∧ itemsStart s = true ∧ previousFailed x = false ∧ startConditions s id x = true ∧
  ringTurn s x = true ∧ startCheck (s.serveRing x) id x = .ok ∧ zeroSize (s.serveRing x) x.slip = false ∧
  versionWaits (s.serveRing x) id x = false

/-- An item that may start runs, with what its kind does at its start (R106, R152, R173, R197, R231, R232, R235, R243, R247, R248,
02_work_contract.md, 07_training_step.md). -/
def Obligations.ItemStartRuns : Prop :=
  ∀ (s : State) (id : Nat) (x : Item), MayStart s id x →
    let w := x.slip
    let u := s.serveRing x
    (isGemm w = false → isRun w = false → isOp famSettle 0 w = false → isClear w = false → isOp famStash 0 w = false →
      Answers (.itemStart id) s fun t => Touches [.items, .tensors, .accounts] s t ∧ RingServed x s t ∧ OtherItems id s t ∧ AtStage id 2 t ∧
        ∀ h, h ∉ replaces x → find t.tensors h = find s.tensors h) ∧
    (isRun w = true → isUpdate u w = false → Answers (.itemStart id) s fun t =>
        Touches [.items, .tensors, .accounts] s t ∧ RingServed x s t ∧ OtherItems id s t ∧ AtStage id 2 t) ∧
    (∀ c, isGemm w = true → find s.tensors (slipC w) = some c → isAnalogue u w = true → settleWaiting u (slipC w) = false →
      holdsFree u c = true → Answers (.itemStart id) s fun t =>
        Touches [.items, .tensors, .decks, .accounts] s t ∧ RingServed x s t ∧ OtherItems id s t ∧ AtStage id 2 t ∧
        (∃ c', find t.tensors (slipC w) = some c' ∧ c'.pinned = some (max (c.pinned.getD 0) (stepNumber u x.account))) ∧
        ∀ d ∈ heldDecks u c, id ∈ (t.deck d).holds) ∧
    (isGemm w = true → (∃ c, find s.tensors (slipC w) = some c) → isAnalogue u w = false →
      (slipOpcode w = 1 → settleWaiting u (slipC w) = false) → (∃ y, withOperand u x = some y) →
      Answers (.itemStart id) s fun t => OtherItems id s t ∧ AtStage id 2 t) ∧
    (∀ a m words, isRun w = true → isUpdate u w = true → (u.readRecord x.account).account? x.account = some a →
      find (u.readRecord x.account).tensors (slipA w) = some m → a.record = some words →
      (words.headD 0 ≤ m.stamp ∨ otherWriter (u.readRecord x.account) id (slipA w) = true →
        exec (.itemStart id) s = .next (u.readRecord x.account)) ∧
      (m.stamp < words.headD 0 → otherWriter (u.readRecord x.account) id (slipA w) = false → Answers (.itemStart id) s fun t =>
        ∃ y, find t.items id = some y ∧ y.stage = 2 ∧ y.snapshot = words)) ∧
    (isOp famSettle 0 w = true →
      (pinnedNow u (slipA w) = true → Answers (.itemStart id) s fun t =>
        Touches [.items, .accounts] s t ∧ OtherItems id s t ∧ ∃ y, find t.items id = some y ∧ y.stage = x.stage ∧ y.stampSince.isSome) ∧
      (pinnedNow u (slipA w) = false → settleRuns u (slipA w) = false →
        (∀ p ∈ s.items, p.2.stage ≤ 1 → isOp famSettle 0 p.2.slip = true → p.2.stampSince.isSome = true → id ≤ p.1) →
        Answers (.itemStart id) s fun t => Touches [.items, .accounts] s t ∧ OtherItems id s t ∧ AtStage id 2 t)) ∧
    (isOp famStash 0 w = true → (∃ v, find s.tensors (slipA w) = some v) → x.decision ≠ .none → Answers (.itemStart id) s fun t =>
      Touches [.items, .accounts] s t ∧ OtherItems id s t ∧ AtStage id 2 t)

/-- A receipt has been written at a completion ring's producer index, then its shadow; every other byte reads as before. -/
def ReceiptWritten (s t : State) (cr : Nat) (y : Item) : Prop :=
  let r := s.ring cr
  let a := r.base + 32 * (r.producer % 2 ^ r.log2Size)
  (t.ring cr).producer = (r.producer + 1) % 2 ^ 32 ∧
  (a + 32 ≤ r.shadow ∨ r.shadow + 16 ≤ a → readBytes t.cmem a 32 = toLE 32 (receiptWord y.receipt r.producer r.log2Size)) ∧
  ∀ c, (c < a ∨ a + 32 ≤ c) → (c < r.shadow ∨ r.shadow + 16 ≤ c) → readByte t.cmem c = readByte s.cmem c

/-- A completed item signals, then leaves one receipt in the completion ring, and is gone (R76, R79, R80, R81, R82, R83, R317,
02_work_contract.md). -/
def Obligations.ItemCompleteWritesOneReceipt : Prop :=
  ∀ (s : State) (id : Nat) (x : Item),
    let cr := (s.ring x.ring).completionRing
    let flags := if 0 < x.recoveries then setFlag x.flags flRecovered else x.flags
    let whole := fun (y : Item) => y.aux1 = x.aux1 ∧ y.flags = flags ∧ y.status = successStatus flags ∧ (isOp famStash 0 x.slip = false → y.aux0 = x.aux0)
    find s.items id = some x → x.stage = 3 → x.ring ≠ cr → ringFull (s.ring cr) = false → (s.ring cr).kept = [] → (s.ring cr).flips = [] →
    (∀ a, s.account? x.account = some a → a.removing = false) →
    (postSignalTally x.account x.slip = none → Answers (.itemComplete id) s fun t => find t.items id = none ∧
      t.out = s.out ++ (if slipNotify x.slip = true then [.interrupt (s.ring cr).irqData] else []) ∧
      ∃ y, ReceiptWritten s t cr y ∧ y.slip = x.slip ∧ y.slipIndex = x.slipIndex ∧ y.ring = x.ring ∧ whole y) ∧
    (∀ h, postSignalTally x.account x.slip = some h →
      let q := s.signalTally h (amountField (slipPostSignal x.slip)) (issuer s) id
      (q.2 = none → Answers (.itemComplete id) s fun t => find t.items id = none ∧ find t.tallies h = find q.1.tallies h ∧
        ∃ y, ReceiptWritten s t cr y ∧ y.slip = x.slip ∧ y.slipIndex = x.slipIndex ∧ y.ring = x.ring ∧ whole y) ∧
      ∀ code, q.2 = some code → Answers (.itemComplete id) s fun t => find t.items id = none ∧
        ∃ y, ReceiptWritten s t cr y ∧ y.slip = x.slip ∧ y.slipIndex = x.slipIndex ∧ y.ring = x.ring ∧ y.status = stFinal ∧ y.fault = code)

/-- A receipt for a full completion ring is kept, and written once a slot is free (R78, R79, 02_work_contract.md). -/
def Obligations.KeptReceiptsAreWrittenInOrder : Prop :=
  (∀ (s : State) (id : Nat) (x : Item),
    let cr := (s.ring x.ring).completionRing
    find s.items id = some x → x.stage = 4 ∨ x.stage = 6 → (ringFull (s.ring cr) = true ∨ (s.ring cr).kept ≠ []) → id ∉ (s.ring cr).kept →
    (s.ring cr).flips = [] → (∀ a, s.account? x.account = some a → a.removing = false) →
    Answers (.itemComplete id) s fun t => Touches [.rings, .items] s t ∧ Beside State.ring cr s t ∧ OtherItems id s t ∧
      t.ring cr = { s.ring cr with kept := (s.ring cr).kept ++ [id] }) ∧
  (∀ (s : State) (ring : Byte),
    let r := s.ring ring.toNat
    (r.kept = [] → exec (.receiptWriteDeferred ring) s = .next s) ∧
    (ringFull r = true → exec (.receiptWriteDeferred ring) s = .next s) ∧
    ∀ id rest x, r.kept = id :: rest → ringFull r = false → r.flips = [] → find s.items id = some x → (s.ring x.ring).completionRing = ring.toNat →
      x.ring ≠ ring.toNat → (∀ a, s.account? x.account = some a → a.removing = false) →
      Answers (.receiptWriteDeferred ring) s fun t => find t.items id = none ∧ ReceiptWritten s t ring.toNat x ∧
        (t.ring ring.toNat).kept = rest)

/-! ### Matrix products (R122 to R144, R195 to R224) -/

/-- The item runs (stage 2). -/
def ItemRuns (s : State) (id : Nat) (x : Item) : Prop := find s.items id = some x ∧ x.stage = 2

/-- The item runs, and every critical value of the tensors it reads passes its complement check (R268). -/
def ItemReads (s : State) (id : Nat) (x : Item) : Prop := ItemRuns s id x ∧ readsUnsound s x = false

/-- The commands that do the work of a GEMM which runs on DTBs, each for its own opcode (Table 2.6). -/
def DtbGemm (s : State) (id : Nat) (x : Item) (i : Instr) : Prop :=
  (i = .gemmForwardDigital id ∧ isOp famGemm 0 x.slip = true ∧ isDigital s x.slip = true) ∨
  (i = .forwardWide id ∧ isOp famGemm 1 x.slip = true) ∨ (i = .backwardData id ∧ isOp famGemm 2 x.slip = true) ∨
  (i = .backwardWeight id ∧ isOp famGemm 3 x.slip = true) ∨ (i = .plain id ∧ isOp famGemm 4 x.slip = true)

/-- The commands that do an item's work by reading tensors, each for its own operation. -/
def ReadingWork (s : State) (id : Nat) (x : Item) (i : Instr) : Prop :=
  DtbGemm s id x i ∨ (i = .gemmForward id ∧ isAnalogue s x.slip = true) ∨ (i = .kernelRun id ∧ isRun x.slip = true) ∨
  (i = .copy id ∧ isOp famMove 0 x.slip = true) ∨ (i = .store id ∧ isOp famMove 2 x.slip = true) ∨
  (i = .settle id ∧ isOp famSettle 0 x.slip = true) ∨ (i = .stash id ∧ isOp famStash 0 x.slip = true) ∨
  (i = .recallItem id ∧ isOp famRecall 0 x.slip = true) ∨ (i = .clearOwnerReduce id ∧ isReduce 0 x.slip = true) ∨
  (i = .clearRingReduce id ∧ isReduce 1 x.slip = true) ∨ (i = .clearDistribute id ∧ isDistribute x.slip = true)

/-- A GEMM on DTBs forms every element of its product; a failed critical value or a poisoned operand ends it (R143, R197, R200,
R203, R205, R207, R209, R215, R218, R268, R373, 06_digital_tensor_blocks.md). -/
def Obligations.DigitalGemmFormsEveryElement : Prop :=
  (∀ (s : State) (id : Nat) (x : Item) (i : Instr), ItemRuns s id x → ReadingWork s id x i → readsUnsound s x = true →
    Answers i s fun t => ∃ y, find t.items id = some y ∧ y.stage = 6 ∧ y.status = stFinal ∧ y.fault = 0x2201) ∧
  ∀ (s : State) (id : Nat) (x : Item) (i : Instr), ItemReads s id x → DtbGemm s id x i →
    (x.work.final = true → exec i s = .next s) ∧
    (x.work.final = false → poisonOf s [slipB x.slip, slipC x.slip, slipD x.slip] ≠ 0 → Answers i s (EndedAs id stFinal)) ∧
    (x.work.final = false → productOf s x = none → Answers i s (EndedAs id stFinal)) ∧
    ∀ p, x.work.final = false → poisonOf s [slipB x.slip, slipC x.slip, slipD x.slip] = 0 → productOf s x = some p →
      Answers i s fun t => Touches [.items] s t ∧ OtherItems id s t ∧
        ∃ y, find t.items id = some y ∧ y.stage = 2 ∧ y.work.final = true ∧ y.slip = x.slip ∧
          (∀ m n, m < p.rows → n < p.cols → resultAt y (m * p.cols + n) = elementValue s x p m n) ∧
          bit y.flags flFallbackWide = (bit x.flags flFallbackWide || decide (slipOpcode x.slip = 1)) ∧
          bit y.flags flBoundVoid = (bit x.flags flBoundVoid || (!p.resident && decide (2 ^ 20 < p.length)))

/-- A deck-array is as before but for what reads and working copies change of it. -/
def OnlyReadsOf (d e : Deck) : Prop :=
  e = { d with gain := e.gain, due := e.due, refResults := e.refResults, errors := e.errors, errorClass := e.errorClass,
               offsetTrims := e.offsetTrims, working := e.working }

/-- The item as an analogue FORWARD's evaluation begins: with its homeless columns' operand converted, where it has such columns (R351). -/
def forwardOperand (s : State) (x : Item) (c : Tensor) : Option Item :=
  if (anyHomeless s c && x.work.wCodes.isEmpty) = true then withOperand s x else some x

/-- A GEMM FORWARD on the arrays forms every element, and of the arrays changes only what reads change (R128, R130, R135, R139,
R141, R142, R143, R145, R150, R164, R351, R464). -/
def Obligations.AnalogueForwardFormsEveryElement : Prop :=
  ∀ (s : State) (id : Nat) (x : Item) (b c out : Tensor), ItemReads s id x → isAnalogue s x.slip = true → x.work.final = false →
    find s.tensors (slipB x.slip) = some b → find s.tensors (slipC x.slip) = some c → find s.tensors (slipA x.slip) = some out →
    let parts := evaluatedParts s c
    let barred := decide ((paramsOf s x.account).contextSlots = 0) && (anyHomeless s c || needsSpill s x b c)
    (poisonOf s [slipB x.slip, slipD x.slip] ≠ 0 → Answers (.gemmForward id) s (EndedAs id stFinal)) ∧
    (poisonOf s [slipB x.slip, slipD x.slip] = 0 → barred = true → Answers (.gemmForward id) s (EndedAs id stFinal)) ∧
    (poisonOf s [slipB x.slip, slipD x.slip] = 0 → barred = false → mayEvaluate s x b parts = false → exec (.gemmForward id) s = .next s) ∧
    ∀ x0, poisonOf s [slipB x.slip, slipD x.slip] = 0 → barred = false → mayEvaluate s x b parts = true → forwardOperand s x c = some x0 →
      let q := evaluateAll b c parts s x0
      let s' := if anyHomeless s c then q.1.holdFallback (slipC x.slip) (weightFormat x.slip b) else q.1
      let z := (List.range b.rows).foldl (fun x m => spillVector s' (paramsOf s' x.account).clip b c m parts x)
        (q.2.flagIf (anyHomeless s c) flFallbackWide)
      let p := forwardProduct b c (workOperand z c (weightFormat x.slip b))
      Answers (.gemmForward id) s fun t => Touches [.items, .decks, .aabs, .islands, .free, .tensors] s t ∧ OtherItems id s t ∧
        (anyHomeless s c = false → t.tensors = s.tensors) ∧ (∀ d, OnlyReadsOf (s.deck d) (t.deck d)) ∧
        ∃ y, find t.items id = some y ∧ y.stage = 2 ∧ y.work.final = true ∧
          ∀ m j, m < b.rows → j < c.cols → resultAt y (m * c.cols + j) =
            if elementKept x out m j = true then resultAt x (m * c.cols + j)
            else if columnHomeless s' c j = true then elementValue s' z p m j else analogueValue s' z b c m j

/-- A final output tile converts into the version the item writes, and the last one completes the item (R100, R106, R111, R113,
R144, R154, R210, R211, R213, R467). -/
def Obligations.OutputTilesConvertOnce : Prop :=
  ∀ (s : State) (id tile : Nat) (x : Item) (t0 : Tensor) (i : Instr), ItemReads s id x → find s.tensors (slipA x.slip) = some t0 →
    let arrays := i = .outputTileConvert id tile ∧ isAnalogue s x.slip = true
    let blocks := i = .dtbTileConvert id tile ∧ isGemm x.slip = true ∧ isDigital s x.slip = true
    (arrays ∨ blocks → tileCount t0.rows t0.cols ≤ tile ∨ tile ∈ x.work.tiles ∨ t0.writable id = false → exec i s = .next s) ∧
    (∀ b c, arrays → find s.tensors (slipB x.slip) = some b → find s.tensors (slipC x.slip) = some c → tileFormed s x b c t0 tile = none →
      exec i s = .next s) ∧
    (blocks → tileFinal x t0.fmt t0.cols tile = false → exec i s = .next s) ∧
    ∀ y, (arrays ∧ ∃ b c, find s.tensors (slipB x.slip) = some b ∧ find s.tensors (slipC x.slip) = some c ∧ tileFormed s x b c t0 tile = some y) ∨
        (blocks ∧ tileFinal x t0.fmt t0.cols tile = true ∧ y = x) →
      tile < tileCount t0.rows t0.cols → tile ∉ x.work.tiles → t0.writable id = true →
      let o := t0.openVersion
      let c := tileConversion o (paramsOf s x.account).orvane (Config.undefinedCode s.free) tile fun r j => F32.val (resultAt y (r * o.cols + j))
      let b := tileBounds t0.rows t0.cols tile
      let last := (insertNat x.work.tiles tile).length = tileCount t0.rows t0.cols
      (c.cap ≤ 15 → blocks ∨ x.stopping = false ∨ last → Answers i s fun t =>
        Touches [.items, .tensors, .free] s t ∧ OtherItems id s t ∧ OtherTensors (slipA x.slip) s t ∧
        (∃ y, find t.items id = some y ∧ tile ∈ y.work.tiles ∧ (y.stage = 3 ↔ last) ∧ (y.stage = 2 ↔ ¬last)) ∧
        ∃ u, find t.tensors (slipA x.slip) = some u ∧
          ∀ r j, j < t0.cols → (r < b.1 ∨ b.1 + b.2.1 ≤ r ∨ j < b.2.2.1 ∨ b.2.2.1 + b.2.2.2 ≤ j) →
            u.code (r * t0.cols + j) = o.code (r * t0.cols + j)) ∧
      (c.cap ≤ 15 → arrays → x.stopping = true → ¬last → Answers i s (EndedAs id stCancelled)) ∧
      (15 < c.cap → Answers i s (EndedAs id (if o.sExp = 96 then stFinal else stRetryable)))

/-- Spill partials of a vector are formed by the rule of the outlier products (R140, R464, 04_analogue_forward_arrays.md). -/
def Obligations.SpillPartialsAreFormed : Prop :=
  ∀ (s : State) (id vector : Nat) (x : Item) (b c : Tensor), ItemReads s id x → isAnalogue s x.slip = true → x.work.final = false →
    find s.tensors (slipB x.slip) = some b → find s.tensors (slipC x.slip) = some c → vector < b.rows →
    let clip := (paramsOf s x.account).clip
    let parts := (evaluatedParts s c).filter fun p => !spillArrived clip x b vector p
    (parts = [] → exec (.spillPartial id vector) s = .next s) ∧
    (parts ≠ [] → (paramsOf s x.account).contextSlots = 0 → Answers (.spillPartial id vector) s (EndedAs id stFinal)) ∧
    (parts ≠ [] → (paramsOf s x.account).contextSlots ≠ 0 → (∀ p ∈ parts, p.cols ≤ 1024 ∧ ∀ q ∈ parts, q.deck = p.deck → q = p) →
      Answers (.spillPartial id vector) s fun t =>
        Touches [.items] s t ∧ OtherItems id s t ∧ ∃ y, find t.items id = some y ∧ y.stage = 2 ∧
          ∀ p ∈ parts, spillArrived clip y b vector p = true ∧ ∀ col, col < p.cols → lookup 0 y.work.spills (sliceKey vector p.deck col) =
            rowProducts s b c vector (p.firstCol + col) (spilledRows clip b x.slip vector p))

/-- A tile instruction runs its whole K-range on one block, and a context image resumes where it stopped (R29, R194, R195, R198,
R203, R207, R209, R212, R220, R222, R223, R367). -/
def Obligations.TileInstructionsAdvanceOneBlock : Prop :=
  ∀ (s : State) (dtb : Fin 96) (id row col : Nat) (x : Item) (p : Product), ItemReads s id x → isGemm x.slip = true →
    isDigital s x.slip = true → productOf s x = some p →
    let block := blockNumber p.cols row col
    let blk := dtbBlock dtb.val
    (∀ start n group cycle check,
      let ready := rangeOk p.length start n = true ∧ blockIssues s blk = true ∧ x.work.final = false ∧ row < ceilDiv p.rows 256 ∧
        col < ceilDiv p.cols 128 ∧ (s.dtb dtb.val).busyUntil ≤ cycle ∧ rangeBytes p row col n ≤ operandSpace
      (¬ready ∨ blockPresent s dtb.val id row col start group x p = none →
        exec (.tileInstructionIssue dtb id row col start ⟨n, group, cycle⟩ check) s = .next s) ∧
      ∀ d, ready → blockPresent s dtb.val id row col start group x p = some d →
        let e := ((runRange (paramsOf s x.account).orvane p x.work.anchor row col start n d).rampDown cycle).rampUp cycle (rowGroups p row)
          (instructionCycles p n)
        (recurs check = false → start + n ≠ groupEnd p.length e.first e.group →
          Answers (.tileInstructionIssue dtb id row col start ⟨n, group, cycle⟩ check) s fun t =>
            Touches [.dtbs, .islands] s t ∧ Beside State.dtb dtb.val s t ∧ t.dtb dtb.val = e ∧ e.nextStep = start + n) ∧
        (recurs check = false → start + n = groupEnd p.length e.first e.group →
          Answers (.tileInstructionIssue dtb id row col start ⟨n, group, cycle⟩ check) s fun t =>
            Touches [.dtbs, .islands, .items] s t ∧ Beside State.dtb dtb.val s t ∧ (t.dtb dtb.val).item = none ∧ OtherItems id s t ∧
            ∃ y, find t.items id = some y ∧
              (block ∈ y.work.units ∨ find y.work.nodes (nodeKey block e.first) = some e.reduced)) ∧
        (recurs check = true → Answers (.tileInstructionIssue dtb id row col start ⟨n, group, cycle⟩ check) s fun t =>
          (t.dtb dtb.val).item = none ∧ (t.island blk).fenced = true)) ∧
    ∀ c, imageToRestore s id block x = some c → (s.dtb dtb.val).item = none → blockIssues s blk = true →
      (c.epochC = onesComplement 64 c.epoch → crc32 c.planes = c.check → Answers (.contextRestore dtb id row col) s fun t =>
        Touches [.dtbs, .islands] s t ∧ Beside State.dtb dtb.val s t ∧
        t.dtb dtb.val = blockOfImage x.account id row col block c (s.dtb dtb.val)) ∧
      (c.epochC ≠ onesComplement 64 c.epoch ∨ crc32 c.planes ≠ c.check → Answers (.contextRestore dtb id row col) s fun t =>
        (t.dtb dtb.val).item = some id ∧ (t.dtb dtb.val).nextStep = c.first ∧
        ∃ y, find t.items id = some y ∧ find y.work.images (nodeKey block c.first) = none)

/-- Consecutive K-ranges of the given lengths, from a K-step on, run on a block's cells. -/
def runRanges (orvane : Bool) (p : Product) (anchor : Option Int) (row col : Nat) : Nat → List Nat → Dtb → Dtb
  | _, [], d => d
  | start, n :: rest, d => runRanges orvane p anchor row col (start + n) rest (runRange orvane p anchor row col start n d)

/-- However a RESIDENT reduction is cut into tile instructions, every cell ends with the item's value (R195, R200, R201, R206,
R207, R209, R213, R222, 06_digital_tensor_blocks.md). -/
def Obligations.ResidentRangesGiveTheItemsValue : Prop :=
  ∀ (orvane : Bool) (p : Product) (anchor : Option Int) (row col : Nat) (lengths : List Nat) (d : Dtb) (cell : Nat), p.resident = true →
    lengths.sum = p.length → (∀ n ∈ lengths, n ≤ 8192) → d.residentAcc = [] → d.flags = [] → cell ∈ blockCells p row col →
    cellValue p anchor (runRanges orvane p anchor row col 0 lengths d).reduced cell =
      p.value anchor orvane (256 * row + cell / 128) (128 * col + cell % 128)

/-! ### Moves and kernels (R66 to R68, R101, R102, R242, R254 to R258, R272, R273) -/

/-- COPY, LOAD and STORE move a tensor's contents between tensors and companion memory (R94, R101, R102, R107, R113, R268, R273,
R373, 02_work_contract.md, 03_number_formats.md). -/
def Obligations.MovesTransferContents : Prop :=
  (∀ (s : State) (id : Nat) (x : Item) (a b : Tensor), ItemReads s id x →
    let w := x.slip
    isOp famMove 0 w = true → find s.tensors (slipA w) = some a → find s.tensors (slipB w) = some b →
      let sExp := if a.fmt.scaled then a.scaleNow else 0
      let c := convert a.fmt a.rows a.cols sExp (paramsOf s x.account).orvane (Config.undefinedCode s.free) (s.sourceVal b)
      (b.poison ≠ 0 → Answers (.copy id) s (EndedAs id stFinal)) ∧
      (b.poison = 0 → a.fmt = b.fmt → b.cls ≠ 1 → Answers (.copy id) s fun t =>
        Touches [.items, .tensors] s t ∧ OtherItems id s t ∧ OtherTensors (slipA w) s t ∧ AtStage id 3 t ∧
        find t.tensors (slipA w) = some (a.copyFrom b)) ∧
      (b.poison = 0 → a.fmt ≠ b.fmt ∨ b.cls = 1 → c.cap ≤ 15 → Answers (.copy id) s fun t =>
        Touches [.items, .tensors, .free] s t ∧ OtherItems id s t ∧ OtherTensors (slipA w) s t ∧ AtStage id 3 t ∧
        find t.tensors (slipA w) = some ((a.learn (commitsOf s x.account) c).replace sExp c)) ∧
      (b.poison = 0 → a.fmt ≠ b.fmt ∨ b.cls = 1 → 15 < c.cap →
        Answers (.copy id) s (EndedAs id (if sExp = 96 then stFinal else stRetryable)))) ∧
  (∀ (s : State) (id : Nat) (x : Item) (a : Tensor) (cw : List CWrite), ItemRuns s id x →
    let w := x.slip
    isOp famMove 1 w = true → find s.tensors (slipA w) = some a →
      let m := applyStores s.cmem cw
      let addr := slipParam0 w
      (∀ k, imageScale m addr a = some (some k) → Answers (.moveLoad id cw) s fun t =>
        Touches [.items, .tensors] { s with cmem := m } t ∧ OtherItems id s t ∧ OtherTensors (slipA w) s t ∧ AtStage id 3 t ∧
        ∃ u, find t.tensors (slipA w) = some u ∧ u.sExp = k ∧ u.rows = a.rows ∧ u.cols = a.cols ∧
          ∀ r c, r < a.rows → c < a.cols → u.code (r * a.cols + c) = imageCode m addr a.fmt a.cols r c) ∧
      (imageScale m addr a = some none → Answers (.moveLoad id cw) s (EndedAs id stFinal)) ∧
      (imageScale m addr a = none → Answers (.moveLoad id cw) s fun t =>
        ∃ y, find t.items id = some y ∧ y.stage = 6 ∧ y.status = stFinal ∧ y.fault = 0x2201)) ∧
  ∀ (s : State) (id : Nat) (x : Item) (b : Tensor), ItemReads s id x →
    let w := x.slip
    isOp famMove 2 w = true → find s.tensors (slipB w) = some b →
      let f := storeFmt w b
      let sExp := storeScale s b f
      let tooLarge := b.cls = 1 ∧ f.scaled = true ∧ Dy.lt ⟨f.maxFmt, 96⟩ (weightMax s b) = true
      let c := convert f b.rows b.cols sExp (if b.cls = 1 then false else (paramsOf s x.account).orvane) (Config.undefinedCode s.free) (s.sourceVal b)
      (b.poison ≠ 0 → Answers (.store id) s (EndedAs id stFinal)) ∧
      (b.poison = 0 → f = b.fmt → b.cls ≠ 1 → Answers (.store id) s fun t =>
        Touches [.items, .cmem, .lastWrite] s t ∧ OtherItems id s t ∧ AtStage id 3 t ∧
        Stored s.cmem t.cmem (slipParam0 w) (imageOf b.fmt b.rows b.cols b.code b.ebyte b.sExp)) ∧
      (b.poison = 0 → f ≠ b.fmt ∨ b.cls = 1 → tooLarge → Answers (.store id) s (EndedAs id stFinal)) ∧
      (b.poison = 0 → f ≠ b.fmt ∨ b.cls = 1 → ¬tooLarge → c.cap ≤ 15 → Answers (.store id) s fun t =>
        Touches [.items, .cmem, .lastWrite, .free] s t ∧ OtherItems id s t ∧ AtStage id 3 t ∧
        Stored s.cmem t.cmem (slipParam0 w) (imageOf f b.rows b.cols (fun i => c.codes.getD i 0) (fun g => c.ebytes.getD g 0) sExp)) ∧
      (b.poison = 0 → f ≠ b.fmt ∨ b.cls = 1 → ¬tooLarge → 15 < c.cap →
        Answers (.store id) s (EndedAs id (if sExp = 96 then stFinal else stRetryable)))

/-- DECLARE creates an object, RETIRE removes one once no earlier slip names it (R66, R67, R68, R77, R242, R312, R313, R360, R372,
02_work_contract.md, 10_tallies_and_ordering.md). -/
def Obligations.DeclareAndRetireObjects : Prop :=
  ∀ (s : State) (id : Nat) (x : Item), ItemRuns s id x →
    let w := x.slip
    let h := slipA w
    (isOp famMove 3 w = true →
      (declared s h = true → Answers (.declare id) s (EndedAs id stFinal)) ∧
      (declared s h = false → unmetCharge s ≠ 0 → Answers (.declare id) s (EndedAs id stRetryable)) ∧
      (declared s h = false → unmetCharge s = 0 → declaresTally w = true → tallyRegion s = none →
        Answers (.declare id) s (EndedAs id stRetryable)) ∧
      (∀ unit, declared s h = false → unmetCharge s = 0 → declaresTally w = true → tallyRegion s = some unit → Answers (.declare id) s fun t =>
        Touches [.items, .tallies, .free] s t ∧ OtherItems id s t ∧ AtStage id 3 t ∧ Beside (fun u => find u.tallies) h s t ∧
        ∃ r, find t.tallies h = some r ∧ r.count = 0 ∧ r.capacity = bits (slipParam0 w) 31 0 ∧ r.account = x.account ∧ r.queue = [] ∧
          r.region = unit) ∧
      (declared s h = false → unmetCharge s = 0 → declaresTally w = false → Answers (.declare id) s fun t =>
        OtherItems id s t ∧ OtherTensors h s t ∧
        (∃ y, find t.items id = some y ∧ y.stage = 3 ∧ y.aux0 = slipPool w + slipFallback w) ∧
        ∃ u, find t.tensors h = some u ∧ u.rows = declareRows w ∧ u.cols = declareCols w ∧ u.fmt = declareFmt w ∧ u.cls = declareClass w ∧
          (declareClass w ≠ 1 → Touches [.items, .tensors, .free] s t))) ∧
    (isOp famMove 4 w = true →
      (namedEarlier s id x h = true → Answers (.retire id) s fun t => Touches [.tallies] s t ∧ Beside (fun u => find u.tallies) h s t ∧
        find t.tallies h = (find s.tallies h).map fun r => { r with state := 2 }) ∧
      (namedEarlier s id x h = false → Answers (.retire id) s fun t => AtStage id 3 t ∧
        Touches [.items, .tensors, .tallies, .images, .decks, .tellers, .hbmStacks] s t ∧ OtherItems id s t ∧ OtherTensors h s t ∧
        find t.tensors h = none ∧ (find s.tensors h = none → find t.tallies h = none ∧ find t.images h = none)))

/-- LOAD_IMAGE makes an image object or ends, and RUN works from its image (R106, R241, R249, R254, R255, R256, R372, R373,
07_training_step.md, 08_tellers_and_banks.md). -/
def Obligations.KernelItemsRun : Prop :=
  (∀ (s : State) (id : Nat) (x : Item) (cw : List CWrite), ItemRuns s id x → isOp famKernel 1 x.slip = true →
    let w := x.slip
    let m := applyStores s.cmem cw
    let bytes := readBytes m (slipParam0 w) (slipParam1 w)
    let ok := imageOk (ofLE (bytes.take 64)) (slipParam1 w) bytes
    (find s.images (slipD w) = none → ok = true → unmetCharge s = 0 →
      Answers (.loadImage id cw) s fun t => Touches [.items, .images, .free] { s with cmem := m } t ∧ OtherItems id s t ∧ AtStage id 3 t ∧
        Beside (fun u => find u.images) (slipD w) s t ∧
        ∃ g, find t.images (slipD w) = some g ∧ g.bytes = writeBytes [] 0 bytes ∧ g.length = slipParam1 w) ∧
    (find s.images (slipD w) = none → ok = true → unmetCharge s ≠ 0 →
      Answers (.loadImage id cw) s fun t => EndedAs id stRetryable t ∧ t.images = s.images) ∧
    (find s.images (slipD w) ≠ none ∨ ok = false → Answers (.loadImage id cw) s fun t => EndedAs id stFinal t ∧ t.images = s.images)) ∧
  ∀ (s : State) (id : Nat) (x : Item) (g : Image), ItemReads s id x → isRun x.slip = true → find s.images (slipD x.slip) = some g →
    let w := x.slip
    let inputs := (List.range 3).filterMap fun k => if bit g.inputs k then some (slipHandle w k) else none
    let y0 := x.saw (runReads s w (runDigest s x) g ++ (if Config.kernelSeen (runDigest s x) 0 then [Val.nan] else []) ++
      (if Config.kernelSeen (runDigest s x) 1 then [Val.inf false] else []))
    let q := s.kernelOutputs y0 (outputDigest (runDigest s x) (runUnits w) g) g
    let outside := runOutOfShape (runDigest s x) (runUnits w)
    (runWaits s id w g = true → exec (.kernelRun id) s = .next s) ∧
    (runWaits s id w g = false → poisonOf s (slipD w :: inputs) ≠ 0 ∨ outside = true → Answers (.kernelRun id) s (EndedAs id stFinal)) ∧
    (runWaits s id w g = false → poisonOf s (slipD w :: inputs) = 0 → outside = false →
      (q.2.stage = 6 → Answers (.kernelRun id) s (EndedAs id q.2.status)) ∧
      (q.2.stage ≠ 6 → isUpdate s w = true → Answers (.kernelRun id) s fun t => Touches [.items] s t ∧ OtherItems id s t ∧
        ∃ y, find t.items id = some y ∧ y.stage = 3 ∧ y.work.staged = true) ∧
      (q.2.stage ≠ 6 → isUpdate s w = false → Answers (.kernelRun id) s fun t =>
        Touches [.items, .tensors, .free] s t ∧ OtherItems id s t ∧ AtStage id 3 t))

/-! ### SETTLE, the vault, the tallies and the step record (R174 to R183, R226 to R240, R314 to R332) -/

/-- What a command of a SETTLE leaves as it was: every part of the state but these, every other item, the pulses of every row that is
debased, at its hourly cap or off the life line, and of every other tensor all but the count of its struck copy's versions. -/
def SettleKeeps (id weight : Nat) (s t : State) : Prop :=
  Touches [.free, .tensors, .islands, .decks, .dumpDue, .items] s t ∧ OtherItems id s t ∧
  (∀ d row, let w := lookup {} (s.deck d).wear row
    w.debased = true ∨ capsPermit s w = false → (lookup {} (t.deck d).wear row).pulses = w.pulses) ∧
  ∀ h u, h ≠ weight → find s.tensors h = some u → ∃ v, find t.tensors h = some { u with struckVersion := v }

/-- The end of a SETTLE, from a state whose deck-arrays are all settled: its scales are set, the correction refitted, the item done (R179). -/
def SettleEnds (id weight factors slots : Nat) (scales : Table F32) (s t : State) : Prop :=
  let scaled := ∃ u, find t.tensors weight = some u ∧ ∀ j q, j < u.cols → find scales j = some q → lookup F32.one u.scales j = q
  (find s.tensors factors = none → SettleKeeps id weight s t ∧ AtStage id 3 t ∧ scaled) ∧
  ∀ d, factors ≠ weight → find s.tensors factors = some d →
    (slots = 0 → EndedAs id stFinal t) ∧
    (slots ≠ 0 → Touches [.free, .tensors, .islands, .decks, .dumpDue, .items] s t ∧ OtherItems id s t ∧ AtStage id 3 t ∧ scaled ∧
      ∃ u, find t.tensors factors = some u ∧ u.rows = d.rows ∧ u.cols = d.cols ∧ u.fmt = d.fmt)

/-- SETTLE settles its deck-arrays one by one, spares debased and capped rows, then sets scales and refits (R117, R152, R168, R175,
R179, R181, R182, R183, R186, R351, R373, R464). -/
def Obligations.SettleKeepsTheCapsAndRefits : Prop :=
  ∀ (s : State) (id : Nat) (x : Item) (a m : Tensor), ItemReads s id x → isOp famSettle 0 x.slip = true →
    find s.tensors (slipA x.slip) = some a → find s.tensors (slipB x.slip) = some m →
    let h := slipA x.slip
    let scales := (settleBegun a m x).work.results
    let ends := SettleEnds id h (slipD x.slip) (paramsOf s x.account).contextSlots scales
    (decksIdle s a = false → exec (.settle id) s = .next s) ∧
    (decksIdle s a = true → m.poison ≠ 0 → Answers (.settle id) s (EndedAs id stFinal)) ∧
    (decksIdle s a = true → m.poison = 0 → nextTile s h a x.work.units = none → Answers (.settle id) s (ends s)) ∧
    ∀ tile, decksIdle s a = true → m.poison = 0 → nextTile s h a x.work.units = some tile →
      let r := settleTile s h a m scales x.work.units tile
      ∃ u, find r.1.tensors h = some u ∧ a.struckVersion < u.struckVersion ∧ u.codes = a.codes ∧ u.fmt = a.fmt ∧ SettleKeeps id h s r.1 ∧
        (∀ p, tileHome s a tile = true → ((lookup [] a.tiles tile).find? fun p => !x.work.units.contains p.deck) = some p →
          Beside State.deck p.deck s r.1) ∧
        (nextTile r.1 h u r.2 ≠ none → Answers (.settle id) s fun t => SettleKeeps id h s t ∧ t.tensors = r.1.tensors ∧ t.decks = r.1.decks ∧
          ∃ y, find t.items id = some y ∧ y.stage = 2 ∧ y.doneUnits = x.doneUnits + 1) ∧
        (nextTile r.1 h u r.2 = none → Answers (.settle id) s (ends r.1))

/-- STASH keeps an entry or a mark, RECALL returns it, and where an entry lies changes no contents (R233, R237, R238, R239, R268,
R274, R275, R373, 07_training_step.md). -/
def Obligations.VaultKeepsAndReturnsContents : Prop :=
  (∀ (s : State) (id : Nat) (x : Item) (a : Account) (u : Tensor), ItemReads s id x → s.account? x.account = some a →
    find s.tensors (slipA x.slip) = some u → x.work.staged = false →
    let layer := slipLayer x.slip
    (isOp famStash 0 x.slip = true →
      (find a.vault layer ≠ none → Answers (.stash id) s fun t => EndedAs id stFinal t ∧ t.accounts = s.accounts) ∧
      (find a.vault layer = none → x.decision = .marked → Answers (.stash id) s fun t =>
        Touches [.items, .accounts] s t ∧ OtherItems id s t ∧ Beside State.account? x.account s t ∧
        (∃ e, t.account? x.account = some { a with vault := ins a.vault layer e } ∧ e.mark = true) ∧
        ∃ y, find t.items id = some y ∧ y.stage = 3 ∧ bit y.flags flRecomputeMarked = true) ∧
      (find a.vault layer = none → x.decision ≠ .marked → u.poison = 0 → Answers (.stash id) s fun t =>
        Touches [.items, .accounts, .free] s t ∧ OtherItems id s t ∧ AtStage id 3 t ∧ Beside State.account? x.account s t ∧
        ∃ e, t.account? x.account = some { a with vault := ins a.vault layer e } ∧ e.mark = false ∧ e.bytes = x.decisionBytes ∧
          (e.reserve = true ↔ x.decision = .reserve) ∧ e.fmt = u.fmt ∧ e.rows = u.rows ∧ e.cols = u.cols ∧ e.codes = u.codes ∧
          e.ebytes = u.ebytes ∧ e.sExp = u.sExp ∧ e.ceil = u.ceil) ∧
      (find a.vault layer = none → x.decision ≠ .marked → u.poison ≠ 0 →
        Answers (.stash id) s fun t => EndedAs id stFinal t ∧ t.accounts = s.accounts)) ∧
    (isOp famRecall 0 x.slip = true →
      (stashAhead s id x = true → exec (.recallItem id) s = .next s) ∧
      (stashAhead s id x = false → find a.vault layer = none → Answers (.recallItem id) s fun t => EndedAs id stFinal t ∧ t.accounts = s.accounts) ∧
      (∀ e, stashAhead s id x = false → find a.vault layer = some e →
        let fits := e.fmt = u.fmt ∧ e.rows = u.rows ∧ e.cols = u.cols ∧ e.flips = [] ∧ e.poison = 0
        (e.mark = true → Answers (.recallItem id) s fun t =>
          Touches [.items, .accounts] s t ∧ OtherItems id s t ∧ t.account? x.account = some { a with vault := del a.vault layer } ∧
          ∃ y, find t.items id = some y ∧ y.stage = 3 ∧ bit y.flags flRecomputeMarked = true) ∧
        (e.mark = false → ¬fits → Answers (.recallItem id) s fun t => EndedAs id stFinal t ∧ t.accounts = s.accounts) ∧
        (e.mark = false → fits → Answers (.recallItem id) s fun t =>
          Touches [.items, .accounts, .tensors] s t ∧ OtherItems id s t ∧ AtStage id 3 t ∧ OtherTensors (slipA x.slip) s t ∧
          t.account? x.account = some { a with vault := del a.vault layer } ∧
          ∃ v, find t.tensors (slipA x.slip) = some v ∧ v.codes = e.codes ∧ v.ebytes = e.ebytes ∧ v.sExp = e.sExp ∧ v.ceil = e.ceil ∧
            v.fmt = u.fmt ∧ v.rows = u.rows ∧ v.cols = u.cols)))) ∧
  ∀ (s : State) (account : BitVec 6) (toSram : Bool) (a : Account), s.account? account.toNat = some a →
    (vaultCandidate a toSram = none → exec (.vaultEvict account toSram) s = .next s) ∧
    ∀ layer, vaultCandidate a toSram = some layer →
      (toSram = true → sramRoom s account.toNat (entryBytes a layer) = false → exec (.vaultEvict account toSram) s = .next s) ∧
      (toSram = false ∨ sramRoom s account.toNat (entryBytes a layer) = true → Answers (.vaultEvict account toSram) s fun t =>
        Touches [.accounts, .free] s t ∧ Beside State.account? account.toNat s t ∧
        (∃ e r, find a.vault layer = some e ∧ (toSram = false → r = none) ∧
          t.account? account.toNat = some { a with vault := ins a.vault layer { e with place := { e.place with sram := r } } }) ∧
        ∃ p ∈ a.vault, p.1 = layer ∧ p.2.mark = false ∧ p.2.place.sram.isSome ≠ toSram ∧
          ∀ q ∈ a.vault, q.2.mark = false → q.2.place.sram.isSome ≠ toSram →
            if toSram = true then q.2.sequence ≤ p.2.sequence else p.2.sequence ≤ q.2.sequence)

/-- No tally's queue holds a wait of the item. -/
def QueuedNowhere (s : State) (id : Nat) : Prop := ∀ h r, find s.tallies h = some r → ∀ w ∈ r.queue, w.item ≠ id

/-- The record of a refused operation on a tally, which names the tally's account and number and the item (R317). -/
def tallyRecord (code h id : Nat) (s : State) (r : Tally) : FaultRecord :=
  { code := code, source := tallyBlock r.region, action := 7, detail0 := r.number, detail1 := handleAccount h, item := id,
    stamp := islandCount s (tallyBlock r.region), recordedAt := s.now }

/-- A tally has refused an operation: the fault stands in its unit's register and in LAST_FAULT; COUNT and the queue are as before. -/
def TallyFaulted (code h id : Nat) (s t : State) : Prop :=
  ∀ r, find s.tallies h = some r →
    (t.island (tallyBlock r.region)).faults = (addFault (s.island (tallyBlock r.region)) (tallyRecord code h id s r)).faults ∧
    ∃ u, find t.tallies h = some u ∧ u.count = r.count ∧ u.lastFault = code ∧ u.queue = r.queue

/-- The item has ended with a status and a fault code (R80). -/
def EndedWith (id status fault : Nat) (t : State) : Prop :=
  ∃ y, find t.items id = some y ∧ y.stage = 6 ∧ y.status = status ∧ y.fault = fault

/-- A take that COUNT does not cover, and a wait beyond CAPACITY, end their item and leave COUNT alone (R318, R319). -/
def Obligations.UncoveredTakesAndImpossibleWaitsFail : Prop :=
  ∀ (s : State) (id h : Nat) (x : Item) (r : Tally), find s.items id = some x → find s.tallies h = some r → r.sound = true → QueuedNowhere s id →
    (x.stage = 2 → isOp famTake 0 x.slip = true → slipA x.slip = h → r.count < slipParam0 x.slip →
      Answers (.take id) s fun t => TallyFaulted 0x2102 h id s t ∧ EndedWith id stFinal 0x2102 t) ∧
    (preWaitReady x = true → preWaitTally x.account x.slip = some h → r.capacity < amountField (slipPreWait x.slip) →
      Answers (.waitIssue id) s fun t => t.tallies = s.tallies ∧ EndedWith id stFinal 0 t) ∧
    (waitReady x = true → slipA x.slip = h → r.capacity < slipParam0 x.slip →
      (Answers (.waitIssue id) s fun t => t.tallies = s.tallies ∧ EndedWith id stFinal 0 t) ∧
      Answers (.wait id) s fun t => t.tallies = s.tallies ∧ EndedWith id stFinal 0 t)

/-- COUNT has become `count`, and waits have been satisfied from the head of the queue while it covered them: each took its
amount and woke its item, and the head that is left is not covered. -/
def TallyServes (h count : Nat) (queue : List Waiter) (s t : State) : Prop :=
  ∃ u woken, find t.tallies h = some u ∧ woken ++ u.queue = queue ∧ u.count + (woken.map Waiter.m).sum = count ∧ u.sound = true ∧
    (∀ w, u.queue.head? = some w → u.count < w.m) ∧
    ∀ w ∈ woken, ∀ y, find s.items w.item = some y →
      ∃ y', find t.items w.item = some y' ∧ (if w.waitSlip = true then y'.waitDone else y'.preWaitDone) = true

/-- Every other tally is as before. -/
def OtherTallies (h : Nat) (s t : State) : Prop := Beside (fun u => find u.tallies) h s t

/-- The tally serves its queue: its COUNT passes its check, its head wait is not covered, and every waiting item is still unfinished. -/
def TallyReady (s : State) (r : Tally) : Prop :=
  r.sound = true ∧ (∀ w, r.queue.head? = some w → r.count < w.m) ∧ ∀ w ∈ r.queue, itemEnded s w.item = false

/-- A signal or a take changes COUNT, and satisfies waits strictly from the head of the queue (R267, R314, R315, R316, R317, R320,
R326, R327, 10_tallies_and_ordering.md). -/
def Obligations.SignalsAndTakesServeTheQueue : Prop :=
  ∀ (s : State) (h : Nat) (r : Tally), find s.tallies h = some r → TallyReady s r →
    (∀ id x, ItemRuns s id x → isOp famSignal 0 x.slip = true → slipA x.slip = h → QueuedNowhere s id →
      let n := slipParam0 x.slip
      (n = 0 → Answers (.signal id) s fun t => Touches [.items] s t ∧ OtherItems id s t ∧ AtStage id 3 t) ∧
      (n ≠ 0 → r.count + n ≤ r.capacity → Answers (.signal id) s fun t => Touches [.items, .tallies, .islands] s t ∧ AtStage id 3 t ∧
        OtherTallies h s t ∧ TallyServes h (r.count + n) r.queue s t) ∧
      (r.capacity < r.count + n → n ≠ 0 → Answers (.signal id) s fun t => TallyFaulted 0x2101 h id s t ∧ EndedWith id stFinal 0x2101 t)) ∧
    (∀ id x, ItemRuns s id x → isOp famTake 0 x.slip = true → slipA x.slip = h → QueuedNowhere s id →
      let m := slipParam0 x.slip
      (m = 0 → Answers (.take id) s fun t => Touches [.items] s t ∧ OtherItems id s t ∧
        ∃ y, find t.items id = some y ∧ y.stage = 3 ∧ y.aux0 = r.count) ∧
      (m ≠ 0 → m ≤ r.count → Answers (.take id) s fun t => Touches [.items, .tallies, .islands] s t ∧
        OtherTallies h s t ∧ TallyServes h (r.count - m) r.queue s t ∧
        ∃ y, find t.items id = some y ∧ y.stage = 3 ∧ y.aux0 = r.count - m) ∧
      ∀ (source : Word16) (account : BitVec 6) (number taker : Word16) (n item : Nat), tallyHandle account.toNat number.toNat = h →
        validBlock source.toNat = true → validBlock taker.toNat = true → transferDone s source.toNat item = true → n ≠ 0 →
        r.count + n ≤ r.capacity → m ≤ r.count + n →
        Answers (.tallySignal source account number n ⟨item, [.take taker m id]⟩) s fun t => Touches [.items, .tallies, .islands] s t ∧
          OtherTallies h s t ∧ TallyServes h (r.count + n - m) r.queue s t ∧
          ∃ y, find t.items id = some y ∧ y.stage = 3 ∧ y.aux0 = r.count + n - m) ∧
    (∀ (source : Word16) (account : BitVec 6) (number : Word16) (n item : Nat), tallyHandle account.toNat number.toNat = h →
      validBlock source.toNat = true →
      (n = 0 ∨ transferDone s source.toNat item = false → Answers (.tallySignal source account number n ⟨item, []⟩) s fun t =>
        Touches [.tallies, .islands] s t ∧ OtherTallies h s t ∧ find t.tallies h = some r) ∧
      (n ≠ 0 → transferDone s source.toNat item = true → r.count + n ≤ r.capacity →
        Answers (.tallySignal source account number n ⟨item, []⟩) s fun t =>
          Touches [.items, .tallies, .islands] s t ∧ OtherTallies h s t ∧ TallyServes h (r.count + n) r.queue s t) ∧
      (n ≠ 0 → transferDone s source.toNat item = true → r.capacity < r.count + n → QueuedNowhere s item →
        Answers (.tallySignal source account number n ⟨item, []⟩) s fun t =>
          TallyFaulted 0x2101 h item s t ∧ ∀ x, find s.items item = some x → x.live = true → EndedWith item stFinal 0x2101 t)) ∧
    ∀ (teller : Fin 192) (th : Byte) (number : Word16) (n id : Nat) (x : Item), (thread s teller.val th.toNat).item = some id → ItemRuns s id x →
      tallyHandle x.account number.toNat = h →
      (n = 0 → exec (.vksSignal teller th number n) s = .next s) ∧
      (n ≠ 0 → r.count + n ≤ r.capacity → Answers (.vksSignal teller th number n) s fun t =>
        Touches [.items, .tallies, .islands] s t ∧ OtherTallies h s t ∧ TallyServes h (r.count + n) r.queue s t) ∧
      (n ≠ 0 → r.capacity < r.count + n → QueuedNowhere s id → Answers (.vksSignal teller th number n) s fun t =>
        TallyFaulted 0x2101 h id s t ∧ EndedWith id stFinal 0x2101 t)

/-- The item's next wait: its PRE_WAIT, or the wait of its WAIT slip. -/
def NextWait (x : Item) (h m : Nat) (slip : Bool) : Prop :=
  (preWaitReady x = true ∧ preWaitTally x.account x.slip = some h ∧ m = amountField (slipPreWait x.slip) ∧ slip = false) ∨
  (waitReady x = true ∧ slipA x.slip = h ∧ m = slipParam0 x.slip ∧ slip = true)

/-- A wait is satisfied at once only at an empty queue; every other joins the tail or is held by the steward (R69, R314, R315,
R320, R321, R322, 10_tallies_and_ordering.md). -/
def Obligations.WaitsQueueInOrder : Prop :=
  (∀ (s : State) (id h m : Nat) (slip : Bool) (x : Item) (r : Tally), find s.items id = some x → find s.tallies h = some r → r.sound = true →
    NextWait x h m slip → m ≤ r.capacity →
    let w : Waiter := { item := id, m := m, waitSlip := slip }
    let done := fun y : Item => if slip = true then y.waitDone else y.preWaitDone
    let covered := decide (r.queue = []) && decide (m ≤ r.count) && !((heldOf s r.region).any fun p => decide (p.1 = h))
    let issued := fun t : State => ∃ y, find t.items id = some y ∧ (if slip = true then y.waitAt else y.preWaitAt) = some s.now
    (m = 0 → Answers (.waitIssue id) s fun t => Touches [.items] s t ∧ OtherItems id s t ∧ issued t ∧ ∃ y, find t.items id = some y ∧ done y = true) ∧
    (m ≠ 0 → covered = true → Answers (.waitIssue id) s fun t => Touches [.items, .tallies, .islands] s t ∧ OtherItems id s t ∧
      OtherTallies h s t ∧ issued t ∧ (∃ y, find t.items id = some y ∧ done y = true) ∧
      ∃ u, find t.tallies h = some u ∧ u.count = r.count - m ∧ u.queue = [] ∧ u.sound = true) ∧
    (m ≠ 0 → covered = false → heldOf s r.region = [] → queuedWaits s r.region < waitStore → Answers (.waitIssue id) s fun t =>
      Touches [.items, .tallies] s t ∧ OtherItems id s t ∧ OtherTallies h s t ∧ issued t ∧
      ∃ u, find t.tallies h = some { r with queue := r.queue ++ [w], lastStamp := u }) ∧
    (m ≠ 0 → covered = false → (heldOf s r.region ≠ [] ∨ waitStore ≤ queuedWaits s r.region) → Answers (.waitIssue id) s fun t =>
      Touches [.items, .heldWaits, .islands] s t ∧ OtherItems id s t ∧ issued t ∧
      heldOf t r.region = heldOf s r.region ++ [(h, { w with held := true })]) ∧
    (slip = true → isOp famWait 0 x.slip = true → m ≠ 0 → covered = true → Answers (.wait id) s fun t =>
      Touches [.items, .tallies, .islands] s t ∧ OtherTallies h s t ∧ ∃ y, find t.items id = some y ∧ y.stage = 3 ∧ y.aux0 = r.count - m)) ∧
  (∀ (s : State) (id : Nat) (x : Item), ItemRuns s id x → isOp famWait 0 x.slip = true → x.waitAt ≠ none →
    (x.waitDone = true → Answers (.wait id) s fun t => Touches [.items] s t ∧ OtherItems id s t ∧
      ∃ y, find t.items id = some y ∧ y.stage = 3 ∧ y.aux0 = x.aux0) ∧
    (x.waitDone = false → exec (.wait id) s = .next s)) ∧
  ∀ (s : State) (region : Fin 4) (h : Nat) (w : Waiter) (rest : List (Nat × Waiter)) (r : Tally),
    heldOf s region.val = (h, w) :: rest → find s.tallies h = some r → r.sound = true →
    (waitStore ≤ queuedWaits s region.val → exec (.heldWaitEnqueue region) s = .next s) ∧
    (queuedWaits s region.val < waitStore → Answers (.heldWaitEnqueue region) s fun t =>
      Touches [.heldWaits, .tallies, .items, .islands] s t ∧ OtherTallies h s t ∧ heldOf t region.val = rest ∧
      TallyServes h r.count (r.queue ++ [{ w with held := false }]) s t)

/-- A deadline ends a waiting item, a drain waits for its thread's writes, and a tally moves whole (R77, R247, R268, R321, R322,
R327, R332, R390, 07_training_step.md, 10_tallies_and_ordering.md). -/
def Obligations.DeadlinesDrainsAndTallyMoves : Prop :=
  (∀ (s : State) (id time : Nat) (x : Item), find s.items id = some x →
    let u := s.at time
    let late := waitOverdue u x.account x.preWaitAt x.preWaitDone || waitOverdue u x.account x.waitAt x.waitDone || strandedOverdue u id x
    let stampLate := stampWaits u id x && decide (x.readyAt + deadlineNs u x.account < u.now)
    (x.stage ≤ 2 → late = true → Answers (.waitDeadline id time) s (EndedAs id stRetryable)) ∧
    (late = false → exec (.waitDeadline id time) s = .next u) ∧
    (stampLate = true → Answers (.updateStampDeadline id time) s (EndedAs id stRetryable)) ∧
    (stampLate = false → exec (.updateStampDeadline id time) s = .next u)) ∧
  (∀ (s : State) (teller : Fin 192) (n : Byte), (thread s teller.val n.toNat).item = none → exec (.vksDrain teller n) s = .next s) ∧
  (∀ (s : State) (teller : Fin 192) (n : Byte) (id : Nat) (x : Item), (thread s teller.val n.toNat).item = some id → find s.items id = some x →
    let th := thread s teller.val n.toNat
    let u := s.setThread teller.val n.toNat { th with drained := th.writes }
    (find s.images (slipD x.slip) = none → exec (.vksDrain teller n) s = .next u) ∧
    (x.stage ≠ 2 ∨ th.writes ≤ th.drained → Answers (.vksDrain teller n) s fun t => Touches [.tellers] s t ∧ Beside State.teller teller.val s t ∧
      thread t teller.val n.toNat = { th with drained := th.writes } ∧ ∀ k, k ≠ n.toNat → thread t teller.val k = thread s teller.val k) ∧
    ∀ g, x.stage = 2 → th.drained < th.writes → find s.images (slipD x.slip) = some g →
      (isUpdate s x.slip = true ∨ runWaits s id x.slip g = true → exec (.vksDrain teller n) s = .next u) ∧
      (isUpdate s x.slip = false → runWaits s id x.slip g = false →
        let q := u.unitOutputs x (outputDigest (runDigest u x) (runUnits x.slip) g) th.unit g
        (q.2.stage ≠ 6 → Answers (.vksDrain teller n) s fun t => Touches [.tellers, .items, .tensors, .free] s t ∧ OtherItems id s t ∧
          t.tensors = q.1.tensors ∧ thread t teller.val n.toNat = { th with drained := th.writes } ∧ AtStage id 2 t) ∧
        (q.2.stage = 6 → Answers (.vksDrain teller n) s (EndedAs id q.2.status)))) ∧
  ∀ (s : State) (account : BitVec 6) (number : Word16) (region : Fin 4) (r : Tally),
    let h := tallyHandle account.toNat number.toNat
    find s.tallies h = some r →
    (r.region = region.val ∨ 16384 ≤ talliesIn s region.val ∨ regionFenced s region.val = true →
      ∀ ops, ops.all opValid = true → exec (.tallyMove account number region ops) s = .next s) ∧
    (r.region ≠ region.val → talliesIn s region.val < 16384 → regionFenced s region.val = false → r.sound = true →
      let room := waitStore - queuedWaits s region.val
      (Answers (.tallyMove account number region []) s fun t => Touches [.tallies, .heldWaits] s t ∧ OtherTallies h s t ∧
        find t.tallies h = some { r with region := region.val, queue := r.queue.take room, state := if r.state = 3 then 1 else r.state } ∧
        heldOf t region.val = heldOf s region.val ++ ((r.queue.drop room).map fun w => (h, { w with held := true })) ++
          (heldOf s r.region).filter fun p => decide (p.1 = h)) ∧
      ∀ ops op t, ops.all opValid = true → opValid op = true → exec (.tallyMove account number region ops) s = .next t →
        exec (.tallyMove account number region (ops ++ [op])) s = .next (t.applyOp h op))

/-- STEP WRITE stages words and commits a higher step number, and a FENCE waits for every earlier slip (R75, R228, R229, R230,
R231, R240, 07_training_step.md). -/
def Obligations.StepWritesAndFences : Prop :=
  (∀ (s : State) (id : Nat) (x : Item) (a : Account), ItemRuns s id x → s.account? x.account = some a →
    let v := slipParam0 x.slip
    (isStepStage x.slip = true → Answers (.stepWriteStage id) s fun t =>
      Touches [.items, .accounts] s t ∧ OtherItems id s t ∧ AtStage id 3 t ∧ Beside State.account? x.account s t ∧
      t.account? x.account = some { a with staged := a.staged.set (stepWord x.slip - 1) v }) ∧
    (isStepCommit x.slip = true → ∀ words, a.record = some words →
      (words.headD 0 < v → Answers (.stepWriteCommit id) s fun t =>
        Touches [.items, .accounts, .tensors] s t ∧ OtherItems id s t ∧ AtStage id 3 t ∧ Beside State.account? x.account s t ∧
        (∃ b, t.account? x.account = some b ∧ b.record = some (v :: a.staged) ∧ b.staged = a.staged ∧ b.commits = a.commits + 1 ∧
          b.history = (v :: a.history).take 17 ∧ b.runStart = none ∧ b.marks = 0 ∧ b.vault = a.vault ∧ b.params = a.params) ∧
        ∀ h u, find s.tensors h = some u →
          find t.tensors h = some (if handleAccount h = x.account then u.unpin v else u)) ∧
      (v ≤ words.headD 0 → Answers (.stepWriteCommit id) s fun t => EndedAs id stFinal t ∧
        ∃ b, t.account? x.account = some b ∧ b.record = some words ∧ b.staged = a.staged ∧ b.commits = a.commits ∧ b.history = a.history)) ∧
    (isStepCommit x.slip = true → a.record = none →
      ((∀ p ∈ s.tensors, handleAccount p.1 = x.account → p.2.stamp < v) →
        Answers (.stepWriteCommit id) s fun t => AtStage id 3 t ∧
          ∃ b, t.account? x.account = some b ∧ b.record = some (v :: a.staged) ∧ b.stepLost = false) ∧
      (∀ p ∈ s.tensors, handleAccount p.1 = x.account → v ≤ p.2.stamp → Answers (.stepWriteCommit id) s (EndedAs id stFinal)))) ∧
  ∀ (s : State) (id : Nat) (x : Item), ItemRuns s id x →
    (isOp famFence 0 x.slip = true →
      (fenceMet s id x = true → Answers (.fenceRing id) s fun t => Touches [.items] s t ∧ OtherItems id s t ∧ AtStage id 3 t) ∧
      (fenceMet s id x = false → exec (.fenceRing id) s = .next s)) ∧
    (isOp famFence 1 x.slip = true →
      (fenceMet s id x = true → Answers (.fenceAccount id) s fun t => Touches [.items] s t ∧ OtherItems id s t ∧ AtStage id 3 t) ∧
      (fenceMet s id x = false → exec (.fenceAccount id) s = .next s))

/-- Every tally is sound, COUNT is within CAPACITY, and the head of its queue is not covered. -/
def TalliesServed (s : State) : Prop :=
  ∀ h r, find s.tallies h = some r → r.sound = true ∧ r.count ≤ r.capacity ∧ ∀ w, r.queue.head? = some w → r.count < w.m

/-- Every step keeps every tally within its capacity, its complement right and its head wait uncovered (R267, R313, R314, R315,
R317, R318, R321, R332, 10_tallies_and_ordering.md). -/
def Obligations.StepsKeepTalliesServed : Prop :=
  ∀ s t : State, TalliesServed s → step s = .next t → TalliesServed t

/-- The state after reset meets the invariants (R267, R312, R313, 08_tellers_and_banks.md, 10_tallies_and_ordering.md). -/
def Obligations.ResetMeetsTheInvariants : Prop :=
  MemoriesCanonical State.reset ∧ TalliesServed State.reset ∧ State.reset.pending = [] ∧ State.reset.tallies = [] ∧ State.reset.heldWaits = []

/-! ### Evaluations, assay, wear and the records of the decks (R138 to R171, R182 to R190) -/

/-- An evaluation gives its item one K-slice of one vector, and a reference sequence follows the third of AW7 (R138, R139, R141,
R145, R146, R148, R150, R159, R164, R344, R367, R388). -/
def Obligations.EvaluationsMakeOneSlice : Prop :=
  (∀ (s : State) (aab : Fin 168) (desc : BitVec 256) (vector cycle : Nat) (check : BlockCheck),
    let w := desc.toNat
    let blk := aabBlock aab.val
    let id := descItem w
    (descEpochC w ≠ onesComplement 64 (descEpoch w) → Answers (.evaluationIssue aab desc vector cycle check) s fun t =>
      Touches [.islands] s t ∧ Beside State.island blk s t ∧ ∃ r, (t.island blk).faults = (addFault (s.island blk) r).faults ∧ r.code = 0x2201) ∧
    (descEpochC w = onesComplement 64 (descEpoch w) → descEpoch w < (s.island blk).epoch →
      exec (.evaluationIssue aab desc vector cycle check) s = .next s) ∧
    ∀ x b c p, let u := s.setIsland blk { s.island blk with epoch := descEpoch w, epochC := onesComplement 64 (descEpoch w) }
      descEpochC w = onesComplement 64 (descEpoch w) → (s.island blk).epoch ≤ descEpoch w → ItemRuns s id x →
      isAnalogue u x.slip = true → x.work.final = false → find s.tensors (slipB x.slip) = some b → find s.tensors (slipC x.slip) = some c →
      vector < b.rows → blockIssues u blk = true → descPart u aab.val w x b c = some p →
      let a := u.drained cycle (rampDown cycle (u.aab aab.val))
      let r := lookup {} a.arrays (descArray w)
      let phases := phasesOf (paramsOf u x.account).clip b x.slip vector p
      let v := u.setAab aab.val a
      let busy := cycle < r.busyUntil ∨ referenceDue r = true ∨ (s.deck p.deck).assayed = false ∨ inputFree a (descInSlot w) id vector cycle = false ∨
        find a.outputs (descOutSlot w) ≠ none ∨ (0 < phases.length ∧ mayRise a (descArray w) cycle = false) ∨ toEvaluate x b vector p = false
      (busy ∨ v.takeCopy p.deck (arrayIdle v cycle) = none → exec (.evaluationIssue aab desc vector cycle check) s = .next v) ∧
      ∀ k, ¬busy → v.takeCopy p.deck (arrayIdle v cycle) = some k →
        let k := k.blockCheck blk x.account id check
        let d := k.deck p.deck
        let reads := readAll c.fmt (slipDrive8 x.slip) p k.now k.free phases (d.inClass (errorClassOf k d p))
        let value := sliceValue k b c x.slip vector p reads phases.length
        (recurs check = false → Answers (.evaluationIssue aab desc vector cycle check) s fun t =>
          Touches [.items, .decks, .islands, .aabs, .free] s t ∧ OtherItems id s t ∧ Beside State.aab aab.val s t ∧
          OnlyReadsOf (s.deck p.deck) (t.deck p.deck) ∧
          (∀ d, d ≠ p.deck → t.deck d = { s.deck d with working := (t.deck d).working }) ∧
          (∃ y, find t.items id = some y ∧ y.stage = 2 ∧ evalKey vector p.deck ∈ y.work.units ∧
            ∀ col, col < p.cols → lookup 0 y.work.slices (sliceKey vector p.deck col) = value col) ∧
          ∃ o, find (t.aab aab.val).outputs (descOutSlot w) = some o ∧ o.item = id ∧ o.vector = vector ∧ o.deck = p.deck ∧
            o.values = (List.range p.cols).map value) ∧
        (recurs check = true → Answers (.evaluationIssue aab desc vector cycle check) s fun t =>
          (t.island blk).fenced = true ∧ (id ≠ 0 → id ∈ (t.island blk).struck))) ∧
  ∀ (s : State) (aab : Fin 168) (array : Fin 16) (cycle : Nat),
    let a := rampDown cycle (s.aab aab.val)
    let r := lookup {} a.arrays array.val
    let deck := deckNumber aab.val array.val ((r.reference.getD 0) % 8)
    let may := referenceDue r && decide (r.busyUntil ≤ cycle) && mayRise a array.val cycle
    (may = true → Answers (.referenceSequence aab array cycle) s fun t =>
      Touches [.free, .decks, .aabs] s t ∧ Beside State.deck deck s t ∧ Beside State.aab aab.val s t ∧
      t.deck deck = { s.deck deck with offsetTrims := (t.deck deck).offsetTrims } ∧
      (∀ pair, lookup 0 (t.deck deck).offsetTrims pair = if pair < 765 ∧ pair % 5 = 4 then Config.trim (s.free * 2048 + 1024 + pair)
        else lookup 0 (s.deck deck).offsetTrims pair) ∧
      (lookup {} (t.aab aab.val).arrays array.val).busyUntil = cycle + 19 ∧ (lookup {} (t.aab aab.val).arrays array.val).reference = none) ∧
    (may = false → exec (.referenceSequence aab array cycle) s = .next s)

/-- An assay measures and judges one deck, is applied whole while nothing holds it, and zeroing clears a deck (R152, R165, R166,
R167, R168, R170, R171, R174, R177, R185, R360, R361). -/
def Obligations.AssayZeroAndRefreshOneDeck : Prop :=
  ∀ (s : State) (deck : Fin 21504) (time : Nat),
    let u := s.at time
    let d := s.deck deck.val
    let blk := aabBlock (deckAab deck.val)
    let serves := arrayServes u deck.val
    let background := backgroundRuns u (halfOfRegion (deckRegion deck.val))
    (∀ cause tj, (s.power.powerGood = true → assayDueNow d cause time tj = true → Answers (.assayDue deck cause time tj) s fun t =>
        Touches [.decks, .islands] u t ∧ Beside State.deck deck.val s t ∧ Beside State.island blk s t ∧
        t.deck deck.val = { d with due := some (d.due.getD time), triggerAt := (t.deck deck.val).triggerAt } ∧
        t.island blk = { s.island blk with celsius8 := tj }) ∧
      (s.power.powerGood = false ∨ assayDueNow d cause time tj = false → exec (.assayDue deck cause time tj) s = .next u)) ∧
    (∀ tj, let new := assayLevels s.free d.dataPairs
      let drift := deckDrift s d new
      (d.due.isSome && serves && background = true → Answers (.assay deck time tj) s fun t =>
        Touches [.free, .islands, .decks] u t ∧ Beside State.deck deck.val s t ∧
        (let e := t.deck deck.val
         e.measured = some new ∧ e.gain = 0 ∧ e.assayed = true ∧ e.assayAt = time ∧ e.assayTj = tj ∧ e.due = none ∧ e.struck = d.struck ∧
         e.bound = d.bound ∧
         (drift.2 < drift.1 → e.degraded = true ∧ e.badRun = d.badRun + 1 ∧ e.withdrawn = (d.withdrawn || decide (3 ≤ d.badRun + 1)) ∧
            ∃ r, (t.island blk).faults = (addFault (s.island blk) r).faults ∧ r.code = 0x2401 ∧ r.sub = deckArray deck.val ∧
              r.detail0 = deckDeck deck.val) ∧
         (drift.1 ≤ drift.2 → e.degraded = false ∧ e.badRun = 0 ∧ e.withdrawn = (d.withdrawn && decide (d.goodRun + 1 < 2))))) ∧
      (d.due.isSome && serves && background = false → exec (.assay deck time tj) s = .next u)) ∧
    (∀ new, d.measured = some new →
      (d.holds = [] → Answers (.assayApply deck) s fun t => Touches [.decks, .tensors] s t ∧ Beside State.deck deck.val s t ∧
        t.deck deck.val = { d with struck := new, measured := none } ∧
        ∀ h v, find s.tensors h = some v → find t.tensors h =
          some (if d.bound.map Prod.fst = some h then { v with struckVersion := v.struckVersion + 1 } else v)) ∧
      (d.holds ≠ [] → exec (.assayApply deck) s = .next s)) ∧
    (d.measured = none → exec (.assayApply deck) s = .next s) ∧
    (let zeroed := fun t : State => Touches [.free, .islands, .decks] u t ∧ Beside State.deck deck.val s t ∧
        (let e := t.deck deck.val
         e.struck = [] ∧ e.targets = [] ∧ e.measured = none ∧ e.dirty = false ∧ e.leaving = false ∧ e.assayed = true ∧ e.assayAt = time ∧
         e.exempt = d.exempt + 1 ∧ ∀ row, row < 1024 → (lookup {} e.wear row).pulses =
           (lookup {} d.wear row).pulses + if (lookup {} d.wear row).debased = true then 0 else 1)
     let dirty := d.dirty && d.bound.isNone && decide (d.holds = []) && serves
     let left := d.leaving && decide (d.holds = []) && serves
     (dirty = true → Answers (.deckZeroProgram deck time) s zeroed) ∧ (dirty = false → exec (.deckZeroProgram deck time) s = .next u) ∧
     (left = true → Answers (.oldDeckZeroProgram deck time) s zeroed) ∧ (left = false → exec (.oldDeckZeroProgram deck time) s = .next u)) ∧
    ∀ (row : Fin 1024) h tile p v, d.bound = some (h, tile, p) → find s.tensors h = some v →
      let w := lookup {} d.wear row.val
      let may := (partRows d p).contains row.val && refreshDue u d row.val && decide (d.holds = []) && serves && background
      (may = true → Answers (.rowRefresh deck row time) s fun t => Touches [.free, .tensors, .islands, .decks] u t ∧
          Beside State.deck deck.val s t ∧ (t.deck deck.val).exempt = d.exempt + 1 ∧ (t.deck deck.val).bound = d.bound ∧
          (let w' := lookup {} (t.deck deck.val).wear row.val
           w'.settlements = min 16383 (w.settlements + 1) ∧ w'.lastDay = dayOf u ∧ w'.credit = w.credit ∧ w.pulses ≤ w'.pulses) ∧
          (∃ n, v.struckVersion < n ∧ find t.tensors h = some { v with struckVersion := n }) ∧ OtherTensors h s t) ∧
      (may = false → exec (.rowRefresh deck row time) s = .next u)

/-- The tile of a deck-array has moved to another: the new one is bound with the row and column ranges and the programmed codes of
the old, which is left, and every part of the tensor that named the old names the new. -/
def TileMoved (s t : State) (old new h tile : Nat) (p : TilePart) (v : Tensor) : Prop :=
  (t.deck old).bound = none ∧ (t.deck old).binding = none ∧ (t.deck old).leaving = true ∧
  (t.deck new).bound = some (h, tile, { p with deck := new }) ∧ (t.deck new).holds = (s.deck old).holds ∧ (t.deck new).assayed = true ∧
  (p.cols ≤ 512 → ∀ k c, k < p.rows → c < p.cols →
    signed 7 (lookup 0 (t.deck new).targets (targetKey (physRow (t.deck new).skip k) c)) =
    signed 7 (lookup 0 (s.deck old).targets (targetKey (physRow (s.deck old).skip k) c))) ∧
  find t.tensors h = some (exchangeDeck v old new) ∧ OtherTensors h s t ∧ ∀ d, d ≠ old → d ≠ new → t.deck d = s.deck d

/-- A tile moves whole to a deck of least wear, and wear images and binding records keep what the decks hold (R171, R183, R184,
R187, R189, R190, 05_analogue_accuracy_and_wear.md). -/
def Obligations.TilesMoveAndRecordsAreKept : Prop :=
  (∀ (s : State) (deck new : Fin 21504) (time : Nat), let u := s.at time
    ((s.deck deck.val).bound = none → exec (.tileMove deck new time) s = .next u) ∧
    ∀ (h tile : Nat) (p : TilePart) (v : Tensor), (s.deck deck.val).bound = some (h, tile, p) → find s.tensors h = some v →
      let may := mustMove (s.deck deck.val) p && (bestDecks u p.rows).contains new.val && admitsTile u (u.deck new.val) p
      (may = true → Answers (.tileMove deck new time) s fun t =>
        Touches [.free, .tensors, .islands, .decks] u t ∧ TileMoved s t deck.val new.val h tile p v) ∧
      (may = false → exec (.tileMove deck new time) s = .next u)) ∧
  (∀ (s : State) (aab : Fin 168) (time : Nat), let u := s.at time
    let due := match (s.aab aab.val).movedAt with
      | some m => decide (m + hourNs ≤ time)
      | none => true
    (s.power.powerGood = true → due = true → wornPairs u aab.val ≠ [] →
      (∀ q ∈ wornPairs u aab.val, ∃ h tile p v, (s.deck q.1).bound = some (h, tile, p) ∧ find s.tensors h = some v) →
      Answers (.wearLevelCheck aab time) s fun t => Touches [.free, .tensors, .islands, .decks, .aabs] u t ∧
        Beside State.aab aab.val s t ∧ t.aab aab.val = { s.aab aab.val with movedAt := some time } ∧
        ∃ q h tile p v, q ∈ wornPairs u aab.val ∧ (s.deck q.1).bound = some (h, tile, p) ∧ find s.tensors h = some v ∧
          TileMoved s t q.1 q.2 h tile p v) ∧
    (s.power.powerGood = false ∨ due = false ∨ wornPairs u aab.val = [] → exec (.wearLevelCheck aab time) s = .next u)) ∧
  (∀ (s : State) (time : Nat), let u := s.at time
    (s.power.powerGood = true → s.flash.wearAt + hourNs ≤ time → Answers (.wearImageWrite time) s fun t =>
      Touches [.flash, .decks, .islands] u t ∧
      (s.flash.newer1 = true → t.flash = { s.flash with wear0 := some (wearImage s), newer1 := false, wearAt := time }) ∧
      (s.flash.newer1 = false → t.flash = { s.flash with wear1 := some (wearImage s), newer1 := true, wearAt := time }) ∧
      ∀ d, t.deck d = { s.deck d with exempt := 0, flash := (s.deck d).flash.map fun b => b.sealed 0 }) ∧
    (s.power.powerGood = false ∨ time < s.flash.wearAt + hourNs → exec (.wearImageWrite time) s = .next u)) ∧
  ∀ (s : State) (deck : Fin 21504) (time : Nat), let u := s.at time
    let d := s.deck deck.val
    (s.power.powerGood = true → d.bindingDirty ≠ none → Answers (.bindingRecordWrite deck time) s fun t =>
      Touches [.decks] u t ∧ Beside State.deck deck.val s t ∧
      t.deck deck.val = { d with flash := d.binding.map fun b => b.sealed d.exempt, bindingDirty := none }) ∧
    (s.power.powerGood = false ∨ d.bindingDirty = none → exec (.bindingRecordWrite deck time) s = .next u)

/-! ### Tellers, banks and stacks (R250 to R275, R361, R412, R455) -/

/-- Tellers start units, issue one state a cycle in turn, load images, and combine the first pass (R250, R251, R252, R257, R258,
R259, R367, R467, 08_tellers_and_banks.md). -/
def Obligations.TellersRunUnits : Prop :=
  (∀ (s : State) (teller : Fin 192) (th : Byte) (id unit cycle : Nat) (check : BlockCheck) (x : Item), ItemRuns s id x → isRun x.slip = true →
    let f := s.teller teller.val
    let old := thread s teller.val th.toNat
    let may := unit < runUnits x.slip ∧ x.stopping = false ∧ unit ∉ x.work.units ∧ unitRuns s id unit = false ∧ old.item = none ∧
      f.open x.account = true ∧ f.current = some (slipD x.slip) ∧ f.busyUntil ≤ cycle ∧ blockIssues s (tellerBlock teller.val) = true
    (may → recurs check = false → Answers (.workUnitStart teller th id unit cycle check) s fun t =>
      Touches [.tellers, .islands] s t ∧ Beside State.teller teller.val s t ∧ (∀ k, k ≠ th.toNat → thread t teller.val k = thread s teller.val k) ∧
      (let u := thread t teller.val th.toNat
       u.item = some id ∧ u.account = some x.account ∧ u.unit = unit ∧ u.startedAt = cycle ∧ u.readyAt = cycle ∧
       u.registers = (if old.account = some x.account then old.registers else []))) ∧
    (may → recurs check = true → Answers (.workUnitStart teller th id unit cycle check) s fun t =>
      (t.island (tellerBlock teller.val)).fenced = true ∧ t.teller teller.val = {} ∧ Beside State.teller teller.val s t ∧ t.items = s.items ∧
      (id ≠ 0 → id ∈ (t.island (tellerBlock teller.val)).struck)) ∧
    (¬may → exec (.workUnitStart teller th id unit cycle check) s = .next s)) ∧
  (∀ (s : State) (teller : Fin 192) (cycle : Nat),
    let f := s.teller teller.val
    (blockServes s (tellerBlock teller.val) = false ∨ cycle < f.busyUntil → exec (.tellerStateIssue teller cycle) s = .next s) ∧
    (blockServes s (tellerBlock teller.val) = true → f.busyUntil ≤ cycle →
      (f.nextThread cycle = none → Answers (.tellerStateIssue teller cycle) s fun t => Touches [.tellers, .islands] s t ∧
        Beside State.teller teller.val s t ∧ t.teller teller.val = { f with busyUntil := cycle + 1 }) ∧
      ∀ n id, f.nextThread cycle = some n → (thread s teller.val n).item = some id →
        ((∀ x, ¬ItemRuns s id x) → Answers (.tellerStateIssue teller cycle) s fun t => Touches [.tellers] s t ∧
          Beside State.teller teller.val s t ∧ (thread t teller.val n).item = none) ∧
        ∀ x g, ItemRuns s id x → find s.images (slipD x.slip) = some g →
          let old := thread s teller.val n
          let new := old.step (stateRecord g old.statePointer) (stateDigest s x old) s.free cycle
          (x.stopping = false → Answers (.tellerStateIssue teller cycle) s fun t => Touches [.free, .items, .islands, .tellers] s t ∧
            OtherItems id s t ∧ Beside State.teller teller.val s t ∧ (t.teller teller.val).robin = (n + 1) % 256 ∧
            (t.teller teller.val).busyUntil = cycle + 1 ∧ (∀ k, k ≠ n → thread t teller.val k = thread s teller.val k) ∧
            cycle + 12 ≤ (thread t teller.val n).readyAt ∧ (thread t teller.val n).registers = new.registers ∧
            (g.states ≤ new.statePointer → (thread t teller.val n).item = none ∧
              ∃ y, find t.items id = some y ∧ y.stage = 2 ∧ old.unit ∈ y.work.units ∧ y.doneUnits = x.doneUnits + 1) ∧
            (new.statePointer < g.states → (thread t teller.val n).item = some id ∧ t.items = s.items)) ∧
          (x.stopping = true → Answers (.tellerStateIssue teller cycle) s fun t => runsUnits t id = true ∨ EndedAs id stCancelled t))) ∧
  (∀ (s : State) (teller : Fin 192) (slot : Fin 4) (id cycle : Nat) (x : Item), ItemRuns s id x → isRun x.slip = true →
    let f := s.teller teller.val
    let h := slipD x.slip
    let may := blockIssues s (tellerBlock teller.val) = true ∧ f.between = true ∧ f.busyUntil ≤ cycle ∧ f.current ≠ some h
    let resident := f.store.any fun p => decide (p.2 = h)
    (may → resident = true → Answers (.imageLoadToTeller teller slot id cycle) s fun t => Touches [.tellers, .islands] s t ∧
      Beside State.teller teller.val s t ∧ t.teller teller.val = { f with current := some h, busyUntil := cycle + 64 }) ∧
    (may → resident = false → find s.images h ≠ none → Answers (.imageLoadToTeller teller slot id cycle) s fun t =>
      Touches [.tellers, .islands] s t ∧ Beside State.teller teller.val s t ∧
      t.teller teller.val = { f with store := ins f.store slot.val h, current := some h, busyUntil := cycle + 2049 }) ∧
    (¬may → exec (.imageLoadToTeller teller slot id cycle) s = .next s)) ∧
  (∀ (s : State) (id : Nat) (x : Item) (g : Image), ItemRuns s id x → isRun x.slip = true → find s.images (slipD x.slip) = some g →
    let due := decide (g.passes = 2) && decide (x.work.pass = 1) && decide (x.work.units.length = runUnits x.slip)
    (due = true → Answers (.secondPassStart id) s fun t => Touches [.items] s t ∧ OtherItems id s t ∧
      ∃ y, find t.items id = some y ∧ y.stage = 2 ∧ y.work.pass = 2 ∧ y.work.units = [] ∧
        ∀ i, i < g.reductions → lookup 0 y.work.combined i = combineSlot x.work.partials (runUnits x.slip) i) ∧
    (due = false → exec (.secondPassStart id) s = .next s)) ∧
  ∀ (s : State) (teller : Fin 192) (th : Byte) (cycle : Nat),
    let u := thread s teller.val th.toNat
    (∀ id x, u.item = some id → find s.items id = some x → x.live = true → u.startedAt + 2 ^ 21 < cycle →
      Answers (.unitTimeout teller th cycle) s (EndedAs id stFinal)) ∧
    (u.item = none ∨ cycle ≤ u.startedAt + 2 ^ 21 → exec (.unitTimeout teller th cycle) s = .next s)

/-- The write that a port's turn serves touches the granule, or covers it whole. -/
def touches (w : PortTurn) (g : Nat) : Bool := w.served.any fun p => (touched p.start p.length).contains g
def covers (w : PortTurn) (g : Nat) : Bool := w.served.any fun p => (covered p.start p.length).contains g

/-- A read of granules of a bank meets poison after the write of its cycle: poison that stood and was not written over whole, or more
flips than one in a granule that was not written. -/
def meetsPoison (k : Bank) (w : PortTurn) (gs : List Nat) : Bool :=
  gs.any fun g => (k.poisoned.contains g && !covers w g) || (decide (2 ≤ lookup 0 k.upsets g) && !touches w g)

/-- What one cycle of a bank has done with the requests that arrived in it: both ports have had their turn, the write served has landed,
and the read served leaves two cycles later with what stands then, or without a value where it meets poison. -/
def BankCycled (b : Nat) (reads writes : List PortRequest) (s t : State) : Prop :=
  let k := s.bank b
  let e := t.bank b
  let r := k.readTurn reads writes
  let w := k.writeTurn writes
  let k' := k.turned r w
  e.cycle = k.cycle + 1 ∧ e.readPort = r.left ∧ e.writePort = w.left ∧ e.data = k'.data ∧
  (∀ q, w.served = some q → Stored k.bytes e.bytes q.start q.bytes ∧
    ∀ g ∈ covered q.start q.length, g ∉ e.poisoned) ∧
  (w.served = none → e.bytes = k.bytes ∧ ∀ g rest, k.writebacks = g :: rest → lookup 0 e.upsets g = 0) ∧
  (∀ q, r.served = some q →
    let gs := granulesRead q
    let bad := meetsPoison k' w gs
    (k.cycle + 3, q, if bad = true ∧ q.write = false then [] else readBytes e.bytes q.start q.length) ∈ e.stages ∧
    (∀ g ∈ gs, touches w g = false → lookup 0 k'.upsets g = 1 → g ∈ e.writebacks) ∧
    (q.item = 0 ∨ rewritten q.holds = false → ∀ g ∈ gs, touches w g = false → 2 ≤ lookup 0 k'.upsets g → g ∈ e.poisoned) ∧
    (∀ g, g ∉ k'.poisoned → lookup 0 k'.upsets g ≤ 1 → g ∉ e.poisoned) ∧
    (q.write = true ∨ q.item = 0 ∨ bad = false → Touches [.banks, .islands] s t) ∧
    ∀ x, q.write = false → q.item ≠ 0 → bad = true → q.holds = .object → find s.items q.item = some x → x.live = true →
      EndedAs q.item stFinal t) ∧
  (r.served = none → Touches [.banks, .islands] s t)

/-- Of all other banks, only the next one in the region has changed, and only by the part of an access past the bank's last word: a
request of its own there (R264). -/
def TailQueued (b : Nat) (q : PortRequest) (s t : State) : Prop :=
  let n := insideBank q.start q.length
  let rest := { q with start := 0, length := q.length - n, bytes := q.bytes.drop n }
  let k := s.bank (nextBank b)
  (∀ m, m ≠ b → m ≠ nextBank b → t.bank m = s.bank m) ∧
  t.bank (nextBank b) = if n = q.length then k
    else if q.write = true ∧ partialWrite rest = false then { k with writePort := k.writePort ++ [rest] }
    else { k with readPort := k.readPort ++ [rest] }

/-- A bank's cycle serves one read and one write by rank and age, corrects one flip a granule and poisons on more (R260, R261,
R262, R263, R264, R265, R266, R367, R373, R454, R455, 08_tellers_and_banks.md). -/
def Obligations.BanksCorrectStoreAndServe : Prop :=
  (∀ (s : State) (bank : Fin 7168), bankServes s bank.val = true →
    (∀ rank word offset length upsets item holds check, bankAccessOk word offset length = true →
      flipsOk (word * 64 + offset) length upsets = true →
      let q : PortRequest := { rank := rank, start := word * 64 + offset, length := length, item := item, holds := holds }
      let u := (s.blockCheck (bankGroupBlock bank.val) noAccount item check).strikeBank bank.val upsets
      (recurs check = false → Answers (.bankRead bank ⟨rank, word⟩ offset length upsets ⟨item, holds⟩ check) s fun t =>
        BankCycled bank.val [headPart q] [] u t ∧ TailQueued bank.val q s t) ∧
      (recurs check = true → Answers (.bankRead bank ⟨rank, word⟩ offset length upsets ⟨item, holds⟩ check) s fun t =>
        (t.bank bank.val).bytes = (s.bank bank.val).bytes ∧ (t.bank bank.val).requests = [] ∧ t.items = s.items ∧
        (t.island (bankGroupBlock bank.val)).fenced = true ∧ (item ≠ 0 → item ∈ (t.island (bankGroupBlock bank.val)).struck))) ∧
    (∀ word upsets, word < bankWords → upsetsIn upsets (touched (word * 64) 64) = true →
      let q : PortRequest := { rank := .background, start := word * 64, length := 64 }
      (backgroundRuns s (halfOfRegion (bank.val / 1792)) = true → Answers (.scrubRead (.sram bank word) upsets) s fun t =>
        BankCycled bank.val [q] [] (s.strikeBank bank.val upsets) t ∧ Beside State.bank bank.val s t) ∧
      (backgroundRuns s (halfOfRegion (bank.val / 1792)) = false → exec (.scrubRead (.sram bank word) upsets) s = .next s)) ∧
    (∀ rank word offset bytes, bankAccessOk word offset bytes.length = true →
      let q : PortRequest := { rank := rank, start := word * 64 + offset, length := bytes.length, write := true, bytes := bytes }
      Answers (.bankWrite bank ⟨rank, word⟩ offset bytes) s fun t => BankCycled bank.val [] [headPart q] s t ∧ TailQueued bank.val q s t) ∧
    (Answers (.eccWriteback bank) s fun t => BankCycled bank.val [] [] s t ∧ Beside State.bank bank.val s t) ∧
    ∀ reads writes, reads.all (requestOk false) = true → writes.all (requestOk true) = true →
      (∀ q ∈ reads ++ writes, insideBank q.start q.length = q.length) →
      Answers (.portStallAgeing bank reads writes) s fun t => BankCycled bank.val reads writes s t ∧ Beside State.bank bank.val s t) ∧
  (∀ (cycle : Nat) (share : List Nat) (q : List PortRequest), q ≠ [] →
    let r := portTurn cycle share q
    let used := (share.filter fun c => decide (cycle < c + 65536)).length
    ∃ x ∈ q, r.served = some x ∧ r.left = (q.erase x).map (fun y => { y with stalled := y.stalled + 1 }) ∧
      (∀ y ∈ q, portPlace x ≤ portPlace y ∨ (y.rank = .background ∧ x.rank ≠ .background ∧ 655 ≤ used)) ∧
      ∀ y ∈ q, x.rank = .background → y.rank ≠ .background → used < 655) ∧
  ∀ (s : State) (bank : Fin 7168), bankServes s bank.val = false →
    exec (.eccWriteback bank) s = .next s ∧
    (∀ rank word offset bytes, bankAccessOk word offset bytes.length = true → exec (.bankWrite bank ⟨rank, word⟩ offset bytes) s = .next s) ∧
    (∀ reads writes, reads.all (requestOk false) = true → writes.all (requestOk true) = true →
      exec (.portStallAgeing bank reads writes) s = .next s) ∧
    ∀ rank word offset length upsets item holds check, bankAccessOk word offset length = true →
      flipsOk (word * 64 + offset) length upsets = true → exec (.bankRead bank ⟨rank, word⟩ offset length upsets ⟨item, holds⟩ check) s = .next s

/-- Every byte of a stack reads as before, and no other stack changes. -/
def StackKept (k : Nat) (s t : State) : Prop := Beside State.stack k s t ∧ ∀ e o, hbmByte t k e o = hbmByte s k e o

/-- A stack reads as written, a tagged extent as zeros, and poison ends the item that reads it (R266, R270, R271, R361, R373, R412,
R455, 08_tellers_and_banks.md, 11_placement_and_sharing.md). -/
def Obligations.StacksReadAsWritten : Prop :=
  ∀ (s : State) (stack : Fin 8), hbmServes s stack.val = true →
    let k := s.stack stack.val
    let read := fun (extent offset length : Nat) (upsets : List Upset) (item : Nat) (holds : Holds) (t : State) =>
      let gs := touched (extent * extentBytes + offset) length
      let flips := strikeGranules upsets k.upsets
      let bad := gs.any fun g => decide (2 ≤ lookup 0 flips g) || k.poisoned.contains g
      let bytes := (List.range length).map fun i => hbmByte s stack.val extent (offset + i)
      StackKept stack.val s t ∧
      (extent ∈ k.zeroTags → Touches [.hbmStacks, .islands] s t ∧ (t.stack stack.val).data = some (item, List.replicate length 0) ∧
        (t.stack stack.val).poisoned = k.poisoned) ∧
      (extent ∉ k.zeroTags → (t.stack stack.val).data = some (item, if bad = true then [] else bytes) ∧
        (∀ g ∈ gs, lookup 0 flips g = 1 → lookup 0 (t.stack stack.val).upsets g = 0) ∧
        (item = 0 ∨ rewritten holds = false → ∀ g ∈ gs, 2 ≤ lookup 0 flips g → g ∈ (t.stack stack.val).poisoned) ∧
        (bad = false ∨ item = 0 → Touches [.hbmStacks, .islands] s t) ∧
        ∀ x, bad = true → item ≠ 0 → holds = .object → find s.items item = some x → x.live = true → EndedAs item stFinal t)
    (∀ extent offset length upsets item holds, extent < stackExtents s stack.val → hbmAccessOk offset length = true →
      upsetsIn upsets (touched (extent * extentBytes + offset) length) = true →
      Answers (.hbmRead stack extent offset length upsets ⟨item, holds⟩) s (read extent offset length upsets item holds)) ∧
    (∀ granule upsets, granule / extentGranules < stackExtents s stack.val → upsetsIn upsets [granule] = true →
      let half := if stack.val < 4 then Half.west else .east
      (backgroundRuns s half = true → Answers (.scrubRead (.hbm stack granule) upsets) s
        (read (granule / extentGranules) (granule % extentGranules * granuleBytes) granuleBytes upsets 0 .object)) ∧
      (backgroundRuns s half = false → exec (.scrubRead (.hbm stack granule) upsets) s = .next s)) ∧
    (∀ extent offset bytes, extent < stackExtents s stack.val → hbmAccessOk offset bytes.length = true →
      Answers (.hbmWrite stack extent offset bytes) s fun t => Touches [.hbmStacks, .islands] s t ∧ Beside State.stack stack.val s t ∧
        (∀ g ∈ covered (extent * extentBytes + offset) bytes.length, g ∉ (t.stack stack.val).poisoned) ∧
        ∀ e o, o < extentBytes → hbmByte t stack.val e o =
          if e = extent ∧ offset ≤ o ∧ o < offset + bytes.length then bytes.getD (o - offset) 0 else hbmByte s stack.val e o) ∧
    ∀ celsius, Answers (.hbmRefresh stack celsius) s fun t => Touches [.hbmStacks] s t ∧ Beside State.stack stack.val s t ∧
      t.stack stack.val = { k with refreshes := k.refreshes + 1, refreshRate := Config.refreshRate celsius }

/-! ### Clearing and the fabric (R278 to R311, R405 to R409) -/

/-- The command is the arrival of a sequenced frame, of its row's type and payload size (Table 13.7). -/
def Sequenced (i : Instr) (port : BitVec 5) (f : VfFrame) (time : Nat) : Prop :=
  (i = .offer port f time ∧ frameFits frameOffer 32 f = true) ∨ (i = .grant port f time ∧ frameFits frameGrant 0 f = true) ∨
  (i = .refuse port f time ∧ frameFits frameRefuse 1 f = true) ∨ (i = .busy port f time ∧ frameFits frameBusy 0 f = true) ∨
  (i = .data port f time ∧ dataFits f = true) ∨ (i = .abort port f time ∧ frameFits frameAbort 2 f = true) ∨
  (i = .lostNotice port f time ∧ frameFits frameLost 36 f = true)

/-- One acknowledgement of the frame has gone out at the port. -/
def AckSent (port : Nat) (f : VfFrame) (s t : State) : Prop :=
  ∃ g, t.out = s.out ++ [.frame port g] ∧ g.header.type.toNat = frameAck ∧ g.header.dest = f.header.source ∧
    g.header.acked = f.header.sequence ∧ g.header.incarnation = f.header.incarnation ∧ g.header.sequence = 0 ∧ g.payload = []

/-- Every other peer context is as before. -/
def OtherPeers (h : Half) (peer : Nat) (s t : State) : Prop := Beside (fun u n => lookup {} u.peers n) (peerKey h peer) s t

/-- No item has changed but for the moment of its progress, and only the item of the frame's ticket has. -/
def OnlyProgress (f : VfHeader) (s t : State) : Prop :=
  ∀ id, find t.items id = (find s.items id).map fun x =>
    if (ticketOf s f).map Prod.fst = some id then { x with progressAt := t.now } else x

/-- A frame is acknowledged and delivered once, in sequence order, or discarded (R290, R307, R405, R407, R408, R409,
13_external_interfaces.md, 09_clearing.md). -/
def Obligations.FramesAreTakenInOrder : Prop :=
  (∀ (s : State) (i : Instr) (port : BitVec 5) (f : VfFrame) (time : Nat), Sequenced i port f time →
    let u := s.at time
    let h := halfOfPort port.toNat
    let peer := f.header.source.toNat
    let seq := f.header.sequence.toNat
    (portServes u port.toNat = false → exec i s = .next u) ∧
    (portServes u port.toNat = true → frameTaken u f = false → Answers i s (Touches [.islands] u)) ∧
    (portServes u port.toNat = true → frameTaken u f = true →
      (contextFor u h f.header = none → Answers i s (Touches [.islands] u)) ∧
      ∀ c, contextFor u h f.header = some c →
        let c' := { c with recvActive := u.now }
        (c.expected + 1024 < seq → Answers i s fun t => Touches [.islands, .peers] u t ∧ OtherPeers h peer s t ∧ t.peer h peer = c') ∧
        (seq < c.expected ∨ find c.waiting seq ≠ none → seq ≤ c.expected + 1024 → Answers i s fun t =>
          Touches [.islands, .peers, .out, .items] u t ∧ OtherPeers h peer s t ∧ AckSent port.toNat f s t ∧ OnlyProgress f.header s t ∧
          t.peer h peer = c') ∧
        (c.expected < seq → seq ≤ c.expected + 1024 → find c.waiting seq = none → find c.waiting c.expected = none → Answers i s fun t =>
          Touches [.islands, .peers, .out, .items] u t ∧ OtherPeers h peer s t ∧ AckSent port.toNat f s t ∧ OnlyProgress f.header s t ∧
          t.peer h peer = { c' with waiting := ins c.waiting seq f }) ∧
        (seq = c.expected → c.waiting = [] → ∃ v, exec i s = .next (v.deliver port.toNat f) ∧ Touches [.islands, .peers, .out, .items] u v ∧
          OtherPeers h peer s v ∧ AckSent port.toNat f s v ∧ OnlyProgress f.header s v ∧
          v.peer h peer = { c' with expected := c.expected + 1 }))) ∧
  ∀ (s : State) (port : BitVec 5) (f : VfFrame) (time : Nat),
    (frameFits frameProbe 0 f = true → portServes (s.at time) port.toNat = true → frameTaken (s.at time) f = true →
      Answers (.probe port f time) s fun t => Touches [.islands, .out] (s.at time) t ∧ AckSent port.toNat f s t) ∧
    (portServes s port.toNat = true → Answers (.pauseFrame port) s (Touches [.islands] s)) ∧
    (portServes s port.toNat = false → exec (.pauseFrame port) s = .next s)

/-- The frame is the next expected one of its context and is delivered at once. -/
def DeliveredNow (s : State) (port : BitVec 5) (f : VfFrame) (time : Nat) : Prop :=
  portServes (s.at time) port.toNat = true ∧ frameTaken (s.at time) f = true ∧
  ∃ c, contextFor (s.at time) (halfOfPort port.toNat) f.header = some c ∧ c.waiting = [] ∧ c.expected = f.header.sequence.toNat

/-- The parts that the receipt of a frame touches, and what it does to a ticket and its item. -/
def frameParts : List Part := [.now, .islands, .peers, .out, .free, .tickets, .items]

/-- The groups of an account after a peer has left the live list of some of them, and of no other. -/
def GroupsWithout (peer : Nat) (left : Nat → Bool) (a b : Account) : Prop :=
  b.params = a.params ∧ ∀ n g, find a.groups n = some g → ∃ g', find b.groups n = some g' ∧ g'.members = g.members ∧
    g'.live = (if left n = true then g.live.filter (fun m => decide (m ≠ peer)) else g.live)

/-- Delivered frames grant, refuse, add and end tickets as their types say (R280, R288, R289, R291, R292, R296, R297, R298, R301,
R304, R310, 09_clearing.md). -/
def Obligations.DeliveredFramesDriveTickets : Prop :=
  ∀ (s : State) (port : BitVec 5) (f : VfFrame) (time : Nat), DeliveredNow s port f time →
    let h := halfOfPort port.toNat
    let p := f.header.source.toNat
    let now := (s.at time).now
    let others := fun (id : Nat) (t : State) => Touches frameParts s t ∧ Beside (fun u => find u.tickets) id s t ∧ OtherItems id s t
    (∀ id k x, ticketOf s f.header = some (id, k) → find s.items id = some x → x.live = true →
      (frameFits frameOffer 32 f = true → answerOf s f = .grant → Answers (.offer port f time) s fun t => others id t ∧
        ∃ k', find t.tickets id = some k' ∧ k'.grantsOut = k.grantsOut ++ [p] ∧ k'.grantsIn = k.grantsIn ∧ k'.granted = k.granted + 1) ∧
      (∀ code, frameFits frameOffer 32 f = true → answerOf s f = .refuse code → code = 1 ∨ code = 5 →
        Answers (.offer port f time) s (EndedWith id stFinal (if code = 1 then 0x4004 else 0x2201))) ∧
      (frameFits frameGrant 0 f = true → p ∈ k.offered → Answers (.grant port f time) s fun t => others id t ∧
        ∃ k', find t.tickets id = some k' ∧ k'.grantsIn = k.grantsIn ++ [p] ∧ p ∉ k'.offered ∧ k'.grantsOut = k.grantsOut) ∧
      (frameFits frameRefuse 1 f = true → p ∈ k.offered →
        Answers (.refuse port f time) s (EndedWith id stFinal (if payloadLE f 0 1 = 5 then 0x2201 else 0x4004))) ∧
      (frameFits frameBusy 0 f = true → p ∈ k.offered → Answers (.busy port f time) s fun t => others id t ∧
        find t.tickets id = some { k with busyAt := ins k.busyAt p now }) ∧
      (frameFits frameAbort 2 f = true → p ∈ k.grantsIn ++ k.grantsOut →
        Answers (.abort port f time) s (EndedWith id stRetryable (payloadLE f 0 2))) ∧
      (dataFits f = true → p ∈ k.grantsOut → Answers (.data port f time) s fun t => others id t ∧
        ∃ k', find t.tickets id = some k' ∧
          (let first := f.header.firstBlock.toNat
           let sum := (List.range f.header.blocks.toNat).foldl (fun a j =>
             addBlock k a (first + j) (transitValues k f.payload j (blockElements k.cols (first + j)).length).1) k.acc
           k.distribute = false → k.ring = false → k'.ledger = sum.ledger ∧ k'.poisoned = sum.poisoned ∧ k'.dustCount = sum.dust) ∧
          (k.distribute = false → k.ring = true → k'.inbox = k.inbox ++ [f] ∧ k'.ledger = k.ledger) ∧
          (k.distribute = true → Stored k.bytes k'.bytes (32 * f.header.firstBlock.toNat) f.payload))) ∧
    (frameFits frameOffer 32 f = true → answerOf s f = .hold →
      let room := decide ((s.offers.filter fun o => decide (o.half = h)).length < 65536)
      Answers (.offer port f time) s fun t => Touches [.now, .islands, .peers, .out, .free, .offers] s t ∧
        t.offers = (if room = true then s.offers ++ [{ frame := f, half := h, port := port.toNat, arrived := now }] else s.offers)) ∧
    (∀ code, frameFits frameOffer 32 f = true → answerOf s f = .refuse code → code ≠ 1 → code ≠ 5 →
      Answers (.offer port f time) s fun t => Touches [.now, .islands, .peers, .out, .free, .items] s t ∧ OnlyProgress f.header s t) ∧
    (frameFits frameLost 36 f = true → Answers (.lostNotice port f time) s fun t =>
      ∀ n a, s.account? n = some a → ∃ b, t.account? n = some b ∧
        GroupsWithout (payloadLE f 0 4) (fun g => decide (n = f.header.account.toNat) && bit (payloadLE f 4 32) g) a b)

/-- Acknowledgements and timers of the fabric: release, retransmission, probes, loss, contexts and deadlines (R288, R290, R292,
R306, R307, R310, R311, R409, R465, 09_clearing.md). -/
def Obligations.FabricTimersAndAcknowledgements : Prop :=
  (∀ (s : State) (port : BitVec 5) (f : VfFrame) (time : Nat), let u := s.at time
    let h := halfOfPort port.toNat
    let p := f.header.source.toNat
    let plane := planeOf port.toNat
    let c := s.peer h p
    frameFits frameAck 0 f = true → portServes u port.toNat = true → frameTaken u f = true → c.queued = [] →
    f.header.incarnation.toNat = (if c.sendOpen = true then c.sendIncarnation else 0) →
    (∀ w ∈ c.unacked, w.sequence = f.header.acked.toNat → f.header.acked.toNat ≠ 0 ∨ find c.probedAt plane = none →
      Answers (.ack port f time) s fun t => Touches [.now, .items, .islands, .peers, .tickets] s t ∧ OtherPeers h p s t ∧
        (t.peer h p).unacked = c.unacked.filter (fun v => decide (v.sequence ≠ f.header.acked.toNat)) ∧ (t.peer h p).queued = []) ∧
    (f.header.acked.toNat = 0 → find c.probedAt plane ≠ none →
      Answers (.ack port f time) s fun t => Touches [.now, .islands, .peers, .lostPeers] s t ∧ OtherPeers h p s t ∧ p ∉ t.lostPeers ∧
        find (t.peer h p).downSince plane = none ∧ find (t.peer h p).misses plane = none ∧ find (t.peer h p).probedAt plane = none ∧
        (t.peer h p).unacked = c.unacked)) ∧
  (∀ (s : State) (half : Half) (peer : BitVec 20) (time : Nat), s.power.powerGood = true → halfOut s half = false → let u := s.at time
    let c := s.peer half peer.toNat
    (∀ (seq : Word64) w, c.unacked.find? (fun v => decide (v.sequence = seq.toNat) && decide (v.sentAt + 8000 ≤ u.now)) = some w →
      (∃ q ∈ planesUp c, q ≠ w.plane) → Answers (.retransmitTimeout half peer seq time) s fun t =>
        Touches [.out, .islands, .peers, .items] u t ∧ OtherPeers half peer.toNat s t ∧
        (∃ v ∈ (t.peer half peer.toNat).unacked, v.sequence = seq.toNat ∧ v.plane ≠ w.plane ∧ v.plane ∈ planesUp c ∧ v.sentAt = u.now) ∧
        (∃ port g, t.out = s.out ++ [.frame port g] ∧ g.header.retransmit = true ∧ g.header.sequence = w.frame.header.sequence ∧
          g.payload = w.frame.payload) ∧
        (1 ≤ lookup 0 c.misses w.plane → find c.downSince w.plane = none → find (t.peer half peer.toNat).downSince w.plane = some u.now)) ∧
    (∀ (seq : Word64), (∀ v ∈ c.unacked, v.sequence = seq.toNat → u.now < v.sentAt + 8000) →
      exec (.retransmitTimeout half peer seq time) s = .next u) ∧
    (∀ plane : BitVec 3, (probeDue u half peer.toNat plane.toNat = true → Answers (.planeProbe half peer plane time) s fun t =>
        Touches [.out, .islands, .peers] u t ∧ OtherPeers half peer.toNat s t ∧
        find (t.peer half peer.toNat).probedAt plane.toNat = some u.now ∧
        ∃ port g, t.out = s.out ++ [.frame port g] ∧ g.header.type.toNat = frameProbe ∧ g.header.dest = peer) ∧
      (probeDue u half peer.toNat plane.toNat = false → exec (.planeProbe half peer plane time) s = .next u))) ∧
  (∀ (s : State) (id : Nat) (peer : BitVec 20) (time : Nat) (k : Ticket), let u := s.at time
    find s.tickets id = some k →
    (find k.busyAt peer.toNat = none → exec (.offerRetry id peer time) s = .next u) ∧
    ∀ t0, find k.busyAt peer.toNat = some t0 →
      (∀ x a, t0 + 100000 ≤ u.now → find s.items id = some x → ticketTensor s x = some a → Answers (.offerRetry id peer time) s fun t =>
        Touches [.out, .free, .items, .islands, .tickets, .peers] u t ∧ Beside (fun v => find v.tickets) id s t ∧
        ∃ k', find t.tickets id = some k' ∧ peer.toNat ∈ k'.offered ∧ find k'.busyAt peer.toNat = none ∧ k'.grantsIn = k.grantsIn) ∧
      (u.now < t0 + 100000 → exec (.offerRetry id peer time) s = .next u)) ∧
  (∀ (s : State) (half : Half) (time : Nat), let u := s.at time
    Answers (.heldOfferExpiry half time) s fun t => Touches [.offers] u t ∧
      ∀ o, o ∈ t.offers ↔ o ∈ s.offers ∧ (o.half = half → u.now < o.arrived + offerDeadline s o)) ∧
  (∀ (s : State) (peer : BitVec 20) (time : Nat), let u := s.at time
    let p := peer.toNat
    let lost := s.power.powerGood && downForSecond u .west p && downForSecond u .east p && !s.lostPeers.contains p && !(halfOut s .west && halfOut s .east)
    (lost = true → Answers (.peerLost peer time) s fun t => t.lostPeers = s.lostPeers ++ [p] ∧
      ∀ n a, s.account? n = some a → ∃ b, t.account? n = some b ∧ GroupsWithout p (fun _ => true) a b) ∧
    (lost = false → exec (.peerLost peer time) s = .next u)) ∧
  (∀ (s : State) (half : Half) (peer : BitVec 20) (makeRoom : Bool) (time : Nat), let u := s.at time
    let c := s.peer half peer.toNat
    let sends := c.sendOpen && decide (c.unacked = []) && decide (c.queued = []) && (makeRoom || decide (c.sendActive + 10000 * ms ≤ u.now))
    let receives := c.recvOpen && decide (c.waiting = []) && (makeRoom || decide (c.recvActive + 10000 * ms ≤ u.now))
    Answers (.peerContextClose half peer makeRoom time) s fun t => Touches [.peers] u t ∧ OtherPeers half peer.toNat s t ∧
      (let e := t.peer half peer.toNat
       e.sendOpen = (c.sendOpen && !sends) ∧ e.recvOpen = (c.recvOpen && !receives) ∧ e.downSince = c.downSince ∧
       e.unacked = c.unacked ∧ e.waiting = c.waiting ∧ (sends = false → e.nextSequence = c.nextSequence) ∧
       (receives = false → e.expected = c.expected) ∧ (sends = true → (c.sendIncarnation, u.now) ∈ e.usedSend) ∧
       (receives = true → (c.recvIncarnation, u.now) ∈ e.closedRecv))) ∧
  ∀ (s : State) (id time : Nat) (x : Item), let u := s.at time
    find s.items id = some x → isClear x.slip = true → x.stage ≤ 2 →
    let base := if (find s.tickets id).isSome then some x.progressAt
      else if previousEnded x && (!enableField (slipPreWait x.slip) || x.preWaitDone) then some x.readyAt else none
    (waitOverdue u x.account base false = true → Answers (.clearDeadline id time) s (EndedAs id stRetryable)) ∧
    (waitOverdue u x.account base false = false → exec (.clearDeadline id time) s = .next u)

/-- The result an owner writes for an element, before its format's rounding: the ledger in units of 2^(σ − 128), or NaN when
poisoned (R298). -/
def ledgerValue (k : Ticket) (i : Nat) : Val := if k.poisoned.contains i then .nan else Val.ofDy ⟨lookup 0 k.ledger i, k.scaleExp - 128⟩

/-- The owner's result has been written into an unscaled tensor: each element is the ledger's value, rounded once. -/
def ResultWritten (k : Ticket) (h : Nat) (a : Tensor) (t : State) : Prop :=
  ∃ v, find t.tensors h = some v ∧ v.rows = a.rows ∧ v.cols = a.cols ∧
    ∀ i, i < a.rows * a.cols → v.code i = a.fmt.encode (ledgerValue k i)

/-- The item's receipt will carry the poison and the dust of its ticket (Table 9.7). -/
def LedgerReported (id : Nat) (k : Ticket) (t : State) : Prop :=
  ∃ y, find t.items id = some y ∧ y.stage = 3 ∧ y.aux0 = poisonAux k.poisoned ∧ y.aux1 = saturate 32 k.dustCount

/-- A CLEAR reads its group, opens one ticket, and completes as its mode and role say (R278, R279, R284, R286, R287, R293, R295,
R298, R301, R304, R373, 09_clearing.md). -/
def Obligations.ClearItemsOpenAndFinish : Prop :=
  (∀ (s : State) (id : Nat) (cw : List CWrite) (x : Item) (a : Account), let m := applyStores s.cmem cw
    let u : State := { s with cmem := m }
    find s.items id = some x → x.stage ≤ 1 → isClear x.slip = true → x.groupRead = false → s.account? x.account = some a →
    let k := clearGroup x.slip
    let entry := groupEntry u x.account k
    let g := readGroup m (find a.groups k) entry
    let v := u.setAccount x.account { a with groups := ins a.groups k g }
    let bad := lowestByte (offences v x.account x.slip ++ clearOffences v x.slip entry g)
    (bad = none → Answers (.groupTableReadDone id cw) s fun t =>
      Touches [.accounts, .items] u t ∧ OtherItems id s t ∧ Beside State.account? x.account s t ∧
      t.account? x.account = some { a with groups := ins a.groups k g } ∧
      ∃ y, find t.items id = some y ∧ y.groupRead = true ∧ y.group.members = g.members ∧ y.group.live = g.live ∧ y.stage = x.stage) ∧
    ∀ byte, bad = some byte → Answers (.groupTableReadDone id cw) s fun t =>
      ∃ y, find t.items id = some y ∧ y.stage = 6 ∧ y.status = stMalformed ∧ y.rejectOffset = byte) ∧
  (∀ (s : State) (id : Nat) (x : Item), MayStart s id x → isClear x.slip = true →
    let u := s.serveRing x
    let unmet := isReduce 0 x.slip && decide (unmetCharge u ≠ 0)
    let waits := bucketOpen u x.account x.slip = true ∨ enginesFor u x.account = []
    (ledgerFits u x = false → Answers (.itemStart id) s (EndedAs id stQuota)) ∧
    (ledgerFits u x = true → unmet = true → Answers (.itemStart id) s (EndedAs id stRetryable)) ∧
    (ledgerFits u x = true → unmet = false → waits → exec (.itemStart id) s = .next u) ∧
    (ledgerFits u x = true → unmet = false → ¬waits → s.offers = [] →
      Answers (.itemStart id) s fun t => AtStage id 2 t ∧ OtherItems id s t ∧ ∃ k, find t.tickets id = some k ∧
        k.half ∈ enginesFor u x.account ∧ k.account = x.account ∧ k.ticket = clearTicket x.slip ∧ k.group = clearGroup x.slip ∧
        k.contributors = clearContributors x.slip ∧ k.scaleExp = clearScaleExp x.slip ∧ k.list = x.group ∧ k.ledger = [] ∧
        k.grantsIn = [] ∧ k.grantsOut = [])) ∧
  (∀ (s : State) (id : Nat) (x : Item) (k : Ticket) (b : Tensor), ItemReads s id x → find s.tickets id = some k →
    find s.tensors (slipB x.slip) = some b →
    (∀ i, (i = .clearOwnerReduce id ∧ isReduce 0 x.slip = true) ∨ (i = .clearRingReduce id ∧ isReduce 1 x.slip = true) →
      (b.poison ≠ 0 → Answers i s (EndedAs id stFinal)) ∧
      (b.poison = 0 → encodable k b = false → Answers i s (EndedAs id stRetryable))) ∧
    (b.poison = 0 → encodable k b = true → isReduce 0 x.slip = true →
      (k.role = 0 →
        (∀ a, k.ownAdded = true → k.contributors ≤ k.finished → find s.tensors (slipA x.slip) = some a → a.fmt.scaled = false →
          Answers (.clearOwnerReduce id) s fun t => LedgerReported id k t ∧ OtherTensors (slipA x.slip) s t ∧
            ResultWritten k (slipA x.slip) a t) ∧
        (k.ownAdded = true → k.finished < k.contributors → exec (.clearOwnerReduce id) s = .next s) ∧
        (k.ownAdded = false → k.finished + 1 < k.contributors → Answers (.clearOwnerReduce id) s fun t => AtStage id 2 t ∧ OtherItems id s t ∧
          ∃ k', find t.tickets id = some k' ∧ k'.ownAdded = true ∧ k'.finished = k.finished + 1)) ∧
      (k.role ≠ 0 →
        (k.grantsIn = [] → exec (.clearOwnerReduce id) s = .next s) ∧
        (k.grantsIn ≠ [] → k.sentAll = false → Answers (.clearOwnerReduce id) s fun t => AtStage id 2 t ∧ OtherItems id s t ∧
          ∃ k', find t.tickets id = some k' ∧ k'.sentAll = true) ∧
        (k.grantsIn ≠ [] → k.sentAll = true → allAcked s k = true → Answers (.clearOwnerReduce id) s fun t =>
          Touches [.items, .tickets] s t ∧ OtherItems id s t ∧ AtStage id 3 t))) ∧
    (b.poison = 0 → encodable k b = true → isReduce 1 x.slip = true →
      let worked := if firstHop s k = true then k.sentAll = true else k.inbox = []
      (k.role ≠ 0 → k.grantsIn = [] → exec (.clearRingReduce id) s = .next s) ∧
      (∀ a, k.role = 0 → worked → totalBlocks k.rows k.cols ≤ k.passed → find s.tensors (slipA x.slip) = some a → a.fmt.scaled = false →
        Answers (.clearRingReduce id) s fun t => LedgerReported id k t ∧ OtherTensors (slipA x.slip) s t ∧
          ResultWritten k (slipA x.slip) a t) ∧
      (k.role ≠ 0 → k.grantsIn ≠ [] → worked → totalBlocks k.rows k.cols ≤ k.passed → allAcked s k = true →
        Answers (.clearRingReduce id) s fun t => OtherItems id s t ∧ Touches [.items, .tickets] s t ∧ LedgerReported id k t))) ∧
  ∀ (s : State) (id : Nat) (x : Item) (k : Ticket), ItemReads s id x → isDistribute x.slip = true → find s.tickets id = some k →
    (∀ b, k.role = 0 → find s.tensors (slipB x.slip) = some b →
      let granted := (offersTo s k).all fun p => k.grantsIn.contains p
      let image := imageOf b.fmt b.rows b.cols b.code b.ebyte b.sExp
      (b.poison ≠ 0 → Answers (.clearDistribute id) s (EndedAs id stFinal)) ∧
      (b.poison = 0 → granted = false → exec (.clearDistribute id) s =
        .next (((unsentReceivers k).foldl (fun t p => t.sendImage id k image p) (s.setItem id (x.saw (nonFinite b)))).setTicket id
          { k with lastFrom := k.grantsIn, state := 1 })) ∧
      (b.poison = 0 → granted = true → unsentReceivers k = [] → allAcked s k = true →
        Answers (.clearDistribute id) s fun t => Touches [.items, .tickets] s t ∧ OtherItems id s t ∧ AtStage id 3 t)) ∧
    (∀ a, k.role ≠ 0 → find s.tensors (slipA x.slip) = some a →
      let size := ceilDiv (imageBytes a.fmt a.rows a.cols) 32
      let forwarded := match forwardsTo s k with
        | some n => k.grantsIn.contains n && decide (k.inbox = []) && allAcked s k
        | none => true
      (forwardsTo s k = none → k.passed < size → exec (.clearDistribute id) s = .next s) ∧
      (∀ e, size ≤ k.passed → forwarded = true → imageScale k.bytes 0 a = some (some e) → Answers (.clearDistribute id) s fun t =>
        Touches [.items, .tickets, .tensors] s t ∧ OtherItems id s t ∧ AtStage id 3 t ∧ OtherTensors (slipA x.slip) s t ∧
        ∃ v, find t.tensors (slipA x.slip) = some v ∧ v.sExp = e ∧ v.ceil = k.ceiling ∧
          ∀ r c, r < a.rows → c < a.cols → v.code (r * a.cols + c) = imageCode k.bytes 0 a.fmt a.cols r c) ∧
      (size ≤ k.passed → forwarded = true → imageScale k.bytes 0 a = none → Answers (.clearDistribute id) s (EndedWith id stFinal 0x2201)))

/-- The order in which contributions reach an owner's ledger does not change it (R294, R296, R297, R298, 09_clearing.md). -/
def Obligations.LedgerDoesNotDependOnOrder : Prop :=
  ∀ (sigma : Int) (a : LedgerAcc) (l m : List (Nat × Val)), l.Perm m →
    let x := l.foldl (addElement sigma) a
    let y := m.foldl (addElement sigma) a
    (∀ i, lookup 0 x.ledger i = lookup 0 y.ledger i) ∧ (∀ i, i ∈ x.poisoned ↔ i ∈ y.poisoned) ∧ x.dust = y.dust

/-! ### Sharing, accounts, faults, the charter, stewards and dumps (R334 to R392, R451) -/

/-- A grant goes to the oldest aged work, else by deficit, and is charged to its account (R30, R31, R353, R354, R356, R357,
11_placement_and_sharing.md). -/
def Obligations.GrantsGoToAgedWorkOrByDeficit : Prop :=
  (∀ (s : State) (unit : SharedUnit) (ready : List Ready) (time : Nat), unitOk unit = true →
    let u := s.at time
    let work := admittedReady u ready
    let done := blockIssues u (unitBlock unit) && atBoundary u unit && grantOver u unit work time
    let v := if (grantOf u unit).active = true then u.endGrant unit time else u
    let aged := work.filter (isAged v unit time)
    let given := fun (p : Pool) (account : Nat) (t : State) => Touches [.free, .items, .islands, .dtbs, .pools, .grants] u t ∧
      (grantOf t unit).account = account ∧ (grantOf t unit).start = time ∧ (grantOf t unit).active = timeSliced unit ∧
      ∃ w, w ∈ work ∧ w.account.toNat = account ∧
        (timeSliced unit = true → ∀ q ∈ work, q.account.toNat = account → w.since ≤ q.since) ∧
        (∀ b o, unit = .port b o → w.block.toNat =
          nextBlock ((work.filter fun q => decide (q.account.toNat = account)).map fun q => q.block.toNat) (lookup 0 p.blocks account)) ∧
        chargeOf v unit w ≤ (grantOf t unit).charge ∧ (grantOf t unit).charge ≤ chargeOf v unit w + 8000 ∧
        lookup 0 (poolOf t unit).deficit account = lookup 0 p.deficit account - ((grantOf t unit).charge : Int)
    (done = false → exec (.grantPoint unit ready time) s = .next u) ∧
    (∀ r, done = true → otherReady unit .recovery ready = some r → Answers (.grantPoint unit ready time) s fun t => Touches [.islands] u t) ∧
    (done = true → otherReady unit .recovery ready = none →
      (∀ r, oldestOf aged = some r → Answers (.grantPoint unit ready time) s (given (poolOf v unit) r.account.toNat)) ∧
      (work = [] → otherReady unit .background ready = none → exec (.grantPoint unit ready time) s = .next v) ∧
      (∀ r, work = [] → otherReady unit .background ready = some r → Answers (.grantPoint unit ready time) s fun t => Touches [.islands] v t) ∧
      ∀ p r, aged = [] → work ≠ [] →
        roundRobin v unit work (v.accounts.map Prod.fst) (robinFuel (poolOf v unit) work (v.accounts.map Prod.fst)) (poolOf v unit) = some (p, r) →
        Answers (.grantPoint unit ready time) s fun t => given p r.account.toNat t ∧ 0 < lookup 0 p.deficit r.account.toNat ∧
          p.pointer = r.account.toNat)) ∧
  ∀ (s : State) (unit : SharedUnit) (time : Nat), timeSliced unit = true →
    let u := s.at time
    let g := grantOf u unit
    let done := g.active && decide (g.start + g.quantum ≤ time) && atBoundary u unit
    (done = true → Answers (.quantumExpiry unit time) s fun t => Touches [.pools, .grants] u t ∧ grantOf t unit = { g with active := false }) ∧
    (done = false → exec (.quantumExpiry unit time) s = .next u)

/-- The registers of an accepted account command, with its result (R451). -/
def commandHub (s : State) (command account result : Nat) : HubRegs :=
  { s.hub with accountResult := result, accountCommand := command, accountNumber := account, accountCount := (s.hub.accountCount + 1) % 2 ^ 32 }

/-- An account command has ended with a result and no other effect. -/
def CommandEnds (ep : Half) (command account result : Nat) (s t : State) : Prop :=
  Touches [.hub, .out] s t ∧ t.hub = commandHub s command account result ∧ t.out = s.out ++ [.done ep]

/-- A command written under BUSY is answered, discarded and counted (R347). -/
def CommandDiscarded (ep : Half) (s t : State) : Prop :=
  Touches [.out, .islands] s t ∧ t.out = s.out ++ [.done ep] ∧ Counts (stewardBlock ep) 4 1 s t

/-- Account commands are accepted, checked in order, and admit, resize or remove an account (R340, R342, R343, R346, R347, R359,
R363, R364, R448, R451, R467, 11_placement_and_sharing.md). -/
def Obligations.AccountCommandsTakeEffect : Prop :=
  ∀ (s : State) (ep : Half) (account : BitVec 6) (cw : List CWrite) (value : Word64), endpointUp s ep = true → commandsTaken s = true →
    let n := account.toNat
    let u : State := { s with cmem := applyStores s.cmem cw }
    let p := paramsOfEntry (entryOf u n)
    let ends := fun (i : Instr) (c r : Nat) => Answers i s (CommandEnds ep c n r u)
    (s.hub.accountResult ≠ resBusy → charterHeld s = false →
      ends (.admitAccount ep account cw) 1 resNoCharter ∧ ends (.resize ep account cw) 2 resNoCharter ∧
      Answers (.remove ep account) s (CommandEnds ep 3 n resNoCharter s)) ∧
    (s.hub.accountResult ≠ resBusy → charterHeld s = true → s.account? n = none →
      ends (.resize ep account cw) 2 resWrongState ∧ Answers (.remove ep account) s (CommandEnds ep 3 n resWrongState s) ∧
      (entryOk (entryOf u n) = false → ends (.admitAccount ep account cw) 1 resMalformed) ∧
      (entryOk (entryOf u n) = true → withinCapacity u n p = false ∨ 0 < u.marginUsed → ends (.admitAccount ep account cw) 1 resInsufficient) ∧
      (entryOk (entryOf u n) = true → withinCapacity u n p = true → u.marginUsed = 0 → Answers (.admitAccount ep account cw) s fun t =>
        Touches [.out, .free, .hub, .accounts, .islands, .decks, .hbmStacks] u t ∧ t.hub = commandHub s 1 n resDone ∧
        t.out = s.out ++ [.done ep] ∧ Beside State.account? n s t ∧
        ∃ a, t.account? n = some a ∧ a = { params := p, vaultExtents := a.vaultExtents, slotExtents := a.slotExtents })) ∧
    (∀ a, s.hub.accountResult ≠ resBusy → charterHeld s = true → s.account? n = some a →
      ends (.admitAccount ep account cw) 1 resWrongState ∧
      (a.removing = true → ends (.resize ep account cw) 2 resWrongState) ∧
      (a.removing = false →
        (entryOk (entryOf u n) = false ∨ modeChanged a.params p = true → ends (.resize ep account cw) 2 resMalformed) ∧
        (entryOk (entryOf u n) = true → modeChanged a.params p = false → belowCharges u n a p = true → ends (.resize ep account cw) 2 resBelowCharges) ∧
        (entryOk (entryOf u n) = true → modeChanged a.params p = false → belowCharges u n a p = false →
          (raises a.params p = true → withinCapacity u n p = false ∨ 0 < u.marginUsed → ends (.resize ep account cw) 2 resInsufficient) ∧
          (raises a.params p = false ∨ (withinCapacity u n p = true ∧ u.marginUsed = 0) → Answers (.resize ep account cw) s fun t =>
            Touches [.out, .free, .hub, .accounts, .islands, .decks, .hbmStacks] u t ∧ t.hub = commandHub s 2 n resDone ∧
            t.out = s.out ++ [.done ep] ∧ Beside State.account? n s t ∧
            ∃ b, t.account? n = some b ∧ b = { a with params := p, vaultExtents := b.vaultExtents, slotExtents := b.slotExtents }))) ∧
      ((∀ id x, (id, x) ∈ s.items → x.account ≠ n) → Answers (.remove ep account) s fun t => t.account? n = none ∧ Beside State.account? n s t ∧
        Touches [.out, .cmem, .lastWrite, .hub, .rings, .accounts, .tensors, .tallies, .images, .decks, .tellers, .hbmStacks, .offers, .pools] s t ∧
        t.hub = commandHub s 3 n resDone ∧ (∀ h, handleAccount h = n → find t.tensors h = none ∧ find t.tallies h = none ∧ find t.images h = none) ∧
        ∀ h, handleAccount h ≠ n → find t.tensors h = find s.tensors h ∧ find t.tallies h = find s.tallies h ∧ find t.images h = find s.images h) ∧
      ((∃ id x, find s.items id = some x ∧ x.account = n) → Answers (.remove ep account) s fun t => t.hub = commandHub s 3 n resBusy ∧
        (∃ b, t.account? n = some b ∧ b.removing = true ∧ b.params = a.params) ∧
        ∀ id x, find s.items id = some x → x.account = n → ∃ y, find t.items id = some y ∧
          (2 < x.stage → y.stage = x.stage ∧ y.status = x.status) ∧
          (x.stage ≤ 1 ∨ (x.stage = 2 ∧ isRun x.slip = false ∧ isGemm x.slip = false) → y.stage = 6 ∧ y.status = stCancelled) ∧
          (x.stage = 2 → (y.stage = 6 ∧ y.status = stCancelled) ∨ (y.stage = 2 ∧ y.stopping = true)))) ∧
    (s.hub.accountResult ≠ resBusy → commandOf value.toNat = 0 ∨ 3 < commandOf value.toNat →
      Answers (.accountCommandMalformed ep value) s (CommandEnds ep (commandOf value.toNat) (bits value.toNat 13 8)
        (if charterHeld s = true then resMalformed else resNoCharter) s)) ∧
    (s.hub.accountResult ≠ resBusy → exec (.accountCommandDiscarded ep value) s = .next s) ∧
    (s.hub.accountResult = resBusy →
      Answers (.accountCommandDiscarded ep value) s (CommandDiscarded ep s) ∧ Answers (.remove ep account) s (CommandDiscarded ep s) ∧
      Answers (.admitAccount ep account cw) s (CommandDiscarded ep u) ∧ Answers (.resize ep account cw) s (CommandDiscarded ep u))

/-- A silent block is fenced, its work resumes or ends, and it returns only after a passed self-test (R28, R29, R32, R368, R369,
R374, R377, R378, 12_faults_and_recovery.md). -/
def Obligations.FencedBlocksResumeElsewhere : Prop :=
  (∀ (s : State) (block : Word16) (time : Nat), let b := block.toNat
    let u := s.at time
    let i := s.island b
    let recorded := fun (action : Nat) (t : State) =>
      ∃ r, (t.island b).faults = (addFault i r).faults ∧ r.code = 0x2601 ∧ r.source = b ∧ r.action = action
    watched b = true → s.power.powerGood = true → i.fenced = false →
    (holdsWork s b = true → Answers (.livenessPulse block time) s fun t => Touches [.islands] u t ∧ Beside State.island b s t ∧
      t.island b = { i with pulseAt := time }) ∧
    (holdsWork s b = true → i.pulseAt + ms ≤ time → regionFenced s (blockLocation b) = true → Answers (.livenessTimeout block time) s fun t =>
      Touches [.islands] u t ∧ (t.island b).fenced = false ∧ recorded 5 t) ∧
    (holdsWork s b = true → i.pulseAt + ms ≤ time → regionFenced s (blockLocation b) = false → Answers (.livenessTimeout block time) s fun t =>
      Touches [.islands, .flash, .recovering, .recoveryQueue, .items, .decks, .aabs, .dtbs, .tellers, .banks] u t ∧
      (t.island b).fenced = true ∧ (t.island b).fences = i.fences + 1 ∧ (t.island b).withdrawn = (i.withdrawn || decide (2 ≤ i.fences)) ∧
      itemsOn t b = [] ∧ (∀ id ∈ itemsOn s b, id ∈ (t.island b).struck) ∧ recorded 3 t) ∧
    (holdsWork s b = false ∨ time < i.pulseAt + ms → exec (.livenessTimeout block time) s = .next u)) ∧
  (∀ (s : State) (block : Word16) (target : Option Word16), let b := block.toNat
    let ids := (s.island b).struck
    watched b = true → (∀ w, target = some w → validBlock w.toNat = true) → ids.Nodup →
    let may := (s.island b).fenced && !regionFenced s (blockLocation b) && mayRecover s (domainOf b) && targetOk s b (accountsOf s ids) target
    (may = true → Answers (.blockRecovery block target) s fun t => (t.island b).struck = [] ∧ t.recovering = none ∧
      ∀ id ∈ ids, ∀ x, ItemRuns s id x →
        (isClear x.slip = true ∨ x.recoveries = 3 → EndedAs id stRetryable t) ∧
        (isClear x.slip = false → x.recoveries < 3 → ∃ y, find t.items id = some y ∧ y.recoveries = x.recoveries + 1 ∧ y.slip = x.slip ∧
          y.fault = (if x.fault = 0 then fenceCode s b else x.fault) ∧
          y.stage = (if isRun x.slip = true ∧ isUpdate s x.slip = true then 1 else 2))) ∧
    (may = false → exec (.blockRecovery block target) s = .next s)) ∧
  ∀ (s : State) (block : Word16) (passes : Bool) (time : Nat), let b := block.toNat
    let u := s.at time
    let i := s.island b
    validBlock b = true → s.power.powerGood = true → halfOut s (halfOfBlock b) = false →
    (b ≠ stewardBlock .west → b ≠ stewardBlock .east →
      let back := i.fenced && !i.withdrawn && decide (i.fencedAt + retestNs ≤ time) && passes && decide (i.fences < 3)
      (back = true → Answers (.fenceSelfTest block passes time) s fun t => Touches [.islands, .hbmStacks] u t ∧ Beside State.island b s t ∧
        t.island b = { i with fenced := false, pulseAt := time }) ∧
      (back = false → exec (.fenceSelfTest block passes time) s = .next u)) ∧
    ∀ h, b = stewardBlock h → halfOut s h = false →
      let x := s.steward h
      let back := x.fenced && !x.withdrawn && decide (x.fencedAt + retestNs ≤ time) && passes && decide (x.fences < 3)
      (back = true → Answers (.fenceSelfTest block passes time) s fun t => Touches [.stewards] u t ∧ (t.steward h).fenced = false ∧
        (t.steward h).holder = false ∧ (t.steward h).mirror = none ∧ (t.steward h).heartbeatAt = time) ∧
      (back = false → exec (.fenceSelfTest block passes time) s = .next u)

/-- A region, a stack or a half is fenced, what it held is recovered or poisoned, and recoveries queue (R26, R28, R291, R352, R370,
R371, R373, R382, R390, 12_faults_and_recovery.md). -/
def Obligations.RegionsStacksAndHalvesAreFenced : Prop :=
  (∀ (s : State) (region : Fin 4) (failed : Word16) (words time : Nat), let u := s.at time
    let b := switchBlock region.val
    let d := Domain.region region.val
    validBlock failed.toNat = true → blockLocation failed.toNat = region.val →
    let fences := s.power.powerGood && !regionFenced s region.val && regionCause u region.val failed.toNat
    (fences = false → exec (.regionFence region failed words time) s = .next u) ∧
    (fences = true → Answers (.regionFence region failed words time) s fun t => regionFenced t region.val = true ∧
      (∃ r, (t.island b).faults = (addFault (s.island b) r).faults ∧ r.code = 0x3001 ∧ r.source = b ∧ r.detail0 = failed.toNat ∧ r.detail1 = words) ∧
      (∀ k ∈ blocksOf region.val, itemsOn t k = []) ∧
      (mayRecover s d = true → charterHeld s = true → t.recovering = none ∧
        ∀ n a, s.account? n = some a → ∃ a', t.account? n = some a' ∧ a'.params = a.params ∧ a'.step = a.step ∧ a'.staged = a.staged) ∧
      (mayRecover s d = false ∨ charterHeld s = false →
        (∀ id x, find s.items id = some x → ∃ y, find t.items id = some y ∧ y.stage = x.stage ∧ y.status = x.status) ∧
        t.recoveryQueue = s.recoveryQueue.filter (fun q => decide (q.domain ≠ d)) ++
          [{ domain := d, code := 0x3001, block := failed.toNat, recorded := u.now, bound := boundRegion, words := words }]))) ∧
  (∀ (s : State) (stack : Fin 8) (time : Nat), let u := s.at time
    let b := hbmBlock stack.val
    let at_once := mayRecover s (domainOf b) && charterHeld s
    (hbmServes s stack.val = false → exec (.hbmFenced stack time) s = .next u) ∧
    (hbmServes s stack.val = true → Answers (.hbmFenced stack time) s fun t => (t.stack stack.val).fenced = true ∧ (t.stack stack.val).bytes = [] ∧
      Beside State.stack stack.val s t ∧ (t.island b).fenced = true ∧
      (∃ r, (t.island b).faults = (addFault (s.island b) r).faults ∧ r.code = 0x4007 ∧ r.source = b ∧ r.sub = stack.val) ∧
      (at_once = true → (∀ id ∈ ledgersOn s [stack.val], ∀ x, ItemRuns s id x → isClear x.slip = true → EndedAs id stRetryable t) ∧
        (ledgersOn s [stack.val] = [] → ∀ h v, find s.tensors h = some v → ∃ v', find t.tensors h = some v' ∧
          v' = { v with place := v'.place, poison := v'.poison, fallbackFmt := v'.fallbackFmt } ∧
          v'.poison = (if v.cls ≠ 1 ∧ v.place.sram = none ∧ lookup [] v.place.extents stack.val ≠ [] then 0x4007 else v.poison))) ∧
      (at_once = false → Touches [.islands, .flash, .hbmStacks, .recoveryQueue, .dumpDue] u t ∧
        t.recoveryQueue = s.recoveryQueue ++ [{ domain := domainOf b, code := 0x4007, block := b, recorded := u.now, bound := boundHbm }]))) ∧
  (∀ (s : State) (time : Nat), let u := s.at time
    (s.power.powerGood = false ∨ s.bridgeUp = false → exec (.bridgeLost time) s = .next u) ∧
    (s.power.powerGood = true → s.bridgeUp = true → Answers (.bridgeLost time) s fun t => t.bridgeUp = false ∧
      ∀ h, (halfOut t h = (halfOut s h || !continues u h)) ∧
        (halfOut s h = false → continues u h = true →
          ∃ r, (t.island (bridgeBlock h)).faults = (addFault (s.island (bridgeBlock h)) r).faults ∧ r.code = 0x4008))) ∧
  ∀ (s : State) (time : Nat), let u := s.at time
    (s.recovering ≠ none ∨ s.recoveryQueue = [] → exec (.queuedRecoveryStart time) s = .next u) ∧
    ∀ r rest, s.recovering = none → s.recoveryQueue = r :: rest →
      (deviceLevel r = true → charterHeld s = false → exec (.queuedRecoveryStart time) s = .next u) ∧
      (charterHeld s = true → (∃ k, r.domain = .region k ∧ r.code = 0x3001) ∨ r.code = 0x4007 ∨ (∃ h, r.domain = .half h ∧ r.code = 0x4008) →
        Answers (.queuedRecoveryStart time) s fun t => t.recovering = none ∧ t.recoveryQueue = rest) ∧
      (deviceLevel r = false → Answers (.queuedRecoveryStart time) s fun t =>
        Touches [.recovering, .recoveryQueue] u t ∧ t.recovering = some r ∧ t.recoveryQueue = rest)

/-- The charter is renewed, expires, is taken with a higher epoch, and yields to a higher one (R371, R385, R386, R387, R388, R389,
R390, R466, 12_faults_and_recovery.md). -/
def Obligations.CharterMovesWithTheEpoch : Prop :=
  ∀ (s : State) (h : Half) (cw : List CWrite) (time : Nat),
    let m := applyStores s.cmem cw
    let u : State := { s.at time with cmem := m }
    let x := s.steward h
    let w := readLE m s.hub.witnessBase 32
    let due := stewardWorks s h && leaseRuns u h && decide (x.renewedAt + 10 * ms ≤ time)
    (due = true → witSound w = true → ownRecord u h w = true → witEpoch w ≤ x.epoch → Answers (.charterRenewal h cw true time) s fun t =>
      Touches [.out, .cmem, .lastWrite, .stewards] u t ∧
      Stored m t.cmem s.hub.witnessBase (toLE 32 (witnessWord x.epoch h ((x.renewals + 1) % 2 ^ 32))) ∧
      t.steward h = { x with renewals := (x.renewals + 1) % 2 ^ 32, renewedAt := time, witnessLost := false }) ∧
    (due = true → Answers (.charterRenewal h cw false time) s fun t => Touches [.stewards, .islands, .dumpDue] u t ∧
      t.steward h = { x with witnessLost := true } ∧
      ∃ r, (t.island (stewardBlock h)).faults = (addFault (s.island (stewardBlock h)) r).faults ∧ r.code = 0x4002) ∧
    (due = true → witSound w = true → x.epoch < witEpoch w → Answers (.charterRenewal h cw true time) s fun t =>
      Touches [.stewards, .islands, .dumpDue] u t ∧ t.steward h = { x with holder := false } ∧
      ∃ r, (t.island (stewardBlock h)).faults = (addFault (s.island (stewardBlock h)) r).faults ∧ r.code = 0x4001) ∧
    (due = false → ∀ reachable, exec (.charterRenewal h cw reachable time) s = .next u) ∧
    (let done := believesHolder s h && decide (x.renewedAt + 45 * ms ≤ time)
     (done = true → Answers (.leaseExpiry h time) s fun t => Touches [.stewards] (s.at time) t ∧ t.steward h = { x with holder := false } ∧
       t.steward h.other = s.steward h.other) ∧
     (done = false → exec (.leaseExpiry h time) s = .next (s.at time))) ∧
    (let may := s.power.powerGood && stewardWorks s h && !believesHolder s h && s.hub.witnessWritten && !x.corruptWitness &&
       decide (5 ≤ s.power.stage) && decide (s.power.stage ≤ 7)
     let e := (witEpoch w + 1) % 2 ^ 64
     (may = true → witSound w = true → mayTake u h w time = true → Answers (.charterTake h cw time) s fun t =>
       Stored m t.cmem s.hub.witnessBase (toLE 32 (witnessWord e h 0)) ∧ (t.steward h).holder = true ∧ (t.steward h).epoch = e ∧
       (t.steward h).renewedAt = time ∧ .epochBroadcast e ∈ t.out ∧
       ∀ b ∈ allBlocks, halfOut s (halfOfBlock b) = false → (t.island b).epoch = max (s.island b).epoch e) ∧
     (may = true → witSound w = true → mayTake u h w time = false → Answers (.charterTake h cw time) s fun t => Touches [.stewards] u t ∧
       t.steward h = x.note w time) ∧
     (may = true → witSound w = false → Answers (.charterTake h cw time) s fun t => Touches [.stewards, .islands] u t ∧
       t.steward h = { x with corruptWitness := true, rereadAt := time }) ∧
     (may = false → exec (.charterTake h cw time) s = .next u)) ∧
    (let due := stewardWorks s h && x.corruptWitness && decide (x.rereadAt + 10 * ms ≤ time)
     (due = true → witSound w = true → Answers (.witnessReread h cw time) s fun t => Touches [.stewards] u t ∧ t.steward h = x.note w time) ∧
     (due = true → witSound w = false → Answers (.witnessReread h cw time) s fun t => Touches [.stewards, .islands] u t ∧
       t.steward h = { x with corruptWitness := true, rereadAt := time }) ∧
     (due = false → exec (.witnessReread h cw time) s = .next u)) ∧
    ∀ winning : Word64,
      (believesHolder s h = true → x.epoch < winning.toNat → Answers (.charterRejection h winning) s fun t =>
        Touches [.stewards, .islands, .dumpDue] s t ∧ t.steward h = { x with holder := false } ∧
        ∃ r, (t.island (stewardBlock h)).faults = (addFault (s.island (stewardBlock h)) r).faults ∧ r.code = 0x4001) ∧
      (believesHolder s h = false ∨ winning.toNat ≤ x.epoch → exec (.charterRejection h winning) s = .next s)

/-- A block keeps the highest epoch, a silent steward is fenced, and stewards restart and update as asked (R268, R371, R374, R384,
R388, R391, R392, R436, R438, 12_faults_and_recovery.md). -/
def Obligations.EpochsStewardsAndUpdates : Prop :=
  (∀ (s : State) (block : Word16) (from_ : Half) (epoch epochC : Word64), let b := block.toNat
    let i := s.island b
    let e := epoch.toNat
    validBlock b = true → s.power.powerGood = true → halfOut s (halfOfBlock b) = false →
    (epochC.toNat ≠ onesComplement 64 e → Answers (.epochCommand block from_ epoch epochC) s fun t => Touches [.islands] s t ∧
      Beside State.island b s t ∧ (t.island b).epoch = i.epoch ∧ ∃ r, (t.island b).faults = (addFault i r).faults ∧ r.code = 0x2201 ∧ r.detail0 = 2) ∧
    (epochC.toNat = onesComplement 64 e → e < i.epoch → Answers (.epochCommand block from_ epoch epochC) s fun t =>
      Touches [.islands, .out] s t ∧ Counts b 11 1 s t ∧ t.out = s.out ++ [.rejection b from_ i.epoch]) ∧
    (epochC.toNat = onesComplement 64 e → i.epoch < e → Answers (.epochCommand block from_ epoch epochC) s fun t =>
      Touches [.islands] s t ∧ Beside State.island b s t ∧ t.island b = { i with epoch := e, epochC := onesComplement 64 e }) ∧
    (epochC.toNat = onesComplement 64 e → i.epoch = e → exec (.epochCommand block from_ epoch epochC) s = .next s)) ∧
  (∀ (s : State) (h : Half) (time : Nat), let u := s.at time
    let x := s.steward h
    let works := stewardsRun s && stewardWorks s h
    (works = true → Answers (.stewardHeartbeat h time) s fun t => Touches [.stewards] u t ∧ t.steward h = { x with heartbeatAt := time } ∧
      t.steward h.other = s.steward h.other) ∧
    (works = false ∨ time < x.heartbeatAt + 5 * ms → exec (.stewardHeartbeatTimeout h time) s = .next u) ∧
    (works = true → x.heartbeatAt + 5 * ms ≤ time → Answers (.stewardHeartbeatTimeout h time) s fun t =>
      (t.steward h).fenced = true ∧ (t.steward h).holder = false ∧ (t.steward h).fences = x.fences + 1 ∧
      (believesHolder s h = true → t.moving = true) ∧ (believesHolder s h = false → t.moving = s.moving) ∧
      (stewardWorks s h.other = true → t.stopped = s.stopped) ∧ (stewardWorks s h.other = false → t.stopped = true ∧ t.power.readyPin = false) ∧
      ∃ r, (t.island (stewardBlock h)).faults = (addFault (s.island (stewardBlock h)) r).faults ∧ r.code = 0x4005)) ∧
  (∀ (s : State) (ep : Half) (value : Word64), endpointUp s ep = true →
    (Answers (.stewardRestart ep value) s fun t => Touches [.out, .stewards] s t ∧ t.out = s.out ++ [.done ep] ∧
      ∀ h, let x := s.steward h
        t.steward h = (if restartBit value.toNat h = true ∧ x.fenced = true ∧ x.withdrawn = false ∧ halfOut s h = false
          then { x with restartRequested := true, restarting := true, mirror := some [] } else x)) ∧
    ∀ verdict, let h := (holderOrWest s).other
      let x := s.steward h
      let starts := bit value.toNat 0 && !updating s && charterHeld s && decide (s.power.stage = 7)
      (starts = true → slotRuns s (!x.slotB) verdict = true → stewardWorks s h = true → Answers (.fwUpdateStart ep value verdict) s fun t =>
        Touches [.out, .hub, .stewards] s t ∧ t.hub = { s.hub with fwState := 2 } ∧ (t.steward h).restarting = true ∧ (t.steward h).slotB = x.slotB) ∧
      (starts = true → slotRuns s (!x.slotB) verdict = false ∨ stewardWorks s h = false → Answers (.fwUpdateStart ep value verdict) s fun t =>
        Touches [.out, .hub] s t ∧ t.hub = { s.hub with fwState := 6 }) ∧
      (starts = false → exec (.fwUpdateStart ep value verdict) s = .next { s with out := s.out ++ [.done ep] })) ∧
  ∀ (s : State) (h : Half) (passes : Bool) (verdict : Verdict) (time : Nat), let u := s.at time
    let x := s.steward h
    let back := fun t : State => (t.steward h).restarting = false ∧ (t.steward h).fenced = false ∧ (t.steward h).holder = false ∧ (t.steward h).heartbeatAt = time
    (x.restarting = false → exec (.stewardRestartDone h passes verdict time) s = .next u) ∧
    (x.restarting = true → x.restartRequested = true → passes = true → Answers (.stewardRestartDone h passes verdict time) s fun t =>
      Touches [.stewards] u t ∧ back t ∧ (t.steward h).slotB = x.slotB) ∧
    (x.restarting = true → x.restartRequested = true → passes = false → Answers (.stewardRestartDone h passes verdict time) s fun t =>
      Touches [.stewards] u t ∧ t.steward h = { x with restarting := false, restartRequested := false }) ∧
    (x.restarting = true → x.restartRequested = false →
      (s.hub.fwState = 2 → passes = true → Answers (.stewardRestartDone h passes verdict time) s fun t =>
        Touches [.stewards, .hub, .moving] u t ∧ back t ∧ (t.steward h).slotB = !x.slotB ∧ t.hub = { s.hub with fwState := 3 } ∧ t.moving = true) ∧
      (s.hub.fwState = 4 → passes = true → slotRuns s (!x.slotB) verdict = true → Answers (.stewardRestartDone h passes verdict time) s fun t =>
        Touches [.stewards, .hub] u t ∧ back t ∧ (t.steward h).slotB = !x.slotB ∧ t.hub = { s.hub with fwState := 5 }) ∧
      ((s.hub.fwState = 2 ∧ passes = false) ∨ (s.hub.fwState = 4 ∧ (passes = false ∨ slotRuns s (!x.slotB) verdict = false)) → Answers (.stewardRestartDone h passes verdict time) s fun t =>
        Touches [.stewards, .hub] u t ∧ back t ∧ (t.steward h).slotB = x.slotB ∧ t.hub = { s.hub with fwState := 6 }))

/-- Dumps are taken oldest event first, the two newest are kept, and the window shows the one selected (R334, R336, R339, R398,
R449, 10_tallies_and_ordering.md). -/
def Obligations.DumpsAreTakenAndPresented : Prop :=
  (∀ (s : State) (time : Nat), s.power.powerGood = true → let u := s.at time
    let taken := fun (reason trigger : Nat) (t : State) => t.dumpCount = s.dumpCount + 1 ∧ ∃ d, d.number = s.dumpCount + 1 ∧ d.reason = reason ∧
      d.trigger = trigger ∧ t.dumps = s.dumps.getLast?.toList ++ [d]
    (∀ reason code rest, s.dumpDue = (reason, code) :: rest → Answers (.auditDump time) s fun t =>
      Touches [.dumps, .dumpCount, .dumpDue] u t ∧ t.dumpDue = rest ∧ taken reason code t) ∧
    (s.dumpDue = [] → s.hub.dumpRequest = true → Answers (.auditDump time) s fun t =>
      Touches [.dumps, .dumpCount, .hub] u t ∧ t.hub = { s.hub with dumpRequest := false } ∧ taken 1 0 t) ∧
    (s.dumpDue = [] → s.hub.dumpRequest = false → exec (.auditDump time) s = .next u)) ∧
  ∀ (s : State) (ep : Half), endpointUp s ep = true →
    (∀ value : Word64, bit value.toNat 0 = true → Answers (.dumpRequest ep value) s fun t => Touches [.out, .hub] s t ∧ t.out = s.out ++ [.done ep] ∧
      t.hub = { s.hub with dumpRequest := true, dumpOlder := bit value.toNat 2 }) ∧
    (∀ value : Word64, bit value.toNat 0 = false → Answers (.dumpSelectOlder ep value) s fun t => Touches [.out, .hub] s t ∧
      t.out = s.out ++ [.done ep] ∧ t.hub = { s.hub with dumpOlder := bit value.toNat 2 }) ∧
    ∀ offset size d, pageAccess offset size (2 ^ 28) = true → presented s = some d → Answers (.dumpWindowRead ep offset size) s fun t =>
      Touches [.out, .free] s t ∧ ∃ bytes, t.out = s.out ++ [.data ep bytes] ∧ bytes.length = size ∧
        ∀ k, k < size → offset + k < d.bytes.length → bytes.getD k 0 = d.bytes.getD (offset + k) 0

/-! ### Clocks, registers, links, attestation, board management and power (R328 to R330, R394 to R462) -/

/-- Exchange rates, companion time, sample marks and exports say what the counters read (R329, R453, R456, R457, R458, R459,
10_tallies_and_ordering.md, 15_setup_registers_and_telemetry.md). -/
def Obligations.TimeBasesMarksAndExports : Prop :=
  (∀ (s : State) (half : Half) (block : Word16) (sent marked time : Nat), let b := block.toNat
    let u := s.at time
    let e := rateOf s half b
    let hub := fun n => islandCount { u with now := n } (hubBlock half)
    let count := islandCount { u with now := marked } b
    let mid := (hub sent + hub time) / 2
    let answers := s.power.powerGood && !halfOut s half && !islandFenced s b
    rateBlock half b = true → sent ≤ marked → marked ≤ time →
    (answers = true → Answers (.exchangeRateRefresh half block sent marked time) s fun t =>
      Touches [.rates] u t ∧ t.rates.get half.other = s.rates.get half.other ∧ (∀ c, c ≠ b → rateOf t half c = rateOf s half c) ∧
      (rateOf t half b).islandCount = count ∧ (rateOf t half b).hubCount = mid ∧
      (rateOf t half b).spread = min 65535 ((hub time - hub sent) / 2) ∧
      (mid ≤ e.hubCount → (rateOf t half b).rate = e.rate) ∧
      ∀ dh, 0 < dh → mid = e.hubCount + dh →
        (rateOf t half b).rate = min (2 ^ 32 - 1) (((count - e.islandCount) * 2 ^ 25 + dh) / (2 * dh))) ∧
    (answers = false → exec (.exchangeRateRefresh half block sent marked time) s = .next u)) ∧
  (∀ (s : State) (ep : Half) (ns : Word64) (time : Nat), endpointUp s ep = true → let u := s.at time
    let hub := islandCount u (hubBlock ep)
    Answers (.companionTimeWrite ep ns time) s fun t => Touches [.out, .rates, .telemetry] u t ∧ t.out = s.out ++ [.done ep] ∧
      t.telemetry = { s.telemetry with companionNs := ns.toNat, companionAt := some time, stale := false } ∧
      ∀ h, (∀ c, c ≠ 0xFFFF → rateOf t h c = rateOf s h c) ∧
        rateOf t h 0xFFFF = { rate := rateBetween (rateOf s h 0xFFFF) ns.toNat hub, islandCount := ns.toNat, hubCount := hub, spread := 2400 }) ∧
  (∀ (s : State) (time : Nat), let u := s.at time
    let due := s.power.powerGood && decide (s.telemetry.companionAt.getD s.power.powerGoodAt + 100 * ms ≤ time)
    exec (.companionTimeStale time) s = .next (if due = true then { u with telemetry := { s.telemetry with stale := true } } else u)) ∧
  (∀ (s : State) (half : Half) (time : Nat), let u := s.at time
    let n := s.telemetry.marks.get half + 1
    (s.power.powerGood = false ∨ halfOut s half = true → exec (.sampleMark half time) s = .next u) ∧
    (s.power.powerGood = true → halfOut s half = false → Answers (.sampleMark half time) s fun t =>
      Touches [.islands, .telemetry] u t ∧ t.telemetry = { s.telemetry with marks := s.telemetry.marks.set half n } ∧
      ∀ b, let i := s.island b
        let j := t.island b
        (validBlock b = false ∨ halfOfBlock b = half.other ∨ islandFenced s b = true → j = i) ∧
        (validBlock b = true → halfOfBlock b = half → islandFenced s b = false →
          j = { i with latched := j.latched, counters := j.counters, sample := n, stamp := islandCount u b } ∧
          ∀ k, (lookup {} j.latched k).value = (lookup {} i.counters k).value ∧ (lookup {} j.counters k).value = (lookup {} i.counters k).value ∧
            (lookup {} j.counters k).wrap = false ∧
            ∀ c, find i.counters k = some c → (lookup {} j.latched k).wrap = (c.wrap || (lookup {} i.latched k).wrap)))) ∧
  ∀ (s : State) (time : Nat), let u := s.at time
    let m := s.telemetry
    let due := s.power.powerGood && decide (s.hub.telemetryInterval ≠ 0) && stewardServes s &&
      decide (m.exportedAt + s.hub.telemetryInterval * ms ≤ time)
    (due = false → exec (.telemetryExport time) s = .next u) ∧
    (due = true → Answers (.telemetryExport time) s fun t =>
      let n := m.exports + 1
      let base := s.hub.telemetryBase + 131072 * (n % 2)
      let head := readLE t.cmem base 64
      Touches [.free, .cmem, .lastWrite, .islands, .telemetry] u t ∧
      t.telemetry = { m with exports := n, exportedAt := time, newBase := false } ∧ (∀ b, t.island b = (s.island b).exported) ∧
      (∀ c, c < base ∨ base + 64 + 128 * 966 ≤ c → readByte t.cmem c = readByte s.cmem c) ∧
      bits head 63 0 = n % 2 ^ 64 ∧ bits head 127 64 = islandCount u (hubBlock (reporter s)) % 2 ^ 64 ∧
      bits head 191 128 = toCompanion (rateOf s (reporter s) 0xFFFF) (islandCount u (hubBlock (reporter s))) ∧ bits head 207 192 = 966 ∧
      bit head 208 = m.stale ∧ bit head 209 = m.newBase ∧
      bits head 255 224 = crc32 (readBytes t.cmem (base + 64) (128 * 966)) % 2 ^ 32 ∧
      ∀ k b, allBlocks[k]? = some b → let r := readLE t.cmem (base + 64 + 128 * k) 128
        let i := s.island b
        bits r 15 0 = b ∧ bit r 16 = islandFenced s b ∧ bit r 17 = islandWithdrawn s b ∧ bits r 63 32 = i.sample % 2 ^ 32 ∧ bits r 127 64 = i.stamp % 2 ^ 64 ∧
        ∀ j, j < 14 → uncounted (blockKind b) j = false →
          bits r (128 + 64 * j + 48) (128 + 64 * j) = (if blockKind b = 0x13 ∧ j = 4 then (s.stack ((blockLocation b - 4) * 4 + blockIndex b)).rate
            else (lookup {} i.latched j).value + 2 ^ 48 * ofBool ((lookup {} i.latched j).wrap && !m.newBase)) % 2 ^ 49)

/-- A register write that the device ignores and counts (R397, R448). -/
def WriteIgnored (ep : Half) (s t : State) : Prop :=
  Touches [.out, .islands] s t ∧ t.out = s.out ++ [.done ep] ∧ Counts (stewardBlock ep) 3 1 s t

/-- Each access of the SCL window has the effect and the answer that the map gives it (R397, R398, R399, R401, R415, R431, R446,
R448, R459, 13_external_interfaces.md, 15_setup_registers_and_telemetry.md). -/
def Obligations.WindowAccessesAnswerByTheMap : Prop :=
  ∀ (s : State) (ep : Half), endpointUp s ep = true →
    let retried : State := { s with out := s.out ++ [.retry ep] }
    let done : State := { s with out := s.out ++ [.done ep] }
    (∀ value : Word64, let v := value.toNat
      let sets := fun (o : Nat) (h : HubRegs) => Answers (.registerWrite ep o value) s fun t => Touches [.out, .hub, .telemetry] s t ∧
        t.out = s.out ++ [.done ep] ∧ t.hub = h ∧
        t.telemetry = (if s.hub.telemetryInterval = 0 ∧ h.telemetryInterval ≠ 0 then { s.telemetry with newBase := true, exportedAt := s.now } else s.telemetry)
      let ignored := fun o : Nat => Answers (.registerWrite ep o value) s (WriteIgnored ep s)
      (stewardServes s = false → ∀ o ∈ stewardRegisters, ownCommand o v = false → exec (.registerWrite ep o value) s = .next retried) ∧
      (stewardServes s = true →
        (s.accounts = [] → sets regModuleId { s.hub with moduleId := bits v 19 0 }) ∧ (s.accounts ≠ [] → ignored regModuleId) ∧
        sets regRingTableBase { s.hub with ringTableBase := bits v 63 12 * 2 ^ 12 } ∧
        sets regAccountTableBase { s.hub with accountTableBase := bits v 63 12 * 2 ^ 12 } ∧
        (2 ≤ bits v 5 0 ∧ bits v 5 0 ≤ 32 → sets regQuantum { s.hub with quantum := bits v 5 0 }) ∧
        (bits v 5 0 < 2 ∨ 32 < bits v 5 0 → ignored regQuantum) ∧
        (1 ≤ bits v 2 0 ∧ bits v 2 0 ≤ 6 ∧ 1 ≤ bits v 12 8 ∧ bits v 12 8 ≤ 24 →
          sets regBackground { s.hub with sramScrub := bits v 2 0, hbmScrub := bits v 12 8 }) ∧
        (bits v 2 0 = 0 ∨ 6 < bits v 2 0 ∨ bits v 12 8 = 0 ∨ 24 < bits v 12 8 → ignored regBackground) ∧
        sets regTelemetryBase { s.hub with telemetryBase := bits v 63 18 * 2 ^ 18 } ∧
        (bits v 9 0 ≤ 1000 → sets regTelemetryControl { s.hub with telemetryInterval := bits v 9 0 }) ∧
        (1000 < bits v 9 0 → ignored regTelemetryControl) ∧
        (noContext s = true → sets regVfEtherType { s.hub with etherType := bits v 15 0 } ∧
          sets regVfVlan { s.hub with vlanId := bits v 11 0, vlanPcp := bits v 14 12, vlanEnable := bit v 15 } ∧
          (bit v 8 = false → sets regVfMacPrefix { s.hub with macPrefix := bits v 15 0 })) ∧
        (noContext s = false → ignored regVfEtherType ∧ ignored regVfVlan) ∧ (noContext s = false ∨ bit v 8 = true → ignored regVfMacPrefix)) ∧
      (∀ o ∈ hubRegisters, ownCommand o v = false → o ≠ regSpdmW → o ≠ regSpdmE → exec (.registerWrite ep o value) s = .next done) ∧
      (∀ side o, o = (match side with | .west => regSpdmW | .east => regSpdmE) → bit v 13 = false →
        exec (.registerWrite ep o value) s = .next { done with mail := s.mail.set side { s.mail.get side with requestLength := bits v 12 0 } }) ∧
      (∀ k, k < 512 →
        (∀ side o, o = (match side with | .west => 0x2000 | .east => 0x4000) + 8 * k → Answers (.registerWrite ep o value) s fun t =>
          Touches [.out, .mail] s t ∧ t.mail.get side.other = s.mail.get side.other ∧
          t.mail.get side = { s.mail.get side with request := (t.mail.get side).request } ∧
          Stored (s.mail.get side).request (t.mail.get side).request (8 * k) (toLE 8 v)) ∧
        exec (.registerWrite ep (0x3000 + 8 * k) value) s = .next done ∧ exec (.registerWrite ep (0x5000 + 8 * k) value) s = .next done)) ∧
    (∀ o ∈ stewardRegisters, ∀ write, let served := if o = regAccountCommand then commandsTaken s else stewardServes s
      exec (.registerRetry ep o write) s = .next (if served = true then s else retried)) ∧
    (∀ value : Word64,
      (s.hub.witnessWritten = true → Answers (.witnessBaseWrite ep value) s (WriteIgnored ep s)) ∧
      (s.hub.witnessWritten = false → exec (.witnessBaseWrite ep value) s =
        .next { done with hub := { s.hub with witnessBase := bits value.toNat 63 5 * 32, witnessWritten := true } })) ∧
    (∀ (type : Byte) (offset size : Nat), 3 ≤ type.toNat ∨ 4096 < size ∨ 4096 < offset % 4096 + size →
      exec (.companionRequestError ep type offset size) s = .next { s with out := s.out ++ [.error ep] }) ∧
    (∀ (offset size : Nat), pageAccess offset size (2 ^ 30) = true →
      (reservedAccess offset size true = true → Answers (.reservedOffsetAccess ep offset size true) s (WriteIgnored ep s)) ∧
      (reservedAccess offset size false = true → exec (.reservedOffsetAccess ep offset size false) s =
        .next { s with out := s.out ++ [.data ep (List.replicate size 0)] })) ∧
    (∀ (offset : Nat) (bytes : List Byte), flashWriteOk offset bytes.length = true →
      (updating s = true → exec (.flashWindowWrite ep offset bytes) s = .next retried) ∧
      (updating s = false → Answers (.flashWindowWrite ep offset bytes) s fun t => Touches [.out, .flash] s t ∧ t.out = s.out ++ [.done ep] ∧
        (alternateIsB s = true → t.flash = { s.flash with slotB := t.flash.slotB } ∧ Stored s.flash.slotB t.flash.slotB offset bytes) ∧
        (alternateIsB s = false → t.flash = { s.flash with slotA := t.flash.slotA } ∧ Stored s.flash.slotA t.flash.slotA offset bytes))) ∧
    ∀ line : Nat, line % 64 = 0 → Answers (.snoop ep line) s fun t => Touches [.out, .free, .lastWrite] s t ∧ t.lastWrite = none ∧
      (lineWritten s line = false → t.out = s.out ++ [.invalid ep]) ∧
      (t.out = s.out ++ [.invalid ep] ∨ t.out = s.out ++ [.data ep (readBytes s.cmem line 64)])

/-- What a write of HUB.VF_PORT_PHYp does that is answered DONE or RETRY (Table 15.3). -/
def PortWritten (i : Instr) (ep : Half) (n v : Nat) (s : State) : Prop :=
  let p := s.port n
  let phy := bits v 2 0
  let moved := decide (bit v 3 ≠ p.highLanes) && decide (4 ≤ phy) && decide (phy ≤ 6)
  let widens := bit v 4 && p.narrowed
  let retrains := decide (phy ≠ p.phy) || moved || widens
  let cleared := decide (phy ≠ p.phy) || (!moved && widens)
  let q : Port := { p with
    phy := phy, highLanes := bit v 3, fullWidth := p.fullWidth || bit v 4,
    state := if retrains = true then (if phy = 0 then 0 else 1) else p.state
    narrowed := if cleared = true then false else p.narrowed
    lanesFailed := if cleared = true then [] else p.lanesFailed }
  (stewardServes s = false → exec i s = .next { s with out := s.out ++ [.retry ep] }) ∧
  (stewardServes s = true → phy = 7 → Answers i s (WriteIgnored ep s)) ∧
  (stewardServes s = true → phy ≠ 7 → Answers i s fun t => Touches [.out, .islands, .ports] s t ∧ t.out = s.out ++ [.done ep] ∧
    Beside State.port n s t ∧ t.port n = q ∧
    (q.state = 1 ∧ p.state ≠ 1 → Counts (vfPortBlock n) 5 1 s t) ∧ (q.state ≠ 1 ∨ p.state = 1 → t.islands = s.islands))

/-- A link drops in width and returns, and a port retrains, narrows and comes up (R394, R395, R396, R403, R404,
13_external_interfaces.md, 15_setup_registers_and_telemetry.md). -/
def Obligations.LinksAndPortsChangeWidth : Prop :=
  (∀ (s : State) (ep : Half), let l := s.links.get ep
    let present := s.power.powerGood && !halfOut s ep && decide (l.trained = true)
    let changed := fun (l' : Link) (t : State) => t.links = s.links.set ep l' ∧
      (l'.width ≠ l.width → Counts (endpointBlock ep) 3 1 s t) ∧ (l'.width = l.width → t.islands = s.islands)
    (∀ sequence, endpointUp s ep = true → Answers (.sclFlitCrcFailure ep sequence) s fun t => Touches [.out, .islands, .links] s t ∧
      t.out = s.out ++ [.replayRequest ep sequence.toNat] ∧ Counts (endpointBlock ep) 2 1 s t ∧
      t.links = s.links.set ep { l with replayFrom := some sequence.toNat }) ∧
    (∀ lane, let lanes := l.lanes - 2 ^ lane.val
      let n := laneCount lanes
      (present = true → bit l.lanes lane.val = true → Answers (.sclLaneFailure ep lane) s fun t => Touches [.out, .islands, .links] s t ∧
        t.out = s.out ++ [.replay ep] ∧ n < 12 ∧
        changed { l with lanes := lanes, width := min l.width (if 8 ≤ n then 8 else if 4 ≤ n then 4 else 0) } t) ∧
      (present = false ∨ bit l.lanes lane.val = false → exec (.sclLaneFailure ep lane) s = .next s)) ∧
    (∀ (working : BitVec 12) (time : Nat), let u := s.at time
      let due := present && decide (l.width < 12) && decide (l.retryAt + 600 * 1000 * ms ≤ time)
      (due = true → working.toNat = 0xFFF → Answers (.sclWidthRetry ep working time) s fun t => Touches [.islands, .links] u t ∧
        changed { l with lanes := 0xFFF, width := 12, retryAt := time } t) ∧
      (due = true → working.toNat ≠ 0xFFF → exec (.sclWidthRetry ep working time) s =
        .next { u with links := s.links.set ep { l with retryAt := time } }) ∧
      (due = false → exec (.sclWidthRetry ep working time) s = .next u)) ∧
    (let loses := s.power.powerGood && !halfOut s ep && !l.oscillator
     (loses = true → Answers (.sclRefclkLoss ep) s fun t => Touches [.islands, .links] s t ∧ t.links = s.links.set ep { l with oscillator := true } ∧
       Counts (endpointBlock ep) 4 1 s t) ∧
     (loses = false → exec (.sclRefclkLoss ep) s = .next s))) ∧
  (∀ (s : State) (ep : Half) (port : BitVec 5) (value : Word64), endpointUp s ep = true →
    PortWritten (.vfPortPhyWrite ep port value) ep port.toNat value.toNat s ∧
    (bit value.toNat 4 = true → PortWritten (.vfFullWidthRequest ep port value) ep port.toNat value.toNat s)) ∧
  ∀ (s : State) (port : BitVec 5), let n := port.toNat
    let p := s.port n
    let present := s.power.powerGood && !halfOut s (halfOfPort n)
    (∀ lane : BitVec 3, let failed := insertNat p.lanesFailed lane.toNat
      let onHigh := if p.narrowed = true then p.lanesFailed.any fun k => decide (k < 4) else p.highLanes
      let uses := if onHigh = true then decide (4 ≤ lane.toNat) else decide (lane.toNat < 4)
      (present = false ∨ (p.state ≠ 2 ∧ p.state ≠ 3) → exec (.vfLaneFailure port lane) s = .next s) ∧
      (present = true → p.state = 2 → Answers (.vfLaneFailure port lane) s fun t => Touches [.islands, .ports] s t ∧ Beside State.port n s t ∧
        t.port n = { p with state := 1, narrowed := true, lanesFailed := failed } ∧ Counts (vfPortBlock n) 5 1 s t) ∧
      (present = true → p.state = 3 → Answers (.vfLaneFailure port lane) s fun t => Touches [.ports] s t ∧ Beside State.port n s t ∧
        t.port n = { p with state := if uses = true then 4 else 3, lanesFailed := failed })) ∧
    (present = true → p.state = 1 → Answers (.vfTrainingDone port) s fun t => Touches [.ports] s t ∧ Beside State.port n s t ∧
      t.port n = { p with state := if 1 ≤ p.phy ∧ p.phy ≤ 3 ∧ p.narrowed = false then 2 else 3, fullWidth := false }) ∧
    (present = false ∨ p.state ≠ 1 → exec (.vfTrainingDone port) s = .next s)

/-- A responder has answered: the request is copied, the response written, and the request counted, with a mismatch of identity (R442,
R450; its length is free, log 23). -/
def Responds (i : Instr) (ep side : Half) (length : Nat) (s : State) (r : SpdmResponse) : Prop :=
  Answers i s fun t => Touches [.out, .free, .islands, .mail] s t ∧ t.out = s.out ++ [.done ep] ∧
    t.mail.get side.other = s.mail.get side.other ∧ Beside State.island (hubBlock side) s t ∧
    (let m := s.mail.get side
     ∃ n, n ≤ 4096 ∧ t.mail.get side =
       { m with requestLength := length, captured := readBytes m.request 0 length, response := r, done := true, responseLength := n }) ∧
    let c := (s.island (hubBlock side)).counters
    let d := (t.island (hubBlock side)).counters
    t.island (hubBlock side) = { s.island (hubBlock side) with counters := d } ∧ lookup {} d 1 = bumpCounter (lookup {} c 1) 1 ∧
    lookup {} d 0 = bumpCounter (lookup {} c 0) (if r = .error 5 then 1 else 0) ∧ ∀ k, 2 ≤ k → lookup {} d k = lookup {} c k

/-- A responder answers each SPDM request from its half's record, key and measurements (R441, R442, R443, R444, R450,
14_power_boot_security.md). -/
def Obligations.RespondersAnswerThroughTheMailbox : Prop :=
  ∀ (s : State) (ep side : Half) (length : BitVec 13), endpointUp s ep = true →
    let m := s.mail.get side
    let n := length.toNat
    let request := readBytes m.request 0 n
    let all := [.spdmGetVersion ep ⟨side, length⟩, .spdmGetCapabilities ep ⟨side, length⟩, .spdmNegotiateAlgorithms ep ⟨side, length⟩, .spdmGetDigests ep ⟨side, length⟩,
      .spdmGetCertificate ep ⟨side, length⟩, .spdmChallenge ep ⟨side, length⟩, .spdmGetMeasurements ep ⟨side, length⟩, .spdmUnsupportedRequest ep ⟨side, length⟩]
    let done : State := { s with out := s.out ++ [.done ep] }
    let chain := match side with | .west => s.power.record.certW | .east => s.power.record.certE
    let sign := Config.mlDsaSign (Config.identityKey (match side with | .west => 0 | .east => 1))
      (Config.sha3 (request.map BitVec.toNat ++ (measurementsOf s side).map fun b => b.digest.toNat))
    (halfOut s side = false → 1 ≤ n → n ≤ 4096 →
      Responds (.spdmGetVersion ep ⟨side, length⟩) ep side n s (.version 1 3) ∧
      Responds (.spdmGetCapabilities ep ⟨side, length⟩) ep side n s (.capabilities true true 2 true 4096 4096) ∧
      Responds (.spdmNegotiateAlgorithms ep ⟨side, length⟩) ep side n s (.algorithms 256 256 0x0044 0) ∧
      Responds (.spdmGetDigests ep ⟨side, length⟩) ep side n s (.digests (Config.sha3 (chain.map BitVec.toNat))) ∧
      Responds (.spdmGetCertificate ep ⟨side, length⟩) ep side n s (.certificate 0 chain) ∧
      Responds (.spdmChallenge ep ⟨side, length⟩) ep side n s
        (if s.power.keyMatches.get side = true then .challengeAuth sign (measurementsOf s side) else .error 5) ∧
      Responds (.spdmGetMeasurements ep ⟨side, length⟩) ep side n s
        (if bit (request.getD 2 0).toNat 0 = false then .measurements (measurementsOf s side) 0
         else if s.power.keyMatches.get side = true then .measurements (measurementsOf s side) sign else .error 5) ∧
      Responds (.spdmUnsupportedRequest ep ⟨side, length⟩) ep side n s (.error 7)) ∧
    (halfOut s side = false → n = 0 ∨ 4096 < n → ∀ i ∈ all,
      exec i s = .next { done with mail := s.mail.set side { m with requestLength := n, done := true, responseLength := 0 } }) ∧
    (halfOut s side = true → ∀ i ∈ all, exec i s = .next { done with mail := s.mail.set side { m with requestLength := n } }) ∧
    (n = 0 ∨ 4096 < n → exec (.spdmBadLength ep side length) s = .next
      (if halfOut s side = true then { done with mail := s.mail.set side { m with requestLength := n } }
       else { done with mail := s.mail.set side { m with requestLength := n, done := true, responseLength := 0 } })) ∧
    (measurementsOf s side).map (fun b => (b.index, b.type)) =
      ([(1, .immutableRom), (2, .immutableRom), (3, .mutableFirmware), (4, .mutableFirmware), (5, .mutableFirmware), (6, .mutableFirmware),
        (7, .hardwareConfiguration)] : List (Nat × MeasurementType)).filter fun b => !halfOut s side.other || decide (b.1 = 7) ||
          decide (b.1 % 2 = match side with | .west => 1 | .east => 0)

/-- The I3C target takes its address, serves its pages and touches no work (R413, R461, R462, 13_external_interfaces.md,
15_setup_registers_and_telemetry.md). -/
def Obligations.I3cServesItsPages : Prop :=
  ∀ s : State, let c := s.i3c
    let tells := fun bytes : List Byte => ({ s with out := s.out ++ [.i3c bytes] } : State)
    let on := s.power.inputInRange
    (∀ a : BitVec 7, exec (.entdaa a) s = .next (if on = true ∧ c.address = none then { s with i3c := { c with address := some a.toNat } } else s)) ∧
    (∀ st a : BitVec 7, exec (.setdasa st a) s =
      .next (if on = true ∧ c.address = none ∧ st.toNat = 0x3A then { s with i3c := { c with address := some a.toNat } } else s)) ∧
    exec .rstdaa s = .next (if on = true then { s with i3c := { c with address := none } } else s) ∧
    (on = true → c.address ≠ none →
      (∀ page : Byte, exec (.i3cPageSelect page) s = .next { s with i3c := { c with page := page.toNat } }) ∧
      exec .getpid s = .next (tells (toBE 6 Config.i3cPid.toNat)) ∧ exec .getbcr s = .next (tells [Config.i3cBcr]) ∧
      exec .getdcr s = .next (tells [Config.i3cDcr]) ∧ exec .getmwl s = .next (tells (toBE 2 Config.i3cMwl.toNat)) ∧
      exec .getmrl s = .next (tells (toBE 2 Config.i3cMrl.toNat)) ∧
      (Answers .getstatus s fun t => Touches [.out, .free] s t ∧ ∃ bytes, t.out = s.out ++ [.i3c bytes] ∧ bytes.length = 2) ∧
      (∀ events : Byte, exec (.enec events) s = .next (if bit events.toNat 0 = true then { s with i3c := { c with interrupts := true } } else s) ∧
        exec (.disec events) s = .next (if bit events.toNat 0 = true then { s with i3c := { c with interrupts := false } } else s)) ∧
      ∀ length, 1 ≤ length → length ≤ 64 → Answers (.i3cPageRead length) s fun t => Touches [.out, .free, .i3c] s t ∧
        t.i3c = (if c.page = 1 then { c with peakWatts := 0 } else c) ∧ ∃ bytes, t.out = s.out ++ [.i3c bytes] ∧
        (c.page = 0 → bytes = c.page0.take length) ∧ (c.page = 4 → bytes = c.page4.take length) ∧
        (c.page ≠ 0 → c.page ≠ 4 → bytes.length = length) ∧
        (c.page = 1 → 9 ≤ length → bytes.take 2 = toLE 2 s.power.inputMv ∧ (bytes.drop 6).take 2 = toLE 2 c.peakWatts ∧
          bytes.getD 8 0 = if 0 < s.power.setpointsLowered then 1 else 0) ∧
        (c.page = 3 → 15 ≤ length → bytes.getD 14 0 = if s.power.thermtripSeen = true then 1 else 0)) ∧
    (on = false ∨ c.address = none →
      (∀ i ∈ [.getpid, .getbcr, .getdcr, .getmwl, .getmrl], exec i s = .next s) ∧ (∀ page, exec (.i3cPageSelect page) s = .next s) ∧
      (∀ events, exec (.enec events) s = .next s ∧ exec (.disec events) s = .next s) ∧
      (Answers .getstatus s fun t => Touches [.free] s t) ∧ ∀ length, 1 ≤ length → length ≤ 64 → exec (.i3cPageRead length) s = .next s) ∧
    ∀ time, let u := s.at time
      (∀ half, (s.power.powerGood = false ∨ halfOut s half = true → exec (.i3cPageUpdate half time) s = .next u) ∧
        (s.power.powerGood = true → halfOut s half = false → Answers (.i3cPageUpdate half time) s fun t => Touches [.free, .i3c] u t ∧
          t.i3c = { c with page0 := t.i3c.page0, page4 := t.i3c.page4, updatedAt := time } ∧ t.i3c.page0.length = 64 ∧ t.i3c.page4.length = 64 ∧
          t.i3c.page0.take 13 = toLE 8 s.power.record.serial ++ toLE 2 s.power.record.sku ++ toLE 2 (offeredGib s) ++ toLE 1 s.power.stage ∧
          t.i3c.page4.take 7 = toLE 1 (ofBool s.power.readyPin) ++ toLE 2 (throttledBlocks s) ++ toLE 2 (fencedBlocks s) ++ toLE 2 (decksInService s) ∧
          t.i3c.page0.getD 63 0 = 0 ∧ t.i3c.page4.getD 63 0 = 0)) ∧
      (on = true ∧ c.updatedAt + 100 * ms ≤ time →
        exec (.i3cPageStale time) s = .next { u with i3c := { c with page0 := c.page0.set 63 1, page4 := c.page4.set 63 1 } }) ∧
      (on = false ∨ time < c.updatedAt + 100 * ms → exec (.i3cPageStale time) s = .next u)

/-- The device starts up by stages, stops where nothing verifies, and goes dark in or out of order (R188, R189, R190, R420, R421,
R428, R429, R432, R433, R434, R435, 14_power_boot_security.md). -/
def Obligations.StartsUpByStagesAndGoesDark : Prop :=
  ∀ (s : State) (time : Nat), let u := s.at time
    let p := s.power
    let dark := fun t : State => t.power.powerGood = false ∧ t.power.readyPin = false ∧ t.power.stage = 0 ∧ t.items = [] ∧ t.accounts = [] ∧ t.tensors = [] ∧
      t.rings = [] ∧ t.hub = {} ∧ ∀ b, (t.island b).epoch = 0 ∧ (t.island b).counters = []
    let fencesKept := fun t : State => (∀ b, (t.island b).fences = (s.island b).fences) ∧ ∀ h, (t.steward h).fences = (s.steward h).fences
    let cellsKept := fun t : State => ∀ dn, let d := s.deck dn
      let e := t.deck dn
      e.struck = d.struck ∧ e.targets = d.targets ∧ e.refs = d.refs ∧ e.flash = d.flash ∧ e.exempt = d.exempt ∧ e.degraded = d.degraded ∧
      e.withdrawn = d.withdrawn ∧ e.badRun = d.badRun ∧ e.goodRun = d.goodRun
    (p.enable = true → exec (.enableRise time) s = .next u) ∧
    (p.enable = false → p.inputInRange = true → p.thermtripN = true → Answers (.enableRise time) s fun t =>
      t.power.powerGood = true ∧ t.power.powerGoodAt = time ∧ t.power.stage = 0 ∧ t.power.enable = true ∧ t.power.rails = 6 ∧ t.power.inOrder = p.inOrder ∧
      t.cmem = s.cmem ∧ t.flash = s.flash ∧ t.items = [] ∧ t.accounts = [] ∧ t.hub = {} ∧ cellsKept t ∧ fencesKept t ∧
      ∀ b, (t.island b).epoch = 0 ∧ (t.island b).counters = []) ∧
    (p.enable = false → p.inputInRange = false ∨ p.thermtripN = false →
      exec (.enableRise time) s = .next { u with power := { p with enable := true } }) ∧
    (∀ (loaders slots record : Both Verdict) (keys : Both Bool), let i := Instr.bootVerify loaders slots record keys time
      let good := fun h => loaderOk s h loaders
      let slot := chooseSlot { u with power := { p with record := (chooseRecord s.flash record).getD {} } } slots
      (p.powerGood = false ∨ p.stage ≠ 0 → exec i s = .next u) ∧
      (p.powerGood = true → p.stage = 0 →
        ((∀ h, good h = false) → Answers i s fun t => Touches [.power, .links] u t ∧ t.power = { p with stage := 0x81 }) ∧
        (∀ h, good h = true →
          (chooseRecord s.flash record = none → Answers i s fun t => Touches [.power, .links] u t ∧ t.power = { p with stage := 0x80 }) ∧
          (∀ r, chooseRecord s.flash record = some r → slot = none → Answers i s fun t => t.power.stage = 0x81) ∧
          (∀ r b, chooseRecord s.flash record = some r → slot = some b → Answers i s fun t => t.power.stage = 2 ∧ t.power.record = r ∧
            t.power.keyMatches = keys ∧ (t.steward h).slotB = b ∧
            (t.steward h).firmware = imgVersion (if b = true then s.flash.slotB else s.flash.slotA) ∧
            (good h.other = true → (t.steward h.other).slotB = b ∧ t.flash = s.flash ∧ t.halfFenced = s.halfFenced ∧ t.bridgeUp = s.bridgeUp) ∧
            (good h.other = false → halfOut t h.other = true ∧ (t.steward h.other).fenced = true ∧ t.bridgeUp = false ∧
              ∃ r ∈ (t.island (stewardBlock h.other)).faults, r.code = 0x4005))))) ∧
    (∀ (failures : List SelfTestFault) (fitted : List Nat) (slow : List (Fin 8)) (coldest : Int), let i := Instr.selfTest failures fitted slow coldest time
      fitted.length = 8 → (∀ f ∈ failures, validBlock f.block.toNat = true ∧ testCodeOk f.block.toNat f.code.toNat = true) →
      (p.powerGood = false ∨ p.stage ≠ 2 ∨ coldest < 0 → exec i s = .next u) ∧
      (p.powerGood = true → p.stage = 2 → 0 ≤ coldest → Answers i s fun t => t.power = { p with stage := 4 } ∧
        (t.links.get .west).trained = true ∧ (t.links.get .east).trained = true ∧
        (∀ f ∈ failures, islandFenced t f.block.toNat = true) ∧
        (∀ b ∈ s.flash.withdrawals, islandFenced t b = true ∧ islandWithdrawn t b = true) ∧
        ∀ k, k < 8 → (t.stack k).fittedGib = fitted.getD k 0 ∧ (t.stack k).rate = if ∃ f ∈ slow, f.val = k then 80 else 96)) ∧
    (∀ tj : Int, (p.powerGood = false ∨ p.stage ≠ 4 → exec (.startupAssay tj time) s = .next u) ∧
      (p.powerGood = true → p.stage = 4 → Answers (.startupAssay tj time) s fun t => Touches [.free, .power, .decks, .islands] u t ∧
        t.power = { p with stage := 5 } ∧ ∀ dn, dn < 21504 → let d := s.deck dn
          let e := t.deck dn
          let record := d.flash.filter fun b => decide (b.check = crc32 (b.bytes d.exempt))
          let aw7 := decide (record.map Binding.fmt = some .aw7)
          let woken : Deck := { d with binding := record, skip := (record.map Binding.skip).getD [] }
          let drift : Nat × Nat := match record with
            | some b => partDrift woken e.struck b.fmt b.part
            | none => (0, 1)
          e.binding = record ∧ e.skip = woken.skip ∧ e.dirty = record.isNone ∧ e.flash = d.flash ∧ e.targets = d.targets ∧
          e.struck = assayLevels (s.free + dn) (if aw7 = true then 765 else 768) ∧ e.refs = referencesOf (record.map Binding.fmt) ∧
          e.degraded = decide (drift.2 < drift.1) ∧ e.assayed = true ∧ e.assayAt = time ∧ e.assayTj = tj ∧ e.gain = 0 ∧ e.due = none ∧
          ∀ row, row < 1024 → let w := lookup {} (lookup [] (newerWear s.flash) dn) row
            let pulses := w.pulses + (if p.inOrder = true then 0 else 3072) + 12 * d.exempt
            lookup {} e.wear row = { w with
              pulses := pulses
              settlements := min 16383 (w.settlements + (if p.inOrder = true then 0 else 256) + d.exempt)
              debased := w.debased || decide (10 ^ 8 ≤ pulses) })) ∧
    (let raises := p.powerGood && decide (p.stage = 6) && charterHeld s
     (raises = true → Answers (.ready time) s fun t => Touches [.out, .power] u t ∧ t.power = { p with stage := 7, inOrder := false, readyPin := true } ∧
       t.out = s.out ++ (if p.readyPin = false ∧ s.i3c.interrupts = true then [.i3cInterrupt 3] else [])) ∧
     (raises = false → exec (.ready time) s = .next u)) ∧
    (let falls := p.enable && p.powerGood && decide (p.stage ≠ 7)
     (falls = true → Answers (.enableFallDuringStartup time) s fun t => dark t ∧ t.power.inOrder = true ∧ t.power.enable = false ∧ t.flash = s.flash ∧
       cellsKept t ∧ fencesKept t) ∧
     (falls = false → exec (.enableFallDuringStartup time) s = .next
       (if p.enable = true ∧ p.powerGood = false ∧ p.stage ≠ 7 then { u with power := { p with enable := false } } else u))) ∧
    (let falls := p.enable && p.powerGood && decide (p.stage = 7)
     (falls = true → Answers (.shutdown time) s fun t => dark t ∧ t.power.inOrder = true ∧ t.power.enable = false ∧
       (s.items = [] → t.cmem = s.cmem ∧ (t.flash.newer1 = !s.flash.newer1) ∧ newerWear t.flash = (wearImage s).rows ∧ fencesKept t ∧
         ∀ dn, let d := s.deck dn
           (t.deck dn).struck = d.struck ∧ (t.deck dn).exempt = 0 ∧
           (t.deck dn).flash = (if d.bindingDirty.isSome = true then d.binding else d.flash).map fun b => b.sealed 0)) ∧
     (falls = false → exec (.shutdown time) s = .next u)) ∧
    (∀ mv since, let i := Instr.inputOutOfRange mv since time
      let rides := tolerated mv (time - since)
      mv < 38000 ∨ 50000 < mv → Answers i s fun t => t.power.inputInRange = false ∧ t.flash = s.flash ∧
        (rides = true → Touches [.out, .power] u t ∧ t.power = { p with inputInRange := false, inputMv := mv }) ∧
        (rides = false → t.power.powerGood = false ∧ t.power.thermtripN = true ∧ t.i3c = {} ∧ cellsKept t ∧ fencesKept t ∧
          (p.powerGood = true → dark t ∧ t.power.inOrder = false))) ∧
    (∀ mv, 38000 ≤ mv → mv ≤ 50000 → exec (.inputInRange mv time) s = .next { u with power := { p with
      inputInRange := true, inputMv := mv, rails := max 1 p.rails, thermtripSeen := p.thermtripSeen && (p.powerGood || p.inputInRange) } }) ∧
    ∀ (block : Word16) (celsius8 : Int), validBlock block.toNat = true →
      (p.powerGood = true → 8 * 115 ≤ celsius8 → Answers (.thermtrip block celsius8 time) s fun t => dark t ∧ t.power.inOrder = false ∧
        t.power.thermtripN = false ∧ t.power.thermtripSeen = true ∧ t.flash = s.flash ∧ cellsKept t ∧ fencesKept t) ∧
      (p.powerGood = false ∨ celsius8 < 8 * 115 → exec (.thermtrip block celsius8 time) s = .next u)

/-- A block runs at the slower of its droop and temperature clocks, and counts each step (R426). -/
def Obligations.ClocksFollowDroopAndTemperature : Prop :=
  (∀ (s : State) (b n : Nat), s.power.powerGood = true → let i := s.island b
    islandCount { s with now := n } b =
      i.countBase + (n - max i.countAt s.power.powerGoodAt) * nominalMHz b * (16 - max i.droopSteps i.tempSteps) / 16000) ∧
  (∀ (s : State) (block : Word16) (time : Nat), let b := block.toNat
    let u := s.at time
    let i := s.island b
    let becomes := fun (c : Instr) (slot k : Nat) (j : Island) => Answers c s fun t => Touches [.islands] u t ∧ Beside State.island b s t ∧
      t.island b = { j with countBase := islandCount u b, countAt := u.now, counters := (t.island b).counters } ∧ islandCount t b = islandCount u b ∧
      lookup {} (t.island b).counters slot = bumpCounter (lookup {} i.counters slot) k ∧
      ∀ l, l ≠ slot → lookup {} (t.island b).counters l = lookup {} i.counters l
    let reads := fun (c : Instr) (celsius8 : Int) => Answers c s fun t => Touches [.islands] u t ∧ Beside State.island b s t ∧
      t.island b = { i with celsius8 := celsius8 }
    validBlock b = true →
    (s.power.powerGood = false → ∀ permille celsius8, exec (.droopStep block permille time) s = .next u ∧ exec (.droopRecover block permille time) s = .next u ∧
      exec (.temperatureStep block celsius8 time) s = .next u ∧ exec (.temperatureRecover block celsius8 time) s = .next u) ∧
    (s.power.powerGood = true →
      (∀ permille, let n := if permille < 970 then min 8 (1 + (970 - permille) / 10) else 0
        (i.droopSteps < n → becomes (.droopStep block permille time) 12 (n - i.droopSteps) { i with droopSteps := n, droopAt := time }) ∧
        (n ≤ i.droopSteps → exec (.droopStep block permille time) s = .next u) ∧
        (0 < i.droopSteps → 980 ≤ permille → i.droopAt + 1000 ≤ time → Answers (.droopRecover block permille time) s fun t =>
          Touches [.islands] u t ∧ Beside State.island b s t ∧ islandCount t b = islandCount u b ∧
          t.island b = { i with droopSteps := i.droopSteps - 1, droopAt := time, countBase := islandCount u b, countAt := u.now }) ∧
        (i.droopSteps = 0 ∨ permille < 980 ∨ time < i.droopAt + 1000 → exec (.droopRecover block permille time) s = .next u)) ∧
      ∀ celsius8 : Int,
        (8 * 100 ≤ celsius8 → i.tempSteps < 12 → i.tempSteps = 0 ∨ i.tempAt + 10000 ≤ time →
          becomes (.temperatureStep block celsius8 time) 13 1 { i with celsius8 := celsius8, tempSteps := i.tempSteps + 1, tempAt := time }) ∧
        (celsius8 < 8 * 100 ∨ 12 ≤ i.tempSteps ∨ (0 < i.tempSteps ∧ time < i.tempAt + 10000) → reads (.temperatureStep block celsius8 time) celsius8) ∧
        (celsius8 < 8 * 97 → 0 < i.tempSteps → i.tempAt + 100000 ≤ time → Answers (.temperatureRecover block celsius8 time) s fun t =>
          Touches [.islands] u t ∧ Beside State.island b s t ∧ islandCount t b = islandCount u b ∧
          t.island b = { i with celsius8 := celsius8, tempSteps := i.tempSteps - 1, tempAt := time, countBase := islandCount u b, countAt := u.now }) ∧
        (8 * 97 ≤ celsius8 ∨ i.tempSteps = 0 ∨ time < i.tempAt + 100000 → reads (.temperatureRecover block celsius8 time) celsius8))) ∧
  ∀ (s : State) (watts : Nat), let p := s.power
    exec (.powerLimit watts) s = .next (if p.powerGood = false then s else { s with
      i3c := { s.i3c with peakWatts := max s.i3c.peakWatts watts }
      power := { p with setpointsLowered := if 3400 < watts then min 10 (p.setpointsLowered + 1)
        else if watts ≤ 3300 then p.setpointsLowered - 1 else p.setpointsLowered } })
end

