-- ==== Sys2Proof/Laws/Table.lean ====
section
/-! SUPPORT. Laws of sparse tables and byte memories: what is read after a write, and that every operation keeps the canonical
form. -/

namespace Sys2Proof.Machine

variable {α : Type}

/-! ### Reading -/

theorem find_del_same (t : Table α) (i : Nat) : find (del t i) i = none := by
  induction t with
  | nil => rfl
  | cons p rest ih =>
    obtain ⟨k, v⟩ := p
    by_cases h : k = i <;> simp [del, find, h, ih]

theorem find_del_other (t : Table α) {i j : Nat} (h : j ≠ i) : find (del t i) j = find t j := by
  induction t with
  | nil => rfl
  | cons p rest ih =>
    obtain ⟨k, v⟩ := p
    by_cases hk : k = i
    · subst hk; simp [del, find, ih, Ne.symm h]
    · by_cases hj : k = j
      · subst hj; simp [del, find, hk]
      · simp [del, find, hk, hj, ih]

theorem find_place_same (t : Table α) (i : Nat) (a : α) (h : find t i = none) : find (place t i a) i = some a := by
  induction t with
  | nil => simp [place, find]
  | cons p rest ih =>
    obtain ⟨k, v⟩ := p
    by_cases hk : k = i
    · simp [find, hk] at h
    · have h' : find rest i = none := by simpa [find, hk] using h
      by_cases hl : i < k <;> simp [place, find, hl, hk, ih h']

theorem find_place_other (t : Table α) {i j : Nat} (a : α) (h : j ≠ i) : find (place t i a) j = find t j := by
  induction t with
  | nil => simp [place, find, Ne.symm h]
  | cons p rest ih =>
    obtain ⟨k, v⟩ := p
    by_cases hl : i < k
    · simp [place, find, hl, Ne.symm h]
    · by_cases hj : k = j
      · subst hj; simp [place, find, hl]
      · simp [place, find, hl, hj, ih]

@[simp] theorem find_ins_same (t : Table α) (i : Nat) (a : α) : find (ins t i a) i = some a :=
  find_place_same _ _ _ (find_del_same t i)

theorem find_ins_other (t : Table α) {i j : Nat} (a : α) (h : j ≠ i) : find (ins t i a) j = find t j := by
  rw [ins, find_place_other _ _ h, find_del_other _ h]

theorem find_ins (t : Table α) (i j : Nat) (a : α) : find (ins t i a) j = if j = i then some a else find t j := by
  by_cases h : j = i
  · simp [h]
  · simp [h, find_ins_other]

@[simp] theorem lookup_ins_same (d : α) (t : Table α) (i : Nat) (a : α) : lookup d (ins t i a) i = a := by simp [lookup]

theorem lookup_ins_other (d : α) (t : Table α) {i j : Nat} (a : α) (h : j ≠ i) : lookup d (ins t i a) j = lookup d t j := by
  simp [lookup, find_ins_other _ _ h]

@[simp] theorem lookup_put_same [DecidableEq α] (d : α) (t : Table α) (i : Nat) (a : α) : lookup d (put d t i a) i = a := by
  by_cases h : a = d
  · simp [put, h, lookup, find_del_same]
  · simp [put, h]

theorem lookup_put_other [DecidableEq α] (d : α) (t : Table α) {i j : Nat} (a : α) (h : j ≠ i) :
    lookup d (put d t i a) j = lookup d t j := by
  by_cases ha : a = d
  · simp [put, ha, lookup, find_del_other _ h]
  · simp [put, ha, lookup_ins_other d t a h]

theorem lookup_put [DecidableEq α] (d : α) (t : Table α) (i j : Nat) (a : α) :
    lookup d (put d t i a) j = if j = i then a else lookup d t j := by
  by_cases h : j = i
  · simp [h]
  · simp [h, lookup_put_other]

theorem find_adjust_same (t : Table α) (i : Nat) (f : α → α) : find (adjust t i f) i = (find t i).map f := by
  unfold adjust
  cases h : find t i <;> simp [h]

theorem find_adjust_other (t : Table α) {i j : Nat} (f : α → α) (h : j ≠ i) : find (adjust t i f) j = find t j := by
  unfold adjust
  cases find t i <;> simp [find_ins_other _ _ h]

/-! ### Members of a changed table -/

theorem mem_del {t : Table α} {i : Nat} {p : Nat × α} (h : p ∈ del t i) : p ∈ t := by
  induction t with
  | nil => simp [del] at h
  | cons q rest ih =>
    obtain ⟨k, v⟩ := q
    by_cases hk : k = i
    · simp only [del, hk, if_true] at h; exact List.mem_cons_of_mem _ (ih h)
    · simp only [del, hk, if_false, List.mem_cons] at h
      rcases h with h | h
      · exact h ▸ List.mem_cons_self
      · exact List.mem_cons_of_mem _ (ih h)

theorem mem_place {t : Table α} {i : Nat} {a : α} {p : Nat × α} (h : p ∈ place t i a) : p = (i, a) ∨ p ∈ t := by
  induction t with
  | nil => simpa [place] using h
  | cons q rest ih =>
    obtain ⟨k, v⟩ := q
    by_cases hl : i < k
    · simpa [place, hl] using h
    · simp only [place, hl, if_false, List.mem_cons] at h
      rcases h with h | h
      · exact .inr (h ▸ List.mem_cons_self)
      · exact (ih h).imp_right (List.mem_cons_of_mem _)

theorem mem_ins {t : Table α} {i : Nat} {a : α} {p : Nat × α} (h : p ∈ ins t i a) : p = (i, a) ∨ p ∈ t :=
  (mem_place h).imp_right mem_del

theorem mem_put [DecidableEq α] {d : α} {t : Table α} {i : Nat} {a : α} {p : Nat × α} (h : p ∈ put d t i a) :
    p = (i, a) ∨ p ∈ t := by
  unfold put at h
  split at h
  · exact .inr (mem_del h)
  · exact mem_ins h

/-- What `find` answers stands in the table. -/
theorem mem_of_find {t : Table α} {i : Nat} {a : α} (h : find t i = some a) : (i, a) ∈ t := by
  induction t with
  | nil => simp [find] at h
  | cons q rest ih =>
    obtain ⟨k, v⟩ := q
    by_cases hk : k = i
    · simp only [find, hk, if_true, Option.some.injEq] at h; simp [hk, h]
    · simp only [find, hk, if_false] at h; exact List.mem_cons_of_mem _ (ih h)

/-! ### The canonical form -/

/-- Every key is above a bound. -/
def above (b : Nat) (t : Table α) : Prop := ∀ p ∈ t, b < p.1

theorem rising_cons {k : Nat} {v : α} {t : Table α} (h : rising t = true) (ha : above k t) : rising ((k, v) :: t) = true := by
  cases t with
  | nil => rfl
  | cons q rest => obtain ⟨j, w⟩ := q; simp only [rising, Bool.and_eq_true, decide_eq_true_eq]; exact ⟨ha (j, w) List.mem_cons_self, h⟩

theorem rising_tail {p : Nat × α} {t : Table α} (h : rising (p :: t) = true) : rising t = true := by
  cases t with
  | nil => rfl
  | cons q rest => simp only [rising, Bool.and_eq_true] at h; exact h.2

theorem above_tail {k : Nat} {v : α} {t : Table α} (h : rising ((k, v) :: t) = true) : above k t := by
  induction t generalizing k v with
  | nil => intro p hp; cases hp
  | cons q rest ih =>
    obtain ⟨j, w⟩ := q
    simp only [rising, Bool.and_eq_true, decide_eq_true_eq] at h
    intro p hp
    rcases List.mem_cons.mp hp with hp | hp
    · exact hp ▸ h.1
    · exact Nat.lt_trans h.1 (ih h.2 p hp)

theorem rising_del {t : Table α} (h : rising t = true) (i : Nat) : rising (del t i) = true := by
  induction t with
  | nil => rfl
  | cons q rest ih =>
    obtain ⟨k, v⟩ := q
    have hr := ih (rising_tail h)
    by_cases hk : k = i
    · simpa [del, hk] using hr
    · simp only [del, hk, if_false]
      exact rising_cons hr fun p hp => above_tail h p (mem_del hp)

theorem rising_place {t : Table α} (h : rising t = true) (i : Nat) (a : α) (hn : find t i = none) : rising (place t i a) = true := by
  induction t with
  | nil => rfl
  | cons q rest ih =>
    obtain ⟨k, v⟩ := q
    have hk : k ≠ i := by intro e; simp [find, e] at hn
    have hn' : find rest i = none := by simpa [find, hk] using hn
    by_cases hl : i < k
    · simp only [place, hl, if_true]
      refine rising_cons h fun p hp => ?_
      rcases List.mem_cons.mp hp with hp | hp
      · exact hp ▸ hl
      · exact Nat.lt_trans hl (above_tail h p hp)
    · simp only [place, hl, if_false]
      refine rising_cons (ih (rising_tail h) hn') fun p hp => ?_
      rcases mem_place hp with hp | hp
      · exact hp ▸ (by show k < i; omega)
      · exact above_tail h p hp

theorem rising_ins {t : Table α} (h : rising t = true) (i : Nat) (a : α) : rising (ins t i a) = true :=
  rising_place (rising_del h i) i a (find_del_same t i)

theorem rising_filter {t : Table α} (h : rising t = true) (f : Nat × α → Bool) : rising (t.filter f) = true := by
  induction t with
  | nil => rfl
  | cons q rest ih =>
    obtain ⟨k, v⟩ := q
    have hr := ih (rising_tail h)
    by_cases hf : f (k, v) = true
    · rw [List.filter_cons_of_pos hf]
      exact rising_cons hr fun p hp => above_tail h p ((List.mem_filter.mp hp).1)
    · rw [List.filter_cons_of_neg hf]; exact hr

theorem canonical_iff [DecidableEq α] {d : α} {t : Table α} : Canonical d t = true ↔ rising t = true ∧ ∀ p ∈ t, p.2 ≠ d := by
  simp [Canonical]

theorem canonical_put [DecidableEq α] {d : α} {t : Table α} (h : Canonical d t = true) (i : Nat) (a : α) :
    Canonical d (put d t i a) = true := by
  rw [canonical_iff] at h ⊢
  by_cases ha : a = d
  · simp only [put, ha, if_true]
    exact ⟨rising_del h.1 i, fun p hp => h.2 p (mem_del hp)⟩
  · simp only [put, ha, if_false]
    refine ⟨rising_ins h.1 i a, fun p hp => ?_⟩
    rcases mem_ins hp with e | hp
    · exact e ▸ ha
    · exact h.2 p hp

theorem canonical_filter [DecidableEq α] {d : α} {t : Table α} (h : Canonical d t = true) (f : Nat × α → Bool) :
    Canonical d (t.filter f) = true := by
  rw [canonical_iff] at h ⊢
  exact ⟨rising_filter h.1 f, fun p hp => h.2 p ((List.mem_filter.mp hp).1)⟩

/-! ### Byte memories -/

@[simp] theorem wf_nil : Memory.wf [] = true := rfl

theorem wf_writeByte {m : Memory} (h : m.wf = true) (a : Nat) (b : Byte) : (writeByte m a b).wf = true := canonical_put h a b

theorem wf_writeBytes {m : Memory} (h : m.wf = true) (a : Nat) (l : List Byte) : (writeBytes m a l).wf = true := by
  induction l generalizing m a with
  | nil => exact h
  | cons b rest ih => exact ih (wf_writeByte h a b) _

theorem wf_writeLE {m : Memory} (h : m.wf = true) (a n v : Nat) : (writeLE m a n v).wf = true := wf_writeBytes h _ _

theorem wf_filter {m : Memory} (h : m.wf = true) (f : Host.Cell → Bool) : Memory.wf (m.filter f) = true := canonical_filter h f

theorem wf_applyStores {m : Memory} (h : m.wf = true) (cw : List CWrite) : (applyStores m cw).wf = true := by
  unfold applyStores
  induction cw generalizing m with
  | nil => exact h
  | cons w rest ih => exact ih (wf_writeLE h _ _ _)

@[simp] theorem readByte_writeByte_same (m : Memory) (a : Nat) (b : Byte) : readByte (writeByte m a b) a = b := by
  simp [readByte, writeByte]

theorem readByte_writeByte_other (m : Memory) {a c : Nat} (b : Byte) (h : c ≠ a) : readByte (writeByte m a b) c = readByte m c := by
  simp [readByte, writeByte, lookup_put_other _ _ _ h]

/-- A byte outside the stored bytes reads as before. -/
theorem readByte_writeBytes_outside (m : Memory) (a : Nat) (l : List Byte) {c : Nat} (h : c < a ∨ a + l.length ≤ c) :
    readByte (writeBytes m a l) c = readByte m c := by
  induction l generalizing m a with
  | nil => rfl
  | cons b rest ih =>
    simp only [List.length_cons] at h
    rw [writeBytes, ih _ _ (by omega), readByte_writeByte_other _ _ (by omega)]

/-- A stored byte reads as it was stored. -/
theorem readByte_writeBytes_inside (m : Memory) (a : Nat) (l : List Byte) (k : Nat) (h : k < l.length) :
    readByte (writeBytes m a l) (a + k) = l[k] := by
  induction l generalizing m a k with
  | nil => simp at h
  | cons b rest ih =>
    cases k with
    | zero => rw [writeBytes, readByte_writeBytes_outside _ _ _ (by omega)]; simp
    | succ k =>
      have : a + (k + 1) = a + 1 + k := by omega
      rw [writeBytes, this, ih _ _ _ (by simpa using h)]; simp

@[simp] theorem length_toLE (n v : Nat) : (toLE n v).length = n := by
  induction n generalizing v with
  | zero => rfl
  | succ n ih => simp [toLE, ih]

@[simp] theorem length_readBytes (m : Memory) (a n : Nat) : (readBytes m a n).length = n := by
  induction n generalizing a with
  | zero => rfl
  | succ n ih => simp [readBytes, ih]

/-- Bytes stored and read at the same place are the bytes stored. -/
theorem readBytes_writeBytes (m : Memory) (a : Nat) (l : List Byte) : readBytes (writeBytes m a l) a l.length = l := by
  induction l generalizing m a with
  | nil => rfl
  | cons b rest ih =>
    simp only [List.length_cons, readBytes, writeBytes]
    rw [ih, readByte_writeBytes_outside _ _ _ (by omega)]; simp

theorem readBytes_writeBytes_other (m : Memory) (a : Nat) (l : List Byte) (c n : Nat) (h : c + n ≤ a ∨ a + l.length ≤ c) :
    readBytes (writeBytes m a l) c n = readBytes m c n := by
  induction n generalizing c with
  | zero => rfl
  | succ n ih =>
    simp only [readBytes]
    rw [readByte_writeBytes_outside _ _ _ (by omega), ih (c + 1) (by omega)]

/-! ### Whole tables changed -/

theorem find_mapValues (f : Nat → α → α) (t : Table α) (i : Nat) : find (mapValues f t) i = (find t i).map (f i) := by
  induction t with
  | nil => rfl
  | cons p rest ih =>
    simp only [mapValues, List.map_cons, find] at ih ⊢
    split
    · next h => subst h; rfl
    · exact ih

theorem lookup_mapValues (d : α) (f : Nat → α → α) (t : Table α) (i : Nat) (h : f i d = d) :
    lookup d (mapValues f t) i = f i (lookup d t i) := by
  rw [lookup, lookup, find_mapValues]
  cases find t i <;> simp [h]

/-- Leaving out the default's entries changes no reading. -/
@[simp] theorem lookup_tidy [DecidableEq α] (d : α) (t : Table α) (i : Nat) : lookup d (tidy d t) i = lookup d t i := by
  induction t with
  | nil => rfl
  | cons p rest ih =>
    obtain ⟨k, v⟩ := p
    simp only [tidy]
    by_cases hk : k = i
    · subst hk
      split
      · next h => simp [lookup, find, find_del_same, h]
      · simp [lookup, find]
    · split
      · simpa [lookup, find, hk, find_del_other _ (Ne.symm hk)] using ih
      · simpa [lookup, find, hk] using ih

theorem mem_tidy [DecidableEq α] {d : α} {t : Table α} {p : Nat × α} (h : p ∈ tidy d t) : p ∈ t := by
  induction t with
  | nil => exact h
  | cons q rest ih =>
    obtain ⟨k, v⟩ := q
    unfold tidy at h
    split at h
    · exact List.mem_cons_of_mem _ (ih (mem_del h))
    · rcases List.mem_cons.mp h with e | h
      · exact e ▸ List.mem_cons_self
      · exact List.mem_cons_of_mem _ (ih h)

theorem mem_mapValues {f : Nat → α → α} {t : Table α} {p : Nat × α} (h : p ∈ mapValues f t) : ∃ q ∈ t, p.2 = f q.1 q.2 := by
  obtain ⟨q, hq, rfl⟩ := List.mem_map.mp h
  exact ⟨q, hq, rfl⟩

end Sys2Proof.Machine
end

