-- ==== Sys2Proof/Laws/State.lean ====
section
/-! SUPPORT. Laws of the field updates of the state: what each leaves as it was, and what is read after it. -/

namespace Sys2Proof.Machine

open Sys2Proof

/-! ### Every other field stays -/

@[simp] theorem State.setRing_frame (s : State) (n : Nat) (r : Ring) :
    (s.setRing n r).pending = s.pending ∧ (s.setRing n r).out = s.out ∧ (s.setRing n r).free = s.free ∧ (s.setRing n r).now = s.now
    ∧ (s.setRing n r).cmem = s.cmem ∧ (s.setRing n r).lastWrite = s.lastWrite ∧ (s.setRing n r).power = s.power ∧ (s.setRing n r).flash = s.flash
    ∧ (s.setRing n r).hub = s.hub ∧ (s.setRing n r).stewards = s.stewards ∧ (s.setRing n r).halfFenced = s.halfFenced
    ∧ (s.setRing n r).bridgeUp = s.bridgeUp ∧ (s.setRing n r).moving = s.moving ∧ (s.setRing n r).stopped = s.stopped
    ∧ (s.setRing n r).accounts = s.accounts ∧ (s.setRing n r).tensors = s.tensors ∧ (s.setRing n r).tallies = s.tallies
    ∧ (s.setRing n r).images = s.images ∧ (s.setRing n r).items = s.items ∧ (s.setRing n r).nextItem = s.nextItem
    ∧ (s.setRing n r).heldWaits = s.heldWaits ∧ (s.setRing n r).islands = s.islands ∧ (s.setRing n r).decks = s.decks ∧ (s.setRing n r).aabs = s.aabs
    ∧ (s.setRing n r).dtbs = s.dtbs ∧ (s.setRing n r).tellers = s.tellers ∧ (s.setRing n r).banks = s.banks ∧ (s.setRing n r).hbmStacks = s.hbmStacks
    ∧ (s.setRing n r).tickets = s.tickets ∧ (s.setRing n r).offers = s.offers ∧ (s.setRing n r).peers = s.peers
    ∧ (s.setRing n r).lostPeers = s.lostPeers ∧ (s.setRing n r).ports = s.ports ∧ (s.setRing n r).pools = s.pools ∧ (s.setRing n r).grants = s.grants
    ∧ (s.setRing n r).recovering = s.recovering ∧ (s.setRing n r).recoveryQueue = s.recoveryQueue ∧ (s.setRing n r).links = s.links
    ∧ (s.setRing n r).mail = s.mail ∧ (s.setRing n r).rates = s.rates ∧ (s.setRing n r).dumps = s.dumps ∧ (s.setRing n r).dumpCount = s.dumpCount
    ∧ (s.setRing n r).dumpDue = s.dumpDue ∧ (s.setRing n r).telemetry = s.telemetry ∧ (s.setRing n r).i3c = s.i3c := by
  repeat' constructor

@[simp] theorem State.setItem_frame (s : State) (i : Nat) (x : Item) :
    (s.setItem i x).pending = s.pending ∧ (s.setItem i x).out = s.out ∧ (s.setItem i x).free = s.free ∧ (s.setItem i x).now = s.now
    ∧ (s.setItem i x).cmem = s.cmem ∧ (s.setItem i x).lastWrite = s.lastWrite ∧ (s.setItem i x).power = s.power ∧ (s.setItem i x).flash = s.flash
    ∧ (s.setItem i x).hub = s.hub ∧ (s.setItem i x).stewards = s.stewards ∧ (s.setItem i x).halfFenced = s.halfFenced
    ∧ (s.setItem i x).bridgeUp = s.bridgeUp ∧ (s.setItem i x).moving = s.moving ∧ (s.setItem i x).stopped = s.stopped
    ∧ (s.setItem i x).rings = s.rings ∧ (s.setItem i x).accounts = s.accounts ∧ (s.setItem i x).tensors = s.tensors
    ∧ (s.setItem i x).tallies = s.tallies ∧ (s.setItem i x).images = s.images ∧ (s.setItem i x).nextItem = s.nextItem
    ∧ (s.setItem i x).heldWaits = s.heldWaits ∧ (s.setItem i x).islands = s.islands ∧ (s.setItem i x).decks = s.decks ∧ (s.setItem i x).aabs = s.aabs
    ∧ (s.setItem i x).dtbs = s.dtbs ∧ (s.setItem i x).tellers = s.tellers ∧ (s.setItem i x).banks = s.banks ∧ (s.setItem i x).hbmStacks = s.hbmStacks
    ∧ (s.setItem i x).tickets = s.tickets ∧ (s.setItem i x).offers = s.offers ∧ (s.setItem i x).peers = s.peers
    ∧ (s.setItem i x).lostPeers = s.lostPeers ∧ (s.setItem i x).ports = s.ports ∧ (s.setItem i x).pools = s.pools ∧ (s.setItem i x).grants = s.grants
    ∧ (s.setItem i x).recovering = s.recovering ∧ (s.setItem i x).recoveryQueue = s.recoveryQueue ∧ (s.setItem i x).links = s.links
    ∧ (s.setItem i x).mail = s.mail ∧ (s.setItem i x).rates = s.rates ∧ (s.setItem i x).dumps = s.dumps ∧ (s.setItem i x).dumpCount = s.dumpCount
    ∧ (s.setItem i x).dumpDue = s.dumpDue ∧ (s.setItem i x).telemetry = s.telemetry ∧ (s.setItem i x).i3c = s.i3c := by
  repeat' constructor

@[simp] theorem State.dropItem_frame (s : State) (i : Nat) :
    (s.dropItem i).pending = s.pending ∧ (s.dropItem i).out = s.out ∧ (s.dropItem i).free = s.free ∧ (s.dropItem i).now = s.now
    ∧ (s.dropItem i).cmem = s.cmem ∧ (s.dropItem i).lastWrite = s.lastWrite ∧ (s.dropItem i).power = s.power ∧ (s.dropItem i).flash = s.flash
    ∧ (s.dropItem i).hub = s.hub ∧ (s.dropItem i).stewards = s.stewards ∧ (s.dropItem i).halfFenced = s.halfFenced
    ∧ (s.dropItem i).bridgeUp = s.bridgeUp ∧ (s.dropItem i).moving = s.moving ∧ (s.dropItem i).stopped = s.stopped ∧ (s.dropItem i).rings = s.rings
    ∧ (s.dropItem i).accounts = s.accounts ∧ (s.dropItem i).tensors = s.tensors ∧ (s.dropItem i).tallies = s.tallies
    ∧ (s.dropItem i).images = s.images ∧ (s.dropItem i).nextItem = s.nextItem ∧ (s.dropItem i).heldWaits = s.heldWaits
    ∧ (s.dropItem i).islands = s.islands ∧ (s.dropItem i).decks = s.decks ∧ (s.dropItem i).aabs = s.aabs ∧ (s.dropItem i).dtbs = s.dtbs
    ∧ (s.dropItem i).tellers = s.tellers ∧ (s.dropItem i).banks = s.banks ∧ (s.dropItem i).hbmStacks = s.hbmStacks
    ∧ (s.dropItem i).tickets = s.tickets ∧ (s.dropItem i).offers = s.offers ∧ (s.dropItem i).peers = s.peers ∧ (s.dropItem i).lostPeers = s.lostPeers
    ∧ (s.dropItem i).ports = s.ports ∧ (s.dropItem i).pools = s.pools ∧ (s.dropItem i).grants = s.grants ∧ (s.dropItem i).recovering = s.recovering
    ∧ (s.dropItem i).recoveryQueue = s.recoveryQueue ∧ (s.dropItem i).links = s.links ∧ (s.dropItem i).mail = s.mail ∧ (s.dropItem i).rates = s.rates
    ∧ (s.dropItem i).dumps = s.dumps ∧ (s.dropItem i).dumpCount = s.dumpCount ∧ (s.dropItem i).dumpDue = s.dumpDue
    ∧ (s.dropItem i).telemetry = s.telemetry ∧ (s.dropItem i).i3c = s.i3c := by
  repeat' constructor

@[simp] theorem State.setAccount_frame (s : State) (a : Nat) (x : Account) :
    (s.setAccount a x).pending = s.pending ∧ (s.setAccount a x).out = s.out ∧ (s.setAccount a x).free = s.free ∧ (s.setAccount a x).now = s.now
    ∧ (s.setAccount a x).cmem = s.cmem ∧ (s.setAccount a x).lastWrite = s.lastWrite ∧ (s.setAccount a x).power = s.power
    ∧ (s.setAccount a x).flash = s.flash ∧ (s.setAccount a x).hub = s.hub ∧ (s.setAccount a x).stewards = s.stewards
    ∧ (s.setAccount a x).halfFenced = s.halfFenced ∧ (s.setAccount a x).bridgeUp = s.bridgeUp ∧ (s.setAccount a x).moving = s.moving
    ∧ (s.setAccount a x).stopped = s.stopped ∧ (s.setAccount a x).rings = s.rings ∧ (s.setAccount a x).tensors = s.tensors
    ∧ (s.setAccount a x).tallies = s.tallies ∧ (s.setAccount a x).images = s.images ∧ (s.setAccount a x).items = s.items
    ∧ (s.setAccount a x).nextItem = s.nextItem ∧ (s.setAccount a x).heldWaits = s.heldWaits ∧ (s.setAccount a x).islands = s.islands
    ∧ (s.setAccount a x).decks = s.decks ∧ (s.setAccount a x).aabs = s.aabs ∧ (s.setAccount a x).dtbs = s.dtbs
    ∧ (s.setAccount a x).tellers = s.tellers ∧ (s.setAccount a x).banks = s.banks ∧ (s.setAccount a x).hbmStacks = s.hbmStacks
    ∧ (s.setAccount a x).tickets = s.tickets ∧ (s.setAccount a x).offers = s.offers ∧ (s.setAccount a x).peers = s.peers
    ∧ (s.setAccount a x).lostPeers = s.lostPeers ∧ (s.setAccount a x).ports = s.ports ∧ (s.setAccount a x).pools = s.pools
    ∧ (s.setAccount a x).grants = s.grants ∧ (s.setAccount a x).recovering = s.recovering ∧ (s.setAccount a x).recoveryQueue = s.recoveryQueue
    ∧ (s.setAccount a x).links = s.links ∧ (s.setAccount a x).mail = s.mail ∧ (s.setAccount a x).rates = s.rates ∧ (s.setAccount a x).dumps = s.dumps
    ∧ (s.setAccount a x).dumpCount = s.dumpCount ∧ (s.setAccount a x).dumpDue = s.dumpDue ∧ (s.setAccount a x).telemetry = s.telemetry
    ∧ (s.setAccount a x).i3c = s.i3c := by
  repeat' constructor

@[simp] theorem State.setTensor_frame (s : State) (h : Nat) (x : Tensor) :
    (s.setTensor h x).pending = s.pending ∧ (s.setTensor h x).out = s.out ∧ (s.setTensor h x).free = s.free ∧ (s.setTensor h x).now = s.now
    ∧ (s.setTensor h x).cmem = s.cmem ∧ (s.setTensor h x).lastWrite = s.lastWrite ∧ (s.setTensor h x).power = s.power
    ∧ (s.setTensor h x).flash = s.flash ∧ (s.setTensor h x).hub = s.hub ∧ (s.setTensor h x).stewards = s.stewards
    ∧ (s.setTensor h x).halfFenced = s.halfFenced ∧ (s.setTensor h x).bridgeUp = s.bridgeUp ∧ (s.setTensor h x).moving = s.moving
    ∧ (s.setTensor h x).stopped = s.stopped ∧ (s.setTensor h x).rings = s.rings ∧ (s.setTensor h x).accounts = s.accounts
    ∧ (s.setTensor h x).tallies = s.tallies ∧ (s.setTensor h x).images = s.images ∧ (s.setTensor h x).items = s.items
    ∧ (s.setTensor h x).nextItem = s.nextItem ∧ (s.setTensor h x).heldWaits = s.heldWaits ∧ (s.setTensor h x).islands = s.islands
    ∧ (s.setTensor h x).decks = s.decks ∧ (s.setTensor h x).aabs = s.aabs ∧ (s.setTensor h x).dtbs = s.dtbs ∧ (s.setTensor h x).tellers = s.tellers
    ∧ (s.setTensor h x).banks = s.banks ∧ (s.setTensor h x).hbmStacks = s.hbmStacks ∧ (s.setTensor h x).tickets = s.tickets
    ∧ (s.setTensor h x).offers = s.offers ∧ (s.setTensor h x).peers = s.peers ∧ (s.setTensor h x).lostPeers = s.lostPeers
    ∧ (s.setTensor h x).ports = s.ports ∧ (s.setTensor h x).pools = s.pools ∧ (s.setTensor h x).grants = s.grants
    ∧ (s.setTensor h x).recovering = s.recovering ∧ (s.setTensor h x).recoveryQueue = s.recoveryQueue ∧ (s.setTensor h x).links = s.links
    ∧ (s.setTensor h x).mail = s.mail ∧ (s.setTensor h x).rates = s.rates ∧ (s.setTensor h x).dumps = s.dumps
    ∧ (s.setTensor h x).dumpCount = s.dumpCount ∧ (s.setTensor h x).dumpDue = s.dumpDue ∧ (s.setTensor h x).telemetry = s.telemetry
    ∧ (s.setTensor h x).i3c = s.i3c := by
  repeat' constructor

@[simp] theorem State.setTally_frame (s : State) (h : Nat) (x : Tally) :
    (s.setTally h x).pending = s.pending ∧ (s.setTally h x).out = s.out ∧ (s.setTally h x).free = s.free ∧ (s.setTally h x).now = s.now
    ∧ (s.setTally h x).cmem = s.cmem ∧ (s.setTally h x).lastWrite = s.lastWrite ∧ (s.setTally h x).power = s.power ∧ (s.setTally h x).flash = s.flash
    ∧ (s.setTally h x).hub = s.hub ∧ (s.setTally h x).stewards = s.stewards ∧ (s.setTally h x).halfFenced = s.halfFenced
    ∧ (s.setTally h x).bridgeUp = s.bridgeUp ∧ (s.setTally h x).moving = s.moving ∧ (s.setTally h x).stopped = s.stopped
    ∧ (s.setTally h x).rings = s.rings ∧ (s.setTally h x).accounts = s.accounts ∧ (s.setTally h x).tensors = s.tensors
    ∧ (s.setTally h x).images = s.images ∧ (s.setTally h x).items = s.items ∧ (s.setTally h x).nextItem = s.nextItem
    ∧ (s.setTally h x).heldWaits = s.heldWaits ∧ (s.setTally h x).islands = s.islands ∧ (s.setTally h x).decks = s.decks
    ∧ (s.setTally h x).aabs = s.aabs ∧ (s.setTally h x).dtbs = s.dtbs ∧ (s.setTally h x).tellers = s.tellers ∧ (s.setTally h x).banks = s.banks
    ∧ (s.setTally h x).hbmStacks = s.hbmStacks ∧ (s.setTally h x).tickets = s.tickets ∧ (s.setTally h x).offers = s.offers
    ∧ (s.setTally h x).peers = s.peers ∧ (s.setTally h x).lostPeers = s.lostPeers ∧ (s.setTally h x).ports = s.ports
    ∧ (s.setTally h x).pools = s.pools ∧ (s.setTally h x).grants = s.grants ∧ (s.setTally h x).recovering = s.recovering
    ∧ (s.setTally h x).recoveryQueue = s.recoveryQueue ∧ (s.setTally h x).links = s.links ∧ (s.setTally h x).mail = s.mail
    ∧ (s.setTally h x).rates = s.rates ∧ (s.setTally h x).dumps = s.dumps ∧ (s.setTally h x).dumpCount = s.dumpCount
    ∧ (s.setTally h x).dumpDue = s.dumpDue ∧ (s.setTally h x).telemetry = s.telemetry ∧ (s.setTally h x).i3c = s.i3c := by
  repeat' constructor

@[simp] theorem State.setImage_frame (s : State) (h : Nat) (x : Image) :
    (s.setImage h x).pending = s.pending ∧ (s.setImage h x).out = s.out ∧ (s.setImage h x).free = s.free ∧ (s.setImage h x).now = s.now
    ∧ (s.setImage h x).cmem = s.cmem ∧ (s.setImage h x).lastWrite = s.lastWrite ∧ (s.setImage h x).power = s.power ∧ (s.setImage h x).flash = s.flash
    ∧ (s.setImage h x).hub = s.hub ∧ (s.setImage h x).stewards = s.stewards ∧ (s.setImage h x).halfFenced = s.halfFenced
    ∧ (s.setImage h x).bridgeUp = s.bridgeUp ∧ (s.setImage h x).moving = s.moving ∧ (s.setImage h x).stopped = s.stopped
    ∧ (s.setImage h x).rings = s.rings ∧ (s.setImage h x).accounts = s.accounts ∧ (s.setImage h x).tensors = s.tensors
    ∧ (s.setImage h x).tallies = s.tallies ∧ (s.setImage h x).items = s.items ∧ (s.setImage h x).nextItem = s.nextItem
    ∧ (s.setImage h x).heldWaits = s.heldWaits ∧ (s.setImage h x).islands = s.islands ∧ (s.setImage h x).decks = s.decks
    ∧ (s.setImage h x).aabs = s.aabs ∧ (s.setImage h x).dtbs = s.dtbs ∧ (s.setImage h x).tellers = s.tellers ∧ (s.setImage h x).banks = s.banks
    ∧ (s.setImage h x).hbmStacks = s.hbmStacks ∧ (s.setImage h x).tickets = s.tickets ∧ (s.setImage h x).offers = s.offers
    ∧ (s.setImage h x).peers = s.peers ∧ (s.setImage h x).lostPeers = s.lostPeers ∧ (s.setImage h x).ports = s.ports
    ∧ (s.setImage h x).pools = s.pools ∧ (s.setImage h x).grants = s.grants ∧ (s.setImage h x).recovering = s.recovering
    ∧ (s.setImage h x).recoveryQueue = s.recoveryQueue ∧ (s.setImage h x).links = s.links ∧ (s.setImage h x).mail = s.mail
    ∧ (s.setImage h x).rates = s.rates ∧ (s.setImage h x).dumps = s.dumps ∧ (s.setImage h x).dumpCount = s.dumpCount
    ∧ (s.setImage h x).dumpDue = s.dumpDue ∧ (s.setImage h x).telemetry = s.telemetry ∧ (s.setImage h x).i3c = s.i3c := by
  repeat' constructor

@[simp] theorem State.setIsland_frame (s : State) (b : Nat) (x : Island) :
    (s.setIsland b x).pending = s.pending ∧ (s.setIsland b x).out = s.out ∧ (s.setIsland b x).free = s.free ∧ (s.setIsland b x).now = s.now
    ∧ (s.setIsland b x).cmem = s.cmem ∧ (s.setIsland b x).lastWrite = s.lastWrite ∧ (s.setIsland b x).power = s.power
    ∧ (s.setIsland b x).flash = s.flash ∧ (s.setIsland b x).hub = s.hub ∧ (s.setIsland b x).stewards = s.stewards
    ∧ (s.setIsland b x).halfFenced = s.halfFenced ∧ (s.setIsland b x).bridgeUp = s.bridgeUp ∧ (s.setIsland b x).moving = s.moving
    ∧ (s.setIsland b x).stopped = s.stopped ∧ (s.setIsland b x).rings = s.rings ∧ (s.setIsland b x).accounts = s.accounts
    ∧ (s.setIsland b x).tensors = s.tensors ∧ (s.setIsland b x).tallies = s.tallies ∧ (s.setIsland b x).images = s.images
    ∧ (s.setIsland b x).items = s.items ∧ (s.setIsland b x).nextItem = s.nextItem ∧ (s.setIsland b x).heldWaits = s.heldWaits
    ∧ (s.setIsland b x).decks = s.decks ∧ (s.setIsland b x).aabs = s.aabs ∧ (s.setIsland b x).dtbs = s.dtbs ∧ (s.setIsland b x).tellers = s.tellers
    ∧ (s.setIsland b x).banks = s.banks ∧ (s.setIsland b x).hbmStacks = s.hbmStacks ∧ (s.setIsland b x).tickets = s.tickets
    ∧ (s.setIsland b x).offers = s.offers ∧ (s.setIsland b x).peers = s.peers ∧ (s.setIsland b x).lostPeers = s.lostPeers
    ∧ (s.setIsland b x).ports = s.ports ∧ (s.setIsland b x).pools = s.pools ∧ (s.setIsland b x).grants = s.grants
    ∧ (s.setIsland b x).recovering = s.recovering ∧ (s.setIsland b x).recoveryQueue = s.recoveryQueue ∧ (s.setIsland b x).links = s.links
    ∧ (s.setIsland b x).mail = s.mail ∧ (s.setIsland b x).rates = s.rates ∧ (s.setIsland b x).dumps = s.dumps
    ∧ (s.setIsland b x).dumpCount = s.dumpCount ∧ (s.setIsland b x).dumpDue = s.dumpDue ∧ (s.setIsland b x).telemetry = s.telemetry
    ∧ (s.setIsland b x).i3c = s.i3c := by
  repeat' constructor

@[simp] theorem State.setDeck_frame (s : State) (d : Nat) (x : Deck) :
    (s.setDeck d x).pending = s.pending ∧ (s.setDeck d x).out = s.out ∧ (s.setDeck d x).free = s.free ∧ (s.setDeck d x).now = s.now
    ∧ (s.setDeck d x).cmem = s.cmem ∧ (s.setDeck d x).lastWrite = s.lastWrite ∧ (s.setDeck d x).power = s.power ∧ (s.setDeck d x).flash = s.flash
    ∧ (s.setDeck d x).hub = s.hub ∧ (s.setDeck d x).stewards = s.stewards ∧ (s.setDeck d x).halfFenced = s.halfFenced
    ∧ (s.setDeck d x).bridgeUp = s.bridgeUp ∧ (s.setDeck d x).moving = s.moving ∧ (s.setDeck d x).stopped = s.stopped
    ∧ (s.setDeck d x).rings = s.rings ∧ (s.setDeck d x).accounts = s.accounts ∧ (s.setDeck d x).tensors = s.tensors
    ∧ (s.setDeck d x).tallies = s.tallies ∧ (s.setDeck d x).images = s.images ∧ (s.setDeck d x).items = s.items
    ∧ (s.setDeck d x).nextItem = s.nextItem ∧ (s.setDeck d x).heldWaits = s.heldWaits ∧ (s.setDeck d x).islands = s.islands
    ∧ (s.setDeck d x).aabs = s.aabs ∧ (s.setDeck d x).dtbs = s.dtbs ∧ (s.setDeck d x).tellers = s.tellers ∧ (s.setDeck d x).banks = s.banks
    ∧ (s.setDeck d x).hbmStacks = s.hbmStacks ∧ (s.setDeck d x).tickets = s.tickets ∧ (s.setDeck d x).offers = s.offers
    ∧ (s.setDeck d x).peers = s.peers ∧ (s.setDeck d x).lostPeers = s.lostPeers ∧ (s.setDeck d x).ports = s.ports ∧ (s.setDeck d x).pools = s.pools
    ∧ (s.setDeck d x).grants = s.grants ∧ (s.setDeck d x).recovering = s.recovering ∧ (s.setDeck d x).recoveryQueue = s.recoveryQueue
    ∧ (s.setDeck d x).links = s.links ∧ (s.setDeck d x).mail = s.mail ∧ (s.setDeck d x).rates = s.rates ∧ (s.setDeck d x).dumps = s.dumps
    ∧ (s.setDeck d x).dumpCount = s.dumpCount ∧ (s.setDeck d x).dumpDue = s.dumpDue ∧ (s.setDeck d x).telemetry = s.telemetry
    ∧ (s.setDeck d x).i3c = s.i3c := by
  repeat' constructor

@[simp] theorem State.setAab_frame (s : State) (a : Nat) (x : Aab) :
    (s.setAab a x).pending = s.pending ∧ (s.setAab a x).out = s.out ∧ (s.setAab a x).free = s.free ∧ (s.setAab a x).now = s.now
    ∧ (s.setAab a x).cmem = s.cmem ∧ (s.setAab a x).lastWrite = s.lastWrite ∧ (s.setAab a x).power = s.power ∧ (s.setAab a x).flash = s.flash
    ∧ (s.setAab a x).hub = s.hub ∧ (s.setAab a x).stewards = s.stewards ∧ (s.setAab a x).halfFenced = s.halfFenced
    ∧ (s.setAab a x).bridgeUp = s.bridgeUp ∧ (s.setAab a x).moving = s.moving ∧ (s.setAab a x).stopped = s.stopped ∧ (s.setAab a x).rings = s.rings
    ∧ (s.setAab a x).accounts = s.accounts ∧ (s.setAab a x).tensors = s.tensors ∧ (s.setAab a x).tallies = s.tallies
    ∧ (s.setAab a x).images = s.images ∧ (s.setAab a x).items = s.items ∧ (s.setAab a x).nextItem = s.nextItem
    ∧ (s.setAab a x).heldWaits = s.heldWaits ∧ (s.setAab a x).islands = s.islands ∧ (s.setAab a x).decks = s.decks ∧ (s.setAab a x).dtbs = s.dtbs
    ∧ (s.setAab a x).tellers = s.tellers ∧ (s.setAab a x).banks = s.banks ∧ (s.setAab a x).hbmStacks = s.hbmStacks
    ∧ (s.setAab a x).tickets = s.tickets ∧ (s.setAab a x).offers = s.offers ∧ (s.setAab a x).peers = s.peers ∧ (s.setAab a x).lostPeers = s.lostPeers
    ∧ (s.setAab a x).ports = s.ports ∧ (s.setAab a x).pools = s.pools ∧ (s.setAab a x).grants = s.grants ∧ (s.setAab a x).recovering = s.recovering
    ∧ (s.setAab a x).recoveryQueue = s.recoveryQueue ∧ (s.setAab a x).links = s.links ∧ (s.setAab a x).mail = s.mail ∧ (s.setAab a x).rates = s.rates
    ∧ (s.setAab a x).dumps = s.dumps ∧ (s.setAab a x).dumpCount = s.dumpCount ∧ (s.setAab a x).dumpDue = s.dumpDue
    ∧ (s.setAab a x).telemetry = s.telemetry ∧ (s.setAab a x).i3c = s.i3c := by
  repeat' constructor

@[simp] theorem State.setDtb_frame (s : State) (d : Nat) (x : Dtb) :
    (s.setDtb d x).pending = s.pending ∧ (s.setDtb d x).out = s.out ∧ (s.setDtb d x).free = s.free ∧ (s.setDtb d x).now = s.now
    ∧ (s.setDtb d x).cmem = s.cmem ∧ (s.setDtb d x).lastWrite = s.lastWrite ∧ (s.setDtb d x).power = s.power ∧ (s.setDtb d x).flash = s.flash
    ∧ (s.setDtb d x).hub = s.hub ∧ (s.setDtb d x).stewards = s.stewards ∧ (s.setDtb d x).halfFenced = s.halfFenced
    ∧ (s.setDtb d x).bridgeUp = s.bridgeUp ∧ (s.setDtb d x).moving = s.moving ∧ (s.setDtb d x).stopped = s.stopped ∧ (s.setDtb d x).rings = s.rings
    ∧ (s.setDtb d x).accounts = s.accounts ∧ (s.setDtb d x).tensors = s.tensors ∧ (s.setDtb d x).tallies = s.tallies
    ∧ (s.setDtb d x).images = s.images ∧ (s.setDtb d x).items = s.items ∧ (s.setDtb d x).nextItem = s.nextItem
    ∧ (s.setDtb d x).heldWaits = s.heldWaits ∧ (s.setDtb d x).islands = s.islands ∧ (s.setDtb d x).decks = s.decks ∧ (s.setDtb d x).aabs = s.aabs
    ∧ (s.setDtb d x).tellers = s.tellers ∧ (s.setDtb d x).banks = s.banks ∧ (s.setDtb d x).hbmStacks = s.hbmStacks
    ∧ (s.setDtb d x).tickets = s.tickets ∧ (s.setDtb d x).offers = s.offers ∧ (s.setDtb d x).peers = s.peers ∧ (s.setDtb d x).lostPeers = s.lostPeers
    ∧ (s.setDtb d x).ports = s.ports ∧ (s.setDtb d x).pools = s.pools ∧ (s.setDtb d x).grants = s.grants ∧ (s.setDtb d x).recovering = s.recovering
    ∧ (s.setDtb d x).recoveryQueue = s.recoveryQueue ∧ (s.setDtb d x).links = s.links ∧ (s.setDtb d x).mail = s.mail ∧ (s.setDtb d x).rates = s.rates
    ∧ (s.setDtb d x).dumps = s.dumps ∧ (s.setDtb d x).dumpCount = s.dumpCount ∧ (s.setDtb d x).dumpDue = s.dumpDue
    ∧ (s.setDtb d x).telemetry = s.telemetry ∧ (s.setDtb d x).i3c = s.i3c := by
  repeat' constructor

@[simp] theorem State.setTeller_frame (s : State) (f : Nat) (x : Teller) :
    (s.setTeller f x).pending = s.pending ∧ (s.setTeller f x).out = s.out ∧ (s.setTeller f x).free = s.free ∧ (s.setTeller f x).now = s.now
    ∧ (s.setTeller f x).cmem = s.cmem ∧ (s.setTeller f x).lastWrite = s.lastWrite ∧ (s.setTeller f x).power = s.power
    ∧ (s.setTeller f x).flash = s.flash ∧ (s.setTeller f x).hub = s.hub ∧ (s.setTeller f x).stewards = s.stewards
    ∧ (s.setTeller f x).halfFenced = s.halfFenced ∧ (s.setTeller f x).bridgeUp = s.bridgeUp ∧ (s.setTeller f x).moving = s.moving
    ∧ (s.setTeller f x).stopped = s.stopped ∧ (s.setTeller f x).rings = s.rings ∧ (s.setTeller f x).accounts = s.accounts
    ∧ (s.setTeller f x).tensors = s.tensors ∧ (s.setTeller f x).tallies = s.tallies ∧ (s.setTeller f x).images = s.images
    ∧ (s.setTeller f x).items = s.items ∧ (s.setTeller f x).nextItem = s.nextItem ∧ (s.setTeller f x).heldWaits = s.heldWaits
    ∧ (s.setTeller f x).islands = s.islands ∧ (s.setTeller f x).decks = s.decks ∧ (s.setTeller f x).aabs = s.aabs ∧ (s.setTeller f x).dtbs = s.dtbs
    ∧ (s.setTeller f x).banks = s.banks ∧ (s.setTeller f x).hbmStacks = s.hbmStacks ∧ (s.setTeller f x).tickets = s.tickets
    ∧ (s.setTeller f x).offers = s.offers ∧ (s.setTeller f x).peers = s.peers ∧ (s.setTeller f x).lostPeers = s.lostPeers
    ∧ (s.setTeller f x).ports = s.ports ∧ (s.setTeller f x).pools = s.pools ∧ (s.setTeller f x).grants = s.grants
    ∧ (s.setTeller f x).recovering = s.recovering ∧ (s.setTeller f x).recoveryQueue = s.recoveryQueue ∧ (s.setTeller f x).links = s.links
    ∧ (s.setTeller f x).mail = s.mail ∧ (s.setTeller f x).rates = s.rates ∧ (s.setTeller f x).dumps = s.dumps
    ∧ (s.setTeller f x).dumpCount = s.dumpCount ∧ (s.setTeller f x).dumpDue = s.dumpDue ∧ (s.setTeller f x).telemetry = s.telemetry
    ∧ (s.setTeller f x).i3c = s.i3c := by
  repeat' constructor

@[simp] theorem State.setBank_frame (s : State) (b : Nat) (x : Bank) :
    (s.setBank b x).pending = s.pending ∧ (s.setBank b x).out = s.out ∧ (s.setBank b x).free = s.free ∧ (s.setBank b x).now = s.now
    ∧ (s.setBank b x).cmem = s.cmem ∧ (s.setBank b x).lastWrite = s.lastWrite ∧ (s.setBank b x).power = s.power ∧ (s.setBank b x).flash = s.flash
    ∧ (s.setBank b x).hub = s.hub ∧ (s.setBank b x).stewards = s.stewards ∧ (s.setBank b x).halfFenced = s.halfFenced
    ∧ (s.setBank b x).bridgeUp = s.bridgeUp ∧ (s.setBank b x).moving = s.moving ∧ (s.setBank b x).stopped = s.stopped
    ∧ (s.setBank b x).rings = s.rings ∧ (s.setBank b x).accounts = s.accounts ∧ (s.setBank b x).tensors = s.tensors
    ∧ (s.setBank b x).tallies = s.tallies ∧ (s.setBank b x).images = s.images ∧ (s.setBank b x).items = s.items
    ∧ (s.setBank b x).nextItem = s.nextItem ∧ (s.setBank b x).heldWaits = s.heldWaits ∧ (s.setBank b x).islands = s.islands
    ∧ (s.setBank b x).decks = s.decks ∧ (s.setBank b x).aabs = s.aabs ∧ (s.setBank b x).dtbs = s.dtbs ∧ (s.setBank b x).tellers = s.tellers
    ∧ (s.setBank b x).hbmStacks = s.hbmStacks ∧ (s.setBank b x).tickets = s.tickets ∧ (s.setBank b x).offers = s.offers
    ∧ (s.setBank b x).peers = s.peers ∧ (s.setBank b x).lostPeers = s.lostPeers ∧ (s.setBank b x).ports = s.ports ∧ (s.setBank b x).pools = s.pools
    ∧ (s.setBank b x).grants = s.grants ∧ (s.setBank b x).recovering = s.recovering ∧ (s.setBank b x).recoveryQueue = s.recoveryQueue
    ∧ (s.setBank b x).links = s.links ∧ (s.setBank b x).mail = s.mail ∧ (s.setBank b x).rates = s.rates ∧ (s.setBank b x).dumps = s.dumps
    ∧ (s.setBank b x).dumpCount = s.dumpCount ∧ (s.setBank b x).dumpDue = s.dumpDue ∧ (s.setBank b x).telemetry = s.telemetry
    ∧ (s.setBank b x).i3c = s.i3c := by
  repeat' constructor

@[simp] theorem State.setStack_frame (s : State) (k : Nat) (x : Stack) :
    (s.setStack k x).pending = s.pending ∧ (s.setStack k x).out = s.out ∧ (s.setStack k x).free = s.free ∧ (s.setStack k x).now = s.now
    ∧ (s.setStack k x).cmem = s.cmem ∧ (s.setStack k x).lastWrite = s.lastWrite ∧ (s.setStack k x).power = s.power ∧ (s.setStack k x).flash = s.flash
    ∧ (s.setStack k x).hub = s.hub ∧ (s.setStack k x).stewards = s.stewards ∧ (s.setStack k x).halfFenced = s.halfFenced
    ∧ (s.setStack k x).bridgeUp = s.bridgeUp ∧ (s.setStack k x).moving = s.moving ∧ (s.setStack k x).stopped = s.stopped
    ∧ (s.setStack k x).rings = s.rings ∧ (s.setStack k x).accounts = s.accounts ∧ (s.setStack k x).tensors = s.tensors
    ∧ (s.setStack k x).tallies = s.tallies ∧ (s.setStack k x).images = s.images ∧ (s.setStack k x).items = s.items
    ∧ (s.setStack k x).nextItem = s.nextItem ∧ (s.setStack k x).heldWaits = s.heldWaits ∧ (s.setStack k x).islands = s.islands
    ∧ (s.setStack k x).decks = s.decks ∧ (s.setStack k x).aabs = s.aabs ∧ (s.setStack k x).dtbs = s.dtbs ∧ (s.setStack k x).tellers = s.tellers
    ∧ (s.setStack k x).banks = s.banks ∧ (s.setStack k x).tickets = s.tickets ∧ (s.setStack k x).offers = s.offers ∧ (s.setStack k x).peers = s.peers
    ∧ (s.setStack k x).lostPeers = s.lostPeers ∧ (s.setStack k x).ports = s.ports ∧ (s.setStack k x).pools = s.pools
    ∧ (s.setStack k x).grants = s.grants ∧ (s.setStack k x).recovering = s.recovering ∧ (s.setStack k x).recoveryQueue = s.recoveryQueue
    ∧ (s.setStack k x).links = s.links ∧ (s.setStack k x).mail = s.mail ∧ (s.setStack k x).rates = s.rates ∧ (s.setStack k x).dumps = s.dumps
    ∧ (s.setStack k x).dumpCount = s.dumpCount ∧ (s.setStack k x).dumpDue = s.dumpDue ∧ (s.setStack k x).telemetry = s.telemetry
    ∧ (s.setStack k x).i3c = s.i3c := by
  repeat' constructor

@[simp] theorem State.setTicket_frame (s : State) (i : Nat) (x : Ticket) :
    (s.setTicket i x).pending = s.pending ∧ (s.setTicket i x).out = s.out ∧ (s.setTicket i x).free = s.free ∧ (s.setTicket i x).now = s.now
    ∧ (s.setTicket i x).cmem = s.cmem ∧ (s.setTicket i x).lastWrite = s.lastWrite ∧ (s.setTicket i x).power = s.power
    ∧ (s.setTicket i x).flash = s.flash ∧ (s.setTicket i x).hub = s.hub ∧ (s.setTicket i x).stewards = s.stewards
    ∧ (s.setTicket i x).halfFenced = s.halfFenced ∧ (s.setTicket i x).bridgeUp = s.bridgeUp ∧ (s.setTicket i x).moving = s.moving
    ∧ (s.setTicket i x).stopped = s.stopped ∧ (s.setTicket i x).rings = s.rings ∧ (s.setTicket i x).accounts = s.accounts
    ∧ (s.setTicket i x).tensors = s.tensors ∧ (s.setTicket i x).tallies = s.tallies ∧ (s.setTicket i x).images = s.images
    ∧ (s.setTicket i x).items = s.items ∧ (s.setTicket i x).nextItem = s.nextItem ∧ (s.setTicket i x).heldWaits = s.heldWaits
    ∧ (s.setTicket i x).islands = s.islands ∧ (s.setTicket i x).decks = s.decks ∧ (s.setTicket i x).aabs = s.aabs ∧ (s.setTicket i x).dtbs = s.dtbs
    ∧ (s.setTicket i x).tellers = s.tellers ∧ (s.setTicket i x).banks = s.banks ∧ (s.setTicket i x).hbmStacks = s.hbmStacks
    ∧ (s.setTicket i x).offers = s.offers ∧ (s.setTicket i x).peers = s.peers ∧ (s.setTicket i x).lostPeers = s.lostPeers
    ∧ (s.setTicket i x).ports = s.ports ∧ (s.setTicket i x).pools = s.pools ∧ (s.setTicket i x).grants = s.grants
    ∧ (s.setTicket i x).recovering = s.recovering ∧ (s.setTicket i x).recoveryQueue = s.recoveryQueue ∧ (s.setTicket i x).links = s.links
    ∧ (s.setTicket i x).mail = s.mail ∧ (s.setTicket i x).rates = s.rates ∧ (s.setTicket i x).dumps = s.dumps
    ∧ (s.setTicket i x).dumpCount = s.dumpCount ∧ (s.setTicket i x).dumpDue = s.dumpDue ∧ (s.setTicket i x).telemetry = s.telemetry
    ∧ (s.setTicket i x).i3c = s.i3c := by
  repeat' constructor

@[simp] theorem State.dropTicket_frame (s : State) (i : Nat) :
    (s.dropTicket i).pending = s.pending ∧ (s.dropTicket i).out = s.out ∧ (s.dropTicket i).free = s.free ∧ (s.dropTicket i).now = s.now
    ∧ (s.dropTicket i).cmem = s.cmem ∧ (s.dropTicket i).lastWrite = s.lastWrite ∧ (s.dropTicket i).power = s.power ∧ (s.dropTicket i).flash = s.flash
    ∧ (s.dropTicket i).hub = s.hub ∧ (s.dropTicket i).stewards = s.stewards ∧ (s.dropTicket i).halfFenced = s.halfFenced
    ∧ (s.dropTicket i).bridgeUp = s.bridgeUp ∧ (s.dropTicket i).moving = s.moving ∧ (s.dropTicket i).stopped = s.stopped
    ∧ (s.dropTicket i).rings = s.rings ∧ (s.dropTicket i).accounts = s.accounts ∧ (s.dropTicket i).tensors = s.tensors
    ∧ (s.dropTicket i).tallies = s.tallies ∧ (s.dropTicket i).images = s.images ∧ (s.dropTicket i).items = s.items
    ∧ (s.dropTicket i).nextItem = s.nextItem ∧ (s.dropTicket i).heldWaits = s.heldWaits ∧ (s.dropTicket i).islands = s.islands
    ∧ (s.dropTicket i).decks = s.decks ∧ (s.dropTicket i).aabs = s.aabs ∧ (s.dropTicket i).dtbs = s.dtbs ∧ (s.dropTicket i).tellers = s.tellers
    ∧ (s.dropTicket i).banks = s.banks ∧ (s.dropTicket i).hbmStacks = s.hbmStacks ∧ (s.dropTicket i).offers = s.offers
    ∧ (s.dropTicket i).peers = s.peers ∧ (s.dropTicket i).lostPeers = s.lostPeers ∧ (s.dropTicket i).ports = s.ports
    ∧ (s.dropTicket i).pools = s.pools ∧ (s.dropTicket i).grants = s.grants ∧ (s.dropTicket i).recovering = s.recovering
    ∧ (s.dropTicket i).recoveryQueue = s.recoveryQueue ∧ (s.dropTicket i).links = s.links ∧ (s.dropTicket i).mail = s.mail
    ∧ (s.dropTicket i).rates = s.rates ∧ (s.dropTicket i).dumps = s.dumps ∧ (s.dropTicket i).dumpCount = s.dumpCount
    ∧ (s.dropTicket i).dumpDue = s.dumpDue ∧ (s.dropTicket i).telemetry = s.telemetry ∧ (s.dropTicket i).i3c = s.i3c := by
  repeat' constructor

@[simp] theorem State.setPeer_frame (s : State) (h : Half) (p : Nat) (x : PeerContext) :
    (s.setPeer h p x).pending = s.pending ∧ (s.setPeer h p x).out = s.out ∧ (s.setPeer h p x).free = s.free ∧ (s.setPeer h p x).now = s.now
    ∧ (s.setPeer h p x).cmem = s.cmem ∧ (s.setPeer h p x).lastWrite = s.lastWrite ∧ (s.setPeer h p x).power = s.power
    ∧ (s.setPeer h p x).flash = s.flash ∧ (s.setPeer h p x).hub = s.hub ∧ (s.setPeer h p x).stewards = s.stewards
    ∧ (s.setPeer h p x).halfFenced = s.halfFenced ∧ (s.setPeer h p x).bridgeUp = s.bridgeUp ∧ (s.setPeer h p x).moving = s.moving
    ∧ (s.setPeer h p x).stopped = s.stopped ∧ (s.setPeer h p x).rings = s.rings ∧ (s.setPeer h p x).accounts = s.accounts
    ∧ (s.setPeer h p x).tensors = s.tensors ∧ (s.setPeer h p x).tallies = s.tallies ∧ (s.setPeer h p x).images = s.images
    ∧ (s.setPeer h p x).items = s.items ∧ (s.setPeer h p x).nextItem = s.nextItem ∧ (s.setPeer h p x).heldWaits = s.heldWaits
    ∧ (s.setPeer h p x).islands = s.islands ∧ (s.setPeer h p x).decks = s.decks ∧ (s.setPeer h p x).aabs = s.aabs ∧ (s.setPeer h p x).dtbs = s.dtbs
    ∧ (s.setPeer h p x).tellers = s.tellers ∧ (s.setPeer h p x).banks = s.banks ∧ (s.setPeer h p x).hbmStacks = s.hbmStacks
    ∧ (s.setPeer h p x).tickets = s.tickets ∧ (s.setPeer h p x).offers = s.offers ∧ (s.setPeer h p x).lostPeers = s.lostPeers
    ∧ (s.setPeer h p x).ports = s.ports ∧ (s.setPeer h p x).pools = s.pools ∧ (s.setPeer h p x).grants = s.grants
    ∧ (s.setPeer h p x).recovering = s.recovering ∧ (s.setPeer h p x).recoveryQueue = s.recoveryQueue ∧ (s.setPeer h p x).links = s.links
    ∧ (s.setPeer h p x).mail = s.mail ∧ (s.setPeer h p x).rates = s.rates ∧ (s.setPeer h p x).dumps = s.dumps
    ∧ (s.setPeer h p x).dumpCount = s.dumpCount ∧ (s.setPeer h p x).dumpDue = s.dumpDue ∧ (s.setPeer h p x).telemetry = s.telemetry
    ∧ (s.setPeer h p x).i3c = s.i3c := by
  repeat' constructor

@[simp] theorem State.setPort_frame (s : State) (p : Nat) (x : Port) :
    (s.setPort p x).pending = s.pending ∧ (s.setPort p x).out = s.out ∧ (s.setPort p x).free = s.free ∧ (s.setPort p x).now = s.now
    ∧ (s.setPort p x).cmem = s.cmem ∧ (s.setPort p x).lastWrite = s.lastWrite ∧ (s.setPort p x).power = s.power ∧ (s.setPort p x).flash = s.flash
    ∧ (s.setPort p x).hub = s.hub ∧ (s.setPort p x).stewards = s.stewards ∧ (s.setPort p x).halfFenced = s.halfFenced
    ∧ (s.setPort p x).bridgeUp = s.bridgeUp ∧ (s.setPort p x).moving = s.moving ∧ (s.setPort p x).stopped = s.stopped
    ∧ (s.setPort p x).rings = s.rings ∧ (s.setPort p x).accounts = s.accounts ∧ (s.setPort p x).tensors = s.tensors
    ∧ (s.setPort p x).tallies = s.tallies ∧ (s.setPort p x).images = s.images ∧ (s.setPort p x).items = s.items
    ∧ (s.setPort p x).nextItem = s.nextItem ∧ (s.setPort p x).heldWaits = s.heldWaits ∧ (s.setPort p x).islands = s.islands
    ∧ (s.setPort p x).decks = s.decks ∧ (s.setPort p x).aabs = s.aabs ∧ (s.setPort p x).dtbs = s.dtbs ∧ (s.setPort p x).tellers = s.tellers
    ∧ (s.setPort p x).banks = s.banks ∧ (s.setPort p x).hbmStacks = s.hbmStacks ∧ (s.setPort p x).tickets = s.tickets
    ∧ (s.setPort p x).offers = s.offers ∧ (s.setPort p x).peers = s.peers ∧ (s.setPort p x).lostPeers = s.lostPeers ∧ (s.setPort p x).pools = s.pools
    ∧ (s.setPort p x).grants = s.grants ∧ (s.setPort p x).recovering = s.recovering ∧ (s.setPort p x).recoveryQueue = s.recoveryQueue
    ∧ (s.setPort p x).links = s.links ∧ (s.setPort p x).mail = s.mail ∧ (s.setPort p x).rates = s.rates ∧ (s.setPort p x).dumps = s.dumps
    ∧ (s.setPort p x).dumpCount = s.dumpCount ∧ (s.setPort p x).dumpDue = s.dumpDue ∧ (s.setPort p x).telemetry = s.telemetry
    ∧ (s.setPort p x).i3c = s.i3c := by
  repeat' constructor

@[simp] theorem State.setSteward_frame (s : State) (h : Half) (x : Steward) :
    (s.setSteward h x).pending = s.pending ∧ (s.setSteward h x).out = s.out ∧ (s.setSteward h x).free = s.free ∧ (s.setSteward h x).now = s.now
    ∧ (s.setSteward h x).cmem = s.cmem ∧ (s.setSteward h x).lastWrite = s.lastWrite ∧ (s.setSteward h x).power = s.power
    ∧ (s.setSteward h x).flash = s.flash ∧ (s.setSteward h x).hub = s.hub ∧ (s.setSteward h x).halfFenced = s.halfFenced
    ∧ (s.setSteward h x).bridgeUp = s.bridgeUp ∧ (s.setSteward h x).moving = s.moving ∧ (s.setSteward h x).stopped = s.stopped
    ∧ (s.setSteward h x).rings = s.rings ∧ (s.setSteward h x).accounts = s.accounts ∧ (s.setSteward h x).tensors = s.tensors
    ∧ (s.setSteward h x).tallies = s.tallies ∧ (s.setSteward h x).images = s.images ∧ (s.setSteward h x).items = s.items
    ∧ (s.setSteward h x).nextItem = s.nextItem ∧ (s.setSteward h x).heldWaits = s.heldWaits ∧ (s.setSteward h x).islands = s.islands
    ∧ (s.setSteward h x).decks = s.decks ∧ (s.setSteward h x).aabs = s.aabs ∧ (s.setSteward h x).dtbs = s.dtbs
    ∧ (s.setSteward h x).tellers = s.tellers ∧ (s.setSteward h x).banks = s.banks ∧ (s.setSteward h x).hbmStacks = s.hbmStacks
    ∧ (s.setSteward h x).tickets = s.tickets ∧ (s.setSteward h x).offers = s.offers ∧ (s.setSteward h x).peers = s.peers
    ∧ (s.setSteward h x).lostPeers = s.lostPeers ∧ (s.setSteward h x).ports = s.ports ∧ (s.setSteward h x).pools = s.pools
    ∧ (s.setSteward h x).grants = s.grants ∧ (s.setSteward h x).recovering = s.recovering ∧ (s.setSteward h x).recoveryQueue = s.recoveryQueue
    ∧ (s.setSteward h x).links = s.links ∧ (s.setSteward h x).mail = s.mail ∧ (s.setSteward h x).rates = s.rates ∧ (s.setSteward h x).dumps = s.dumps
    ∧ (s.setSteward h x).dumpCount = s.dumpCount ∧ (s.setSteward h x).dumpDue = s.dumpDue ∧ (s.setSteward h x).telemetry = s.telemetry
    ∧ (s.setSteward h x).i3c = s.i3c := by
  repeat' constructor

@[simp] theorem State.setHub_frame (s : State) (x : HubRegs) :
    (s.setHub x).pending = s.pending ∧ (s.setHub x).out = s.out ∧ (s.setHub x).free = s.free ∧ (s.setHub x).now = s.now ∧ (s.setHub x).cmem = s.cmem
    ∧ (s.setHub x).lastWrite = s.lastWrite ∧ (s.setHub x).power = s.power ∧ (s.setHub x).flash = s.flash ∧ (s.setHub x).stewards = s.stewards
    ∧ (s.setHub x).halfFenced = s.halfFenced ∧ (s.setHub x).bridgeUp = s.bridgeUp ∧ (s.setHub x).moving = s.moving ∧ (s.setHub x).stopped = s.stopped
    ∧ (s.setHub x).rings = s.rings ∧ (s.setHub x).accounts = s.accounts ∧ (s.setHub x).tensors = s.tensors ∧ (s.setHub x).tallies = s.tallies
    ∧ (s.setHub x).images = s.images ∧ (s.setHub x).items = s.items ∧ (s.setHub x).nextItem = s.nextItem ∧ (s.setHub x).heldWaits = s.heldWaits
    ∧ (s.setHub x).islands = s.islands ∧ (s.setHub x).decks = s.decks ∧ (s.setHub x).aabs = s.aabs ∧ (s.setHub x).dtbs = s.dtbs
    ∧ (s.setHub x).tellers = s.tellers ∧ (s.setHub x).banks = s.banks ∧ (s.setHub x).hbmStacks = s.hbmStacks ∧ (s.setHub x).tickets = s.tickets
    ∧ (s.setHub x).offers = s.offers ∧ (s.setHub x).peers = s.peers ∧ (s.setHub x).lostPeers = s.lostPeers ∧ (s.setHub x).ports = s.ports
    ∧ (s.setHub x).pools = s.pools ∧ (s.setHub x).grants = s.grants ∧ (s.setHub x).recovering = s.recovering
    ∧ (s.setHub x).recoveryQueue = s.recoveryQueue ∧ (s.setHub x).links = s.links ∧ (s.setHub x).mail = s.mail ∧ (s.setHub x).rates = s.rates
    ∧ (s.setHub x).dumps = s.dumps ∧ (s.setHub x).dumpCount = s.dumpCount ∧ (s.setHub x).dumpDue = s.dumpDue ∧ (s.setHub x).telemetry = s.telemetry
    ∧ (s.setHub x).i3c = s.i3c := by
  repeat' constructor

@[simp] theorem State.setPower_frame (s : State) (x : Power) :
    (s.setPower x).pending = s.pending ∧ (s.setPower x).out = s.out ∧ (s.setPower x).free = s.free ∧ (s.setPower x).now = s.now
    ∧ (s.setPower x).cmem = s.cmem ∧ (s.setPower x).lastWrite = s.lastWrite ∧ (s.setPower x).flash = s.flash ∧ (s.setPower x).hub = s.hub
    ∧ (s.setPower x).stewards = s.stewards ∧ (s.setPower x).halfFenced = s.halfFenced ∧ (s.setPower x).bridgeUp = s.bridgeUp
    ∧ (s.setPower x).moving = s.moving ∧ (s.setPower x).stopped = s.stopped ∧ (s.setPower x).rings = s.rings ∧ (s.setPower x).accounts = s.accounts
    ∧ (s.setPower x).tensors = s.tensors ∧ (s.setPower x).tallies = s.tallies ∧ (s.setPower x).images = s.images ∧ (s.setPower x).items = s.items
    ∧ (s.setPower x).nextItem = s.nextItem ∧ (s.setPower x).heldWaits = s.heldWaits ∧ (s.setPower x).islands = s.islands
    ∧ (s.setPower x).decks = s.decks ∧ (s.setPower x).aabs = s.aabs ∧ (s.setPower x).dtbs = s.dtbs ∧ (s.setPower x).tellers = s.tellers
    ∧ (s.setPower x).banks = s.banks ∧ (s.setPower x).hbmStacks = s.hbmStacks ∧ (s.setPower x).tickets = s.tickets ∧ (s.setPower x).offers = s.offers
    ∧ (s.setPower x).peers = s.peers ∧ (s.setPower x).lostPeers = s.lostPeers ∧ (s.setPower x).ports = s.ports ∧ (s.setPower x).pools = s.pools
    ∧ (s.setPower x).grants = s.grants ∧ (s.setPower x).recovering = s.recovering ∧ (s.setPower x).recoveryQueue = s.recoveryQueue
    ∧ (s.setPower x).links = s.links ∧ (s.setPower x).mail = s.mail ∧ (s.setPower x).rates = s.rates ∧ (s.setPower x).dumps = s.dumps
    ∧ (s.setPower x).dumpCount = s.dumpCount ∧ (s.setPower x).dumpDue = s.dumpDue ∧ (s.setPower x).telemetry = s.telemetry
    ∧ (s.setPower x).i3c = s.i3c := by
  repeat' constructor

@[simp] theorem State.setLink_frame (s : State) (h : Half) (x : Link) :
    (s.setLink h x).pending = s.pending ∧ (s.setLink h x).out = s.out ∧ (s.setLink h x).free = s.free ∧ (s.setLink h x).now = s.now
    ∧ (s.setLink h x).cmem = s.cmem ∧ (s.setLink h x).lastWrite = s.lastWrite ∧ (s.setLink h x).power = s.power ∧ (s.setLink h x).flash = s.flash
    ∧ (s.setLink h x).hub = s.hub ∧ (s.setLink h x).stewards = s.stewards ∧ (s.setLink h x).halfFenced = s.halfFenced
    ∧ (s.setLink h x).bridgeUp = s.bridgeUp ∧ (s.setLink h x).moving = s.moving ∧ (s.setLink h x).stopped = s.stopped
    ∧ (s.setLink h x).rings = s.rings ∧ (s.setLink h x).accounts = s.accounts ∧ (s.setLink h x).tensors = s.tensors
    ∧ (s.setLink h x).tallies = s.tallies ∧ (s.setLink h x).images = s.images ∧ (s.setLink h x).items = s.items
    ∧ (s.setLink h x).nextItem = s.nextItem ∧ (s.setLink h x).heldWaits = s.heldWaits ∧ (s.setLink h x).islands = s.islands
    ∧ (s.setLink h x).decks = s.decks ∧ (s.setLink h x).aabs = s.aabs ∧ (s.setLink h x).dtbs = s.dtbs ∧ (s.setLink h x).tellers = s.tellers
    ∧ (s.setLink h x).banks = s.banks ∧ (s.setLink h x).hbmStacks = s.hbmStacks ∧ (s.setLink h x).tickets = s.tickets
    ∧ (s.setLink h x).offers = s.offers ∧ (s.setLink h x).peers = s.peers ∧ (s.setLink h x).lostPeers = s.lostPeers ∧ (s.setLink h x).ports = s.ports
    ∧ (s.setLink h x).pools = s.pools ∧ (s.setLink h x).grants = s.grants ∧ (s.setLink h x).recovering = s.recovering
    ∧ (s.setLink h x).recoveryQueue = s.recoveryQueue ∧ (s.setLink h x).mail = s.mail ∧ (s.setLink h x).rates = s.rates
    ∧ (s.setLink h x).dumps = s.dumps ∧ (s.setLink h x).dumpCount = s.dumpCount ∧ (s.setLink h x).dumpDue = s.dumpDue
    ∧ (s.setLink h x).telemetry = s.telemetry ∧ (s.setLink h x).i3c = s.i3c := by
  repeat' constructor

@[simp] theorem State.emit_frame (s : State) (o : Output) :
    (s.emit o).pending = s.pending ∧ (s.emit o).free = s.free ∧ (s.emit o).now = s.now ∧ (s.emit o).cmem = s.cmem ∧ (s.emit o).lastWrite = s.lastWrite
    ∧ (s.emit o).power = s.power ∧ (s.emit o).flash = s.flash ∧ (s.emit o).hub = s.hub ∧ (s.emit o).stewards = s.stewards
    ∧ (s.emit o).halfFenced = s.halfFenced ∧ (s.emit o).bridgeUp = s.bridgeUp ∧ (s.emit o).moving = s.moving ∧ (s.emit o).stopped = s.stopped
    ∧ (s.emit o).rings = s.rings ∧ (s.emit o).accounts = s.accounts ∧ (s.emit o).tensors = s.tensors ∧ (s.emit o).tallies = s.tallies
    ∧ (s.emit o).images = s.images ∧ (s.emit o).items = s.items ∧ (s.emit o).nextItem = s.nextItem ∧ (s.emit o).heldWaits = s.heldWaits
    ∧ (s.emit o).islands = s.islands ∧ (s.emit o).decks = s.decks ∧ (s.emit o).aabs = s.aabs ∧ (s.emit o).dtbs = s.dtbs
    ∧ (s.emit o).tellers = s.tellers ∧ (s.emit o).banks = s.banks ∧ (s.emit o).hbmStacks = s.hbmStacks ∧ (s.emit o).tickets = s.tickets
    ∧ (s.emit o).offers = s.offers ∧ (s.emit o).peers = s.peers ∧ (s.emit o).lostPeers = s.lostPeers ∧ (s.emit o).ports = s.ports
    ∧ (s.emit o).pools = s.pools ∧ (s.emit o).grants = s.grants ∧ (s.emit o).recovering = s.recovering ∧ (s.emit o).recoveryQueue = s.recoveryQueue
    ∧ (s.emit o).links = s.links ∧ (s.emit o).mail = s.mail ∧ (s.emit o).rates = s.rates ∧ (s.emit o).dumps = s.dumps
    ∧ (s.emit o).dumpCount = s.dumpCount ∧ (s.emit o).dumpDue = s.dumpDue ∧ (s.emit o).telemetry = s.telemetry ∧ (s.emit o).i3c = s.i3c := by
  repeat' constructor

@[simp] theorem State.at_frame (s : State) (t : Nat) :
    (s.at t).pending = s.pending ∧ (s.at t).out = s.out ∧ (s.at t).free = s.free ∧ (s.at t).cmem = s.cmem ∧ (s.at t).lastWrite = s.lastWrite
    ∧ (s.at t).power = s.power ∧ (s.at t).flash = s.flash ∧ (s.at t).hub = s.hub ∧ (s.at t).stewards = s.stewards ∧ (s.at t).halfFenced = s.halfFenced
    ∧ (s.at t).bridgeUp = s.bridgeUp ∧ (s.at t).moving = s.moving ∧ (s.at t).stopped = s.stopped ∧ (s.at t).rings = s.rings
    ∧ (s.at t).accounts = s.accounts ∧ (s.at t).tensors = s.tensors ∧ (s.at t).tallies = s.tallies ∧ (s.at t).images = s.images
    ∧ (s.at t).items = s.items ∧ (s.at t).nextItem = s.nextItem ∧ (s.at t).heldWaits = s.heldWaits ∧ (s.at t).islands = s.islands
    ∧ (s.at t).decks = s.decks ∧ (s.at t).aabs = s.aabs ∧ (s.at t).dtbs = s.dtbs ∧ (s.at t).tellers = s.tellers ∧ (s.at t).banks = s.banks
    ∧ (s.at t).hbmStacks = s.hbmStacks ∧ (s.at t).tickets = s.tickets ∧ (s.at t).offers = s.offers ∧ (s.at t).peers = s.peers
    ∧ (s.at t).lostPeers = s.lostPeers ∧ (s.at t).ports = s.ports ∧ (s.at t).pools = s.pools ∧ (s.at t).grants = s.grants
    ∧ (s.at t).recovering = s.recovering ∧ (s.at t).recoveryQueue = s.recoveryQueue ∧ (s.at t).links = s.links ∧ (s.at t).mail = s.mail
    ∧ (s.at t).rates = s.rates ∧ (s.at t).dumps = s.dumps ∧ (s.at t).dumpCount = s.dumpCount ∧ (s.at t).dumpDue = s.dumpDue
    ∧ (s.at t).telemetry = s.telemetry ∧ (s.at t).i3c = s.i3c := by
  repeat' constructor

@[simp] theorem State.companion_frame (s : State) (cw : List CWrite) :
    (s.companion cw).pending = s.pending ∧ (s.companion cw).out = s.out ∧ (s.companion cw).free = s.free ∧ (s.companion cw).now = s.now
    ∧ (s.companion cw).lastWrite = s.lastWrite ∧ (s.companion cw).power = s.power ∧ (s.companion cw).flash = s.flash ∧ (s.companion cw).hub = s.hub
    ∧ (s.companion cw).stewards = s.stewards ∧ (s.companion cw).halfFenced = s.halfFenced ∧ (s.companion cw).bridgeUp = s.bridgeUp
    ∧ (s.companion cw).moving = s.moving ∧ (s.companion cw).stopped = s.stopped ∧ (s.companion cw).rings = s.rings
    ∧ (s.companion cw).accounts = s.accounts ∧ (s.companion cw).tensors = s.tensors ∧ (s.companion cw).tallies = s.tallies
    ∧ (s.companion cw).images = s.images ∧ (s.companion cw).items = s.items ∧ (s.companion cw).nextItem = s.nextItem
    ∧ (s.companion cw).heldWaits = s.heldWaits ∧ (s.companion cw).islands = s.islands ∧ (s.companion cw).decks = s.decks
    ∧ (s.companion cw).aabs = s.aabs ∧ (s.companion cw).dtbs = s.dtbs ∧ (s.companion cw).tellers = s.tellers ∧ (s.companion cw).banks = s.banks
    ∧ (s.companion cw).hbmStacks = s.hbmStacks ∧ (s.companion cw).tickets = s.tickets ∧ (s.companion cw).offers = s.offers
    ∧ (s.companion cw).peers = s.peers ∧ (s.companion cw).lostPeers = s.lostPeers ∧ (s.companion cw).ports = s.ports
    ∧ (s.companion cw).pools = s.pools ∧ (s.companion cw).grants = s.grants ∧ (s.companion cw).recovering = s.recovering
    ∧ (s.companion cw).recoveryQueue = s.recoveryQueue ∧ (s.companion cw).links = s.links ∧ (s.companion cw).mail = s.mail
    ∧ (s.companion cw).rates = s.rates ∧ (s.companion cw).dumps = s.dumps ∧ (s.companion cw).dumpCount = s.dumpCount
    ∧ (s.companion cw).dumpDue = s.dumpDue ∧ (s.companion cw).telemetry = s.telemetry ∧ (s.companion cw).i3c = s.i3c := by
  repeat' constructor

@[simp] theorem State.poke_frame (s : State) (a : Nat) (l : List Byte) :
    (s.poke a l).pending = s.pending ∧ (s.poke a l).out = s.out ∧ (s.poke a l).free = s.free ∧ (s.poke a l).now = s.now ∧ (s.poke a l).power = s.power
    ∧ (s.poke a l).flash = s.flash ∧ (s.poke a l).hub = s.hub ∧ (s.poke a l).stewards = s.stewards ∧ (s.poke a l).halfFenced = s.halfFenced
    ∧ (s.poke a l).bridgeUp = s.bridgeUp ∧ (s.poke a l).moving = s.moving ∧ (s.poke a l).stopped = s.stopped ∧ (s.poke a l).rings = s.rings
    ∧ (s.poke a l).accounts = s.accounts ∧ (s.poke a l).tensors = s.tensors ∧ (s.poke a l).tallies = s.tallies ∧ (s.poke a l).images = s.images
    ∧ (s.poke a l).items = s.items ∧ (s.poke a l).nextItem = s.nextItem ∧ (s.poke a l).heldWaits = s.heldWaits ∧ (s.poke a l).islands = s.islands
    ∧ (s.poke a l).decks = s.decks ∧ (s.poke a l).aabs = s.aabs ∧ (s.poke a l).dtbs = s.dtbs ∧ (s.poke a l).tellers = s.tellers
    ∧ (s.poke a l).banks = s.banks ∧ (s.poke a l).hbmStacks = s.hbmStacks ∧ (s.poke a l).tickets = s.tickets ∧ (s.poke a l).offers = s.offers
    ∧ (s.poke a l).peers = s.peers ∧ (s.poke a l).lostPeers = s.lostPeers ∧ (s.poke a l).ports = s.ports ∧ (s.poke a l).pools = s.pools
    ∧ (s.poke a l).grants = s.grants ∧ (s.poke a l).recovering = s.recovering ∧ (s.poke a l).recoveryQueue = s.recoveryQueue
    ∧ (s.poke a l).links = s.links ∧ (s.poke a l).mail = s.mail ∧ (s.poke a l).rates = s.rates ∧ (s.poke a l).dumps = s.dumps
    ∧ (s.poke a l).dumpCount = s.dumpCount ∧ (s.poke a l).dumpDue = s.dumpDue ∧ (s.poke a l).telemetry = s.telemetry ∧ (s.poke a l).i3c = s.i3c := by
  repeat' constructor

/-! ### Read after write -/

@[simp] theorem State.setRing_same (s : State) (i : Nat) (x : Ring) : (s.setRing i x).ring i = x := lookup_put_same _ _ _ _
theorem State.setRing_other (s : State) {i j : Nat} (x : Ring) (h : j ≠ i) : (s.setRing i x).ring j = s.ring j := lookup_put_other _ _ _ h
@[simp] theorem State.setIsland_same (s : State) (i : Nat) (x : Island) : (s.setIsland i x).island i = x := lookup_put_same _ _ _ _
theorem State.setIsland_other (s : State) {i j : Nat} (x : Island) (h : j ≠ i) : (s.setIsland i x).island j = s.island j := lookup_put_other _ _ _ h
@[simp] theorem State.setDeck_same (s : State) (i : Nat) (x : Deck) : (s.setDeck i x).deck i = x := lookup_put_same _ _ _ _
theorem State.setDeck_other (s : State) {i j : Nat} (x : Deck) (h : j ≠ i) : (s.setDeck i x).deck j = s.deck j := lookup_put_other _ _ _ h
@[simp] theorem State.setAab_same (s : State) (i : Nat) (x : Aab) : (s.setAab i x).aab i = x := lookup_put_same _ _ _ _
theorem State.setAab_other (s : State) {i j : Nat} (x : Aab) (h : j ≠ i) : (s.setAab i x).aab j = s.aab j := lookup_put_other _ _ _ h
@[simp] theorem State.setDtb_same (s : State) (i : Nat) (x : Dtb) : (s.setDtb i x).dtb i = x := lookup_put_same _ _ _ _
theorem State.setDtb_other (s : State) {i j : Nat} (x : Dtb) (h : j ≠ i) : (s.setDtb i x).dtb j = s.dtb j := lookup_put_other _ _ _ h
@[simp] theorem State.setTeller_same (s : State) (i : Nat) (x : Teller) : (s.setTeller i x).teller i = x := lookup_put_same _ _ _ _
theorem State.setTeller_other (s : State) {i j : Nat} (x : Teller) (h : j ≠ i) : (s.setTeller i x).teller j = s.teller j := lookup_put_other _ _ _ h
@[simp] theorem State.setBank_same (s : State) (i : Nat) (x : Bank) : (s.setBank i x).bank i = x := lookup_put_same _ _ _ _
theorem State.setBank_other (s : State) {i j : Nat} (x : Bank) (h : j ≠ i) : (s.setBank i x).bank j = s.bank j := lookup_put_other _ _ _ h
@[simp] theorem State.setStack_same (s : State) (i : Nat) (x : Stack) : (s.setStack i x).stack i = x := lookup_put_same _ _ _ _
theorem State.setStack_other (s : State) {i j : Nat} (x : Stack) (h : j ≠ i) : (s.setStack i x).stack j = s.stack j := lookup_put_other _ _ _ h
@[simp] theorem State.setPort_same (s : State) (i : Nat) (x : Port) : (s.setPort i x).port i = x := lookup_put_same _ _ _ _
theorem State.setPort_other (s : State) {i j : Nat} (x : Port) (h : j ≠ i) : (s.setPort i x).port j = s.port j := lookup_put_other _ _ _ h
@[simp] theorem State.setAccount_same (s : State) (i : Nat) (x : Account) : find (s.setAccount i x).accounts i = some x := find_ins_same _ _ _
theorem State.setAccount_other (s : State) {i j : Nat} (x : Account) (h : j ≠ i) : find (s.setAccount i x).accounts j = find s.accounts j := find_ins_other _ _ h
@[simp] theorem State.setTensor_same (s : State) (i : Nat) (x : Tensor) : find (s.setTensor i x).tensors i = some x := find_ins_same _ _ _
theorem State.setTensor_other (s : State) {i j : Nat} (x : Tensor) (h : j ≠ i) : find (s.setTensor i x).tensors j = find s.tensors j := find_ins_other _ _ h
@[simp] theorem State.setTally_same (s : State) (i : Nat) (x : Tally) : find (s.setTally i x).tallies i = some x := find_ins_same _ _ _
theorem State.setTally_other (s : State) {i j : Nat} (x : Tally) (h : j ≠ i) : find (s.setTally i x).tallies j = find s.tallies j := find_ins_other _ _ h
@[simp] theorem State.setImage_same (s : State) (i : Nat) (x : Image) : find (s.setImage i x).images i = some x := find_ins_same _ _ _
theorem State.setImage_other (s : State) {i j : Nat} (x : Image) (h : j ≠ i) : find (s.setImage i x).images j = find s.images j := find_ins_other _ _ h
@[simp] theorem State.setTicket_same (s : State) (i : Nat) (x : Ticket) : find (s.setTicket i x).tickets i = some x := find_ins_same _ _ _
theorem State.setTicket_other (s : State) {i j : Nat} (x : Ticket) (h : j ≠ i) : find (s.setTicket i x).tickets j = find s.tickets j := find_ins_other _ _ h
@[simp] theorem State.setItem_same (s : State) (i : Nat) (x : Item) :
    find (s.setItem i x).items i = some { x with epoch := hubEpoch s } := find_ins_same _ _ _
theorem State.setItem_other (s : State) {i j : Nat} (x : Item) (h : j ≠ i) : find (s.setItem i x).items j = find s.items j :=
  find_ins_other _ _ h
@[simp] theorem State.dropItem_same (s : State) (i : Nat) : find (s.dropItem i).items i = none := find_del_same _ _
@[simp] theorem State.dropTicket_same (s : State) (i : Nat) : find (s.dropTicket i).tickets i = none := find_del_same _ _
@[simp] theorem State.setHub_hub (s : State) (x : HubRegs) : (s.setHub x).hub = x := rfl
@[simp] theorem State.setPower_power (s : State) (x : Power) : (s.setPower x).power = x := rfl
@[simp] theorem State.emit_out (s : State) (o : Output) : (s.emit o).out = s.out ++ [o] := rfl
@[simp] theorem State.at_now (s : State) (t : Nat) : (s.at t).now = max s.now t := rfl
@[simp] theorem State.poke_cmem (s : State) (a : Nat) (l : List Byte) : (s.poke a l).cmem = writeBytes s.cmem a l := rfl
@[simp] theorem State.companion_cmem (s : State) (cw : List CWrite) : (s.companion cw).cmem = applyStores s.cmem cw := rfl
@[simp] theorem State.setSteward_same (s : State) (h : Half) (x : Steward) : (s.setSteward h x).steward h = x := by cases h <;> rfl
theorem State.setSteward_other (s : State) {h k : Half} (x : Steward) (hk : k ≠ h) : (s.setSteward h x).steward k = s.steward k := by
  cases h <;> cases k <;> first | rfl | exact absurd rfl hk
@[simp] theorem State.setLink_same (s : State) (h : Half) (x : Link) : (s.setLink h x).links.get h = x := by cases h <;> rfl
theorem State.setLink_other (s : State) {h k : Half} (x : Link) (hk : k ≠ h) : (s.setLink h x).links.get k = s.links.get k := by
  cases h <;> cases k <;> first | rfl | exact absurd rfl hk
@[simp] theorem State.setPeer_same (s : State) (h : Half) (p : Nat) (x : PeerContext) : (s.setPeer h p x).peer h p = x :=
  lookup_put_same _ _ _ _

/-- A telemetry count changes nothing but its island. -/
@[simp] theorem State.bump_frame (s : State) (b k n : Nat) :
    (s.bump b k n).pending = s.pending ∧ (s.bump b k n).out = s.out ∧ (s.bump b k n).free = s.free ∧ (s.bump b k n).now = s.now
    ∧ (s.bump b k n).cmem = s.cmem ∧ (s.bump b k n).lastWrite = s.lastWrite ∧ (s.bump b k n).power = s.power ∧ (s.bump b k n).flash = s.flash
    ∧ (s.bump b k n).hub = s.hub ∧ (s.bump b k n).stewards = s.stewards ∧ (s.bump b k n).halfFenced = s.halfFenced
    ∧ (s.bump b k n).bridgeUp = s.bridgeUp ∧ (s.bump b k n).moving = s.moving ∧ (s.bump b k n).stopped = s.stopped ∧ (s.bump b k n).rings = s.rings
    ∧ (s.bump b k n).accounts = s.accounts ∧ (s.bump b k n).tensors = s.tensors ∧ (s.bump b k n).tallies = s.tallies
    ∧ (s.bump b k n).images = s.images ∧ (s.bump b k n).items = s.items ∧ (s.bump b k n).nextItem = s.nextItem
    ∧ (s.bump b k n).heldWaits = s.heldWaits ∧ (s.bump b k n).decks = s.decks ∧ (s.bump b k n).aabs = s.aabs ∧ (s.bump b k n).dtbs = s.dtbs
    ∧ (s.bump b k n).tellers = s.tellers ∧ (s.bump b k n).banks = s.banks ∧ (s.bump b k n).hbmStacks = s.hbmStacks
    ∧ (s.bump b k n).tickets = s.tickets ∧ (s.bump b k n).offers = s.offers ∧ (s.bump b k n).peers = s.peers ∧ (s.bump b k n).lostPeers = s.lostPeers
    ∧ (s.bump b k n).ports = s.ports ∧ (s.bump b k n).pools = s.pools ∧ (s.bump b k n).grants = s.grants ∧ (s.bump b k n).recovering = s.recovering
    ∧ (s.bump b k n).recoveryQueue = s.recoveryQueue ∧ (s.bump b k n).links = s.links ∧ (s.bump b k n).mail = s.mail ∧ (s.bump b k n).rates = s.rates
    ∧ (s.bump b k n).dumps = s.dumps ∧ (s.bump b k n).dumpCount = s.dumpCount ∧ (s.bump b k n).dumpDue = s.dumpDue
    ∧ (s.bump b k n).telemetry = s.telemetry ∧ (s.bump b k n).i3c = s.i3c := by
  repeat' constructor

/-- A telemetry count leaves everything of its island but the counters. -/
theorem State.bump_island (s : State) (b k n : Nat) :
    ((s.bump b k n).island b) = { s.island b with counters := modify {} (s.island b).counters k fun c => bumpCounter c n } := by
  simp [State.bump]

theorem State.bump_other (s : State) {b c : Nat} (k n : Nat) (h : c ≠ b) : (s.bump b k n).island c = s.island c :=
  State.setIsland_other s _ h

end Sys2Proof.Machine
end

