-- ==== Sys2Proof/Laws/Touches.lean ====
section
/-! SUPPORT. The frame of every shared operation of the model, one lemma each: which parts of the state it may change. In the order
of the model's files. -/

namespace Sys2Proof.Machine

open Sys2Proof

set_option linter.all false
set_option Elab.async false

theorem Part.same_refl (p : Part) (s : State) : p.same s s := by cases p <;> rfl
theorem Part.same_trans (p : Part) {s t u : State} (h : p.same s t) (k : p.same t u) : p.same s u := by
  cases p <;> exact Eq.trans k h
@[simp] theorem Touches.rfl {ps : List Part} {s : State} : Touches ps s s := fun p _ => p.same_refl s

theorem Touches.trans {ps : List Part} {s t u : State} (h : Touches ps s t) (k : Touches ps t u) : Touches ps s u :=
  fun p hp => p.same_trans (h p hp) (k p hp)

@[simp] theorem touches_ite {ps : List Part} {s0 a b : State} {c : Prop} [Decidable c] (ha : Touches ps s0 a) (hb : Touches ps s0 b) :
    Touches ps s0 (if c then a else b) := by split <;> assumption

@[simp] theorem touches_foldl {α : Type} {ps : List Part} {s0 : State} (l : List α) (g : State → α → State)
    (hg : ∀ t a, Touches ps s0 t → Touches ps s0 (g t a)) {t : State} (h : Touches ps s0 t) : Touches ps s0 (l.foldl g t) := by
  induction l generalizing t with
  | nil => exact h
  | cons a rest ih => exact ih (hg t a h)

theorem touches_foldl_fst {α β : Type} {ps : List Part} {s0 : State} (l : List α) (g : State × β → α → State × β)
    (hg : ∀ q a, Touches ps s0 q.1 → Touches ps s0 (g q a).1) {q : State × β} (h : Touches ps s0 q.1) : Touches ps s0 (l.foldl g q).1 := by
  induction l generalizing q with
  | nil => exact h
  | cons a rest ih => exact ih (hg q a h)

@[simp] theorem touches_mk {ps : List Part} {s0 t : State} {x1 x2 x3 x4 x5 x6 x7 x8 x9 x10 x11 x12 x13 x14 x15 x16 x17 x18 x19 x20 x21 x22 x23 x24 x25 x26 x27 x28 x29 x30 x31 x32 x33 x34 x35 x36 x37 x38 x39 x40 x41 x42 x43 x44 x45} (hk : Touches ps s0 t)
    (h1 : x1 = t.out ∨ Part.out ∈ ps)
    (h2 : x2 = t.free ∨ Part.free ∈ ps)
    (h3 : x3 = t.now ∨ Part.now ∈ ps)
    (h4 : x4 = t.cmem ∨ Part.cmem ∈ ps)
    (h5 : x5 = t.lastWrite ∨ Part.lastWrite ∈ ps)
    (h6 : x6 = t.power ∨ Part.power ∈ ps)
    (h7 : x7 = t.flash ∨ Part.flash ∈ ps)
    (h8 : x8 = t.hub ∨ Part.hub ∈ ps)
    (h9 : x9 = t.stewards ∨ Part.stewards ∈ ps)
    (h10 : x10 = t.halfFenced ∨ Part.halfFenced ∈ ps)
    (h11 : x11 = t.bridgeUp ∨ Part.bridgeUp ∈ ps)
    (h12 : x12 = t.moving ∨ Part.moving ∈ ps)
    (h13 : x13 = t.stopped ∨ Part.stopped ∈ ps)
    (h14 : x14 = t.rings ∨ Part.rings ∈ ps)
    (h15 : x15 = t.accounts ∨ Part.accounts ∈ ps)
    (h16 : x16 = t.tensors ∨ Part.tensors ∈ ps)
    (h17 : x17 = t.tallies ∨ Part.tallies ∈ ps)
    (h18 : x18 = t.images ∨ Part.images ∈ ps)
    (h19 : x19 = t.items ∨ Part.items ∈ ps)
    (h20 : x20 = t.nextItem ∨ Part.nextItem ∈ ps)
    (h21 : x21 = t.heldWaits ∨ Part.heldWaits ∈ ps)
    (h22 : x22 = t.islands ∨ Part.islands ∈ ps)
    (h23 : x23 = t.decks ∨ Part.decks ∈ ps)
    (h24 : x24 = t.aabs ∨ Part.aabs ∈ ps)
    (h25 : x25 = t.dtbs ∨ Part.dtbs ∈ ps)
    (h26 : x26 = t.tellers ∨ Part.tellers ∈ ps)
    (h27 : x27 = t.banks ∨ Part.banks ∈ ps)
    (h28 : x28 = t.hbmStacks ∨ Part.hbmStacks ∈ ps)
    (h29 : x29 = t.tickets ∨ Part.tickets ∈ ps)
    (h30 : x30 = t.offers ∨ Part.offers ∈ ps)
    (h31 : x31 = t.peers ∨ Part.peers ∈ ps)
    (h32 : x32 = t.lostPeers ∨ Part.lostPeers ∈ ps)
    (h33 : x33 = t.ports ∨ Part.ports ∈ ps)
    (h34 : x34 = t.pools ∨ Part.pools ∈ ps)
    (h35 : x35 = t.grants ∨ Part.grants ∈ ps)
    (h36 : x36 = t.recovering ∨ Part.recovering ∈ ps)
    (h37 : x37 = t.recoveryQueue ∨ Part.recoveryQueue ∈ ps)
    (h38 : x38 = t.links ∨ Part.links ∈ ps)
    (h39 : x39 = t.mail ∨ Part.mail ∈ ps)
    (h40 : x40 = t.rates ∨ Part.rates ∈ ps)
    (h41 : x41 = t.dumps ∨ Part.dumps ∈ ps)
    (h42 : x42 = t.dumpCount ∨ Part.dumpCount ∈ ps)
    (h43 : x43 = t.dumpDue ∨ Part.dumpDue ∈ ps)
    (h44 : x44 = t.telemetry ∨ Part.telemetry ∈ ps)
    (h45 : x45 = t.i3c ∨ Part.i3c ∈ ps) :
    Touches ps s0 (State.mk t.pending x1 x2 x3 x4 x5 x6 x7 x8 x9 x10 x11 x12 x13 x14 x15 x16 x17 x18 x19 x20 x21 x22 x23 x24 x25 x26 x27 x28 x29 x30 x31 x32 x33 x34 x35 x36 x37 x38 x39 x40 x41 x42 x43 x44 x45) := by
  refine hk.trans fun p hp => ?_
  cases p
  · rfl
  · exact h1.resolve_right hp
  · exact h2.resolve_right hp
  · exact h3.resolve_right hp
  · exact h4.resolve_right hp
  · exact h5.resolve_right hp
  · exact h6.resolve_right hp
  · exact h7.resolve_right hp
  · exact h8.resolve_right hp
  · exact h9.resolve_right hp
  · exact h10.resolve_right hp
  · exact h11.resolve_right hp
  · exact h12.resolve_right hp
  · exact h13.resolve_right hp
  · exact h14.resolve_right hp
  · exact h15.resolve_right hp
  · exact h16.resolve_right hp
  · exact h17.resolve_right hp
  · exact h18.resolve_right hp
  · exact h19.resolve_right hp
  · exact h20.resolve_right hp
  · exact h21.resolve_right hp
  · exact h22.resolve_right hp
  · exact h23.resolve_right hp
  · exact h24.resolve_right hp
  · exact h25.resolve_right hp
  · exact h26.resolve_right hp
  · exact h27.resolve_right hp
  · exact h28.resolve_right hp
  · exact h29.resolve_right hp
  · exact h30.resolve_right hp
  · exact h31.resolve_right hp
  · exact h32.resolve_right hp
  · exact h33.resolve_right hp
  · exact h34.resolve_right hp
  · exact h35.resolve_right hp
  · exact h36.resolve_right hp
  · exact h37.resolve_right hp
  · exact h38.resolve_right hp
  · exact h39.resolve_right hp
  · exact h40.resolve_right hp
  · exact h41.resolve_right hp
  · exact h42.resolve_right hp
  · exact h43.resolve_right hp
  · exact h44.resolve_right hp
  · exact h45.resolve_right hp

theorem touches_all {ps : List Part} (h : ∀ p, p ∈ ps) (s t : State) : Touches ps s t := fun p hp => absurd (h p) hp

@[simp] theorem touches_State_poke {ps : List Part} {s0 s : State} (hk : Touches ps s0 s) (h_cmem : Part.cmem ∈ ps) (h_lastWrite : Part.lastWrite ∈ ps) (a : Nat) (l : List Byte) : Touches ps s0 (State.poke s a l) := by
  unfold State.poke
  first
  | simp +contextual (maxDischargeDepth := 60) [*]; done
  | ((try dsimp only); (repeat' split) <;> simp +contextual (maxDischargeDepth := 60) [*])

@[simp] theorem touches_State_companion {ps : List Part} {s0 s : State} (hk : Touches ps s0 s) (h_cmem : Part.cmem ∈ ps) (cw : List CWrite) : Touches ps s0 (State.companion s cw) := by
  unfold State.companion
  first
  | simp +contextual (maxDischargeDepth := 60) [*]; done
  | ((try dsimp only); (repeat' split) <;> simp +contextual (maxDischargeDepth := 60) [*])

@[simp] theorem touches_State_setBank {ps : List Part} {s0 s : State} (hk : Touches ps s0 s) (h_banks : Part.banks ∈ ps) (b : Nat) (x : Bank) : Touches ps s0 (State.setBank s b x) := by
  unfold State.setBank
  first
  | simp +contextual (maxDischargeDepth := 60) [*]; done
  | ((try dsimp only); (repeat' split) <;> simp +contextual (maxDischargeDepth := 60) [*])

@[simp] theorem touches_State_setStack {ps : List Part} {s0 s : State} (hk : Touches ps s0 s) (h_hbmStacks : Part.hbmStacks ∈ ps) (b : Nat) (x : Stack) : Touches ps s0 (State.setStack s b x) := by
  unfold State.setStack
  first
  | simp +contextual (maxDischargeDepth := 60) [*]; done
  | ((try dsimp only); (repeat' split) <;> simp +contextual (maxDischargeDepth := 60) [*])

@[simp] theorem touches_State_setRing {ps : List Part} {s0 s : State} (hk : Touches ps s0 s) (h_rings : Part.rings ∈ ps) (n : Nat) (r : Ring) : Touches ps s0 (State.setRing s n r) := by
  unfold State.setRing
  first
  | simp +contextual (maxDischargeDepth := 60) [*]; done
  | ((try dsimp only); (repeat' split) <;> simp +contextual (maxDischargeDepth := 60) [*])

@[simp] theorem touches_State_dropItem {ps : List Part} {s0 s : State} (hk : Touches ps s0 s) (h_items : Part.items ∈ ps) (i : Nat) : Touches ps s0 (State.dropItem s i) := by
  unfold State.dropItem
  first
  | simp +contextual (maxDischargeDepth := 60) [*]; done
  | ((try dsimp only); (repeat' split) <;> simp +contextual (maxDischargeDepth := 60) [*])

@[simp] theorem touches_State_setAccount {ps : List Part} {s0 s : State} (hk : Touches ps s0 s) (h_accounts : Part.accounts ∈ ps) (a : Nat) (x : Account) : Touches ps s0 (State.setAccount s a x) := by
  unfold State.setAccount
  first
  | simp +contextual (maxDischargeDepth := 60) [*]; done
  | ((try dsimp only); (repeat' split) <;> simp +contextual (maxDischargeDepth := 60) [*])

@[simp] theorem touches_State_setTensor {ps : List Part} {s0 s : State} (hk : Touches ps s0 s) (h_tensors : Part.tensors ∈ ps) (h : Nat) (x : Tensor) : Touches ps s0 (State.setTensor s h x) := by
  unfold State.setTensor
  first
  | simp +contextual (maxDischargeDepth := 60) [*]; done
  | ((try dsimp only); (repeat' split) <;> simp +contextual (maxDischargeDepth := 60) [*])

@[simp] theorem touches_State_setTally {ps : List Part} {s0 s : State} (hk : Touches ps s0 s) (h_tallies : Part.tallies ∈ ps) (h : Nat) (x : Tally) : Touches ps s0 (State.setTally s h x) := by
  unfold State.setTally
  first
  | simp +contextual (maxDischargeDepth := 60) [*]; done
  | ((try dsimp only); (repeat' split) <;> simp +contextual (maxDischargeDepth := 60) [*])

@[simp] theorem touches_State_setImage {ps : List Part} {s0 s : State} (hk : Touches ps s0 s) (h_images : Part.images ∈ ps) (h : Nat) (x : Image) : Touches ps s0 (State.setImage s h x) := by
  unfold State.setImage
  first
  | simp +contextual (maxDischargeDepth := 60) [*]; done
  | ((try dsimp only); (repeat' split) <;> simp +contextual (maxDischargeDepth := 60) [*])

@[simp] theorem touches_State_setIsland {ps : List Part} {s0 s : State} (hk : Touches ps s0 s) (h_islands : Part.islands ∈ ps) (b : Nat) (x : Island) : Touches ps s0 (State.setIsland s b x) := by
  unfold State.setIsland
  first
  | simp +contextual (maxDischargeDepth := 60) [*]; done
  | ((try dsimp only); (repeat' split) <;> simp +contextual (maxDischargeDepth := 60) [*])

@[simp] theorem touches_State_setItem {ps : List Part} {s0 s : State} (hk : Touches ps s0 s) (h_items : Part.items ∈ ps) (i : Nat) (x : Item) : Touches ps s0 (State.setItem s i x) := by
  unfold State.setItem
  first
  | simp +contextual (maxDischargeDepth := 60) [*]; done
  | ((try dsimp only); (repeat' split) <;> simp +contextual (maxDischargeDepth := 60) [*])

@[simp] theorem touches_State_setDeck {ps : List Part} {s0 s : State} (hk : Touches ps s0 s) (h_decks : Part.decks ∈ ps) (d : Nat) (x : Deck) : Touches ps s0 (State.setDeck s d x) := by
  unfold State.setDeck
  first
  | simp +contextual (maxDischargeDepth := 60) [*]; done
  | ((try dsimp only); (repeat' split) <;> simp +contextual (maxDischargeDepth := 60) [*])

@[simp] theorem touches_State_setAab {ps : List Part} {s0 s : State} (hk : Touches ps s0 s) (h_aabs : Part.aabs ∈ ps) (a : Nat) (x : Aab) : Touches ps s0 (State.setAab s a x) := by
  unfold State.setAab
  first
  | simp +contextual (maxDischargeDepth := 60) [*]; done
  | ((try dsimp only); (repeat' split) <;> simp +contextual (maxDischargeDepth := 60) [*])

@[simp] theorem touches_State_setDtb {ps : List Part} {s0 s : State} (hk : Touches ps s0 s) (h_dtbs : Part.dtbs ∈ ps) (d : Nat) (x : Dtb) : Touches ps s0 (State.setDtb s d x) := by
  unfold State.setDtb
  first
  | simp +contextual (maxDischargeDepth := 60) [*]; done
  | ((try dsimp only); (repeat' split) <;> simp +contextual (maxDischargeDepth := 60) [*])

@[simp] theorem touches_State_setTeller {ps : List Part} {s0 s : State} (hk : Touches ps s0 s) (h_tellers : Part.tellers ∈ ps) (f : Nat) (x : Teller) : Touches ps s0 (State.setTeller s f x) := by
  unfold State.setTeller
  first
  | simp +contextual (maxDischargeDepth := 60) [*]; done
  | ((try dsimp only); (repeat' split) <;> simp +contextual (maxDischargeDepth := 60) [*])

@[simp] theorem touches_State_setTicket {ps : List Part} {s0 s : State} (hk : Touches ps s0 s) (h_tickets : Part.tickets ∈ ps) (i : Nat) (x : Ticket) : Touches ps s0 (State.setTicket s i x) := by
  unfold State.setTicket
  first
  | simp +contextual (maxDischargeDepth := 60) [*]; done
  | ((try dsimp only); (repeat' split) <;> simp +contextual (maxDischargeDepth := 60) [*])

@[simp] theorem touches_State_dropTicket {ps : List Part} {s0 s : State} (hk : Touches ps s0 s) (h_tickets : Part.tickets ∈ ps) (i : Nat) : Touches ps s0 (State.dropTicket s i) := by
  unfold State.dropTicket
  first
  | simp +contextual (maxDischargeDepth := 60) [*]; done
  | ((try dsimp only); (repeat' split) <;> simp +contextual (maxDischargeDepth := 60) [*])

@[simp] theorem touches_State_setPeer {ps : List Part} {s0 s : State} (hk : Touches ps s0 s) (h_peers : Part.peers ∈ ps) (h : Half) (p : Nat) (x : PeerContext) : Touches ps s0 (State.setPeer s h p x) := by
  unfold State.setPeer
  first
  | simp +contextual (maxDischargeDepth := 60) [*]; done
  | ((try dsimp only); (repeat' split) <;> simp +contextual (maxDischargeDepth := 60) [*])

@[simp] theorem touches_State_setPort {ps : List Part} {s0 s : State} (hk : Touches ps s0 s) (h_ports : Part.ports ∈ ps) (p : Nat) (x : Port) : Touches ps s0 (State.setPort s p x) := by
  unfold State.setPort
  first
  | simp +contextual (maxDischargeDepth := 60) [*]; done
  | ((try dsimp only); (repeat' split) <;> simp +contextual (maxDischargeDepth := 60) [*])

@[simp] theorem touches_State_setSteward {ps : List Part} {s0 s : State} (hk : Touches ps s0 s) (h_stewards : Part.stewards ∈ ps) (h : Half) (x : Steward) : Touches ps s0 (State.setSteward s h x) := by
  unfold State.setSteward
  first
  | simp +contextual (maxDischargeDepth := 60) [*]; done
  | ((try dsimp only); (repeat' split) <;> simp +contextual (maxDischargeDepth := 60) [*])

@[simp] theorem touches_State_setHub {ps : List Part} {s0 s : State} (hk : Touches ps s0 s) (h_hub : Part.hub ∈ ps) (x : HubRegs) : Touches ps s0 (State.setHub s x) := by
  unfold State.setHub
  first
  | simp +contextual (maxDischargeDepth := 60) [*]; done
  | ((try dsimp only); (repeat' split) <;> simp +contextual (maxDischargeDepth := 60) [*])

@[simp] theorem touches_State_setPower {ps : List Part} {s0 s : State} (hk : Touches ps s0 s) (h_power : Part.power ∈ ps) (x : Power) : Touches ps s0 (State.setPower s x) := by
  unfold State.setPower
  first
  | simp +contextual (maxDischargeDepth := 60) [*]; done
  | ((try dsimp only); (repeat' split) <;> simp +contextual (maxDischargeDepth := 60) [*])

@[simp] theorem touches_State_setLink {ps : List Part} {s0 s : State} (hk : Touches ps s0 s) (h_links : Part.links ∈ ps) (h : Half) (x : Link) : Touches ps s0 (State.setLink s h x) := by
  unfold State.setLink
  first
  | simp +contextual (maxDischargeDepth := 60) [*]; done
  | ((try dsimp only); (repeat' split) <;> simp +contextual (maxDischargeDepth := 60) [*])

@[simp] theorem touches_State_emit {ps : List Part} {s0 s : State} (hk : Touches ps s0 s) (h_out : Part.out ∈ ps) (o : Output) : Touches ps s0 (State.emit s o) := by
  unfold State.emit
  first
  | simp +contextual (maxDischargeDepth := 60) [*]; done
  | ((try dsimp only); (repeat' split) <;> simp +contextual (maxDischargeDepth := 60) [*])

@[simp] theorem touches_State_at {ps : List Part} {s0 s : State} (hk : Touches ps s0 s) (h_now : Part.now ∈ ps) (t : Nat) : Touches ps s0 (State.at s t) := by
  unfold State.at
  first
  | simp +contextual (maxDischargeDepth := 60) [*]; done
  | ((try dsimp only); (repeat' split) <;> simp +contextual (maxDischargeDepth := 60) [*])

@[simp] theorem touches_State_tick {ps : List Part} {s0 s : State} (hk : Touches ps s0 s) (h_free : Part.free ∈ ps)  : Touches ps s0 (State.tick s) := by
  unfold State.tick
  first
  | simp +contextual (maxDischargeDepth := 60) [*]; done
  | ((try dsimp only); (repeat' split) <;> simp +contextual (maxDischargeDepth := 60) [*])

@[simp] theorem touches_State_bump {ps : List Part} {s0 s : State} (hk : Touches ps s0 s) (h_islands : Part.islands ∈ ps) (b slot n : Nat) : Touches ps s0 (State.bump s b slot n) := by
  unfold State.bump
  first
  | simp +contextual (maxDischargeDepth := 60) [*]; done
  | ((try dsimp only); (repeat' split) <;> simp +contextual (maxDischargeDepth := 60) [*])

@[simp] theorem touches_State_countIgnoredBell {ps : List Part} {s0 s : State} (hk : Touches ps s0 s) (h_islands : Part.islands ∈ ps) (ep : Half) : Touches ps s0 (State.countIgnoredBell s ep) := by
  unfold State.countIgnoredBell
  first
  | simp +contextual (maxDischargeDepth := 60) [*]; done
  | ((try dsimp only); (repeat' split) <;> simp +contextual (maxDischargeDepth := 60) [*])

@[simp] theorem touches_State_countIgnoredWrite {ps : List Part} {s0 s : State} (hk : Touches ps s0 s) (h_islands : Part.islands ∈ ps) (ep : Half) : Touches ps s0 (State.countIgnoredWrite s ep) := by
  unfold State.countIgnoredWrite
  first
  | simp +contextual (maxDischargeDepth := 60) [*]; done
  | ((try dsimp only); (repeat' split) <;> simp +contextual (maxDischargeDepth := 60) [*])

@[simp] theorem touches_State_recordBy {ps : List Part} {s0 s : State} (hk : Touches ps s0 s) (h_islands : Part.islands ∈ ps) (h_dumpDue : Part.dumpDue ∈ ps) (unit : Nat) (r : FaultRecord) : Touches ps s0 (State.recordBy s unit r) := by
  unfold State.recordBy
  first
  | simp +contextual (maxDischargeDepth := 60) [*]; done
  | ((try dsimp only); (repeat' split) <;> simp +contextual (maxDischargeDepth := 60) [*])

@[simp] theorem touches_State_recordFault {ps : List Part} {s0 s : State} (hk : Touches ps s0 s) (h_islands : Part.islands ∈ ps) (h_dumpDue : Part.dumpDue ∈ ps) (r : FaultRecord) : Touches ps s0 (State.recordFault s r) := by
  unfold State.recordFault
  first
  | simp +contextual (maxDischargeDepth := 60) [*]; done
  | ((try dsimp only); (repeat' split) <;> simp +contextual (maxDischargeDepth := 60) [*])

@[simp] theorem touches_State_complementFault {ps : List Part} {s0 s : State} (hk : Touches ps s0 s) (h_islands : Part.islands ∈ ps) (h_dumpDue : Part.dumpDue ∈ ps) (source kind account item action : Nat) : Touches ps s0 (State.complementFault s source kind account item action) := by
  unfold State.complementFault
  first
  | simp +contextual (maxDischargeDepth := 60) [*]; done
  | ((try dsimp only); (repeat' split) <;> simp +contextual (maxDischargeDepth := 60) [*])

@[simp] theorem touches_State_fenceBlock {ps : List Part} {s0 s : State} (hk : Touches ps s0 s) (h_flash : Part.flash ∈ ps) (h_islands : Part.islands ∈ ps) (b : Nat) : Touches ps s0 (State.fenceBlock s b) := by
  unfold State.fenceBlock
  first
  | simp +contextual (maxDischargeDepth := 60) [*]; done
  | ((try dsimp only); (repeat' split) <;> simp +contextual (maxDischargeDepth := 60) [*])

@[simp] theorem touches_State_recoverFrom {ps : List Part} {s0 s : State} (hk : Touches ps s0 s) (h_recovering : Part.recovering ∈ ps) (h_recoveryQueue : Part.recoveryQueue ∈ ps) (r : Recovery) : Touches ps s0 (State.recoverFrom s r) := by
  unfold State.recoverFrom
  first
  | simp +contextual (maxDischargeDepth := 60) [*]; done
  | ((try dsimp only); (repeat' split) <;> simp +contextual (maxDischargeDepth := 60) [*])

@[simp] theorem touches_State_abandon {ps : List Part} {s0 s : State} (hk : Touches ps s0 s) (h_recovering : Part.recovering ∈ ps) (h_recoveryQueue : Part.recoveryQueue ∈ ps) (covered : Recovery → Bool) : Touches ps s0 (State.abandon s covered) := by
  unfold State.abandon
  first
  | simp +contextual (maxDischargeDepth := 60) [*]; done
  | ((try dsimp only); (repeat' split) <;> simp +contextual (maxDischargeDepth := 60) [*])

@[simp] theorem touches_State_queueRecovery {ps : List Part} {s0 s : State} (hk : Touches ps s0 s) (h_recoveryQueue : Part.recoveryQueue ∈ ps) (r : Recovery) : Touches ps s0 (State.queueRecovery s r) := by
  unfold State.queueRecovery
  first
  | simp +contextual (maxDischargeDepth := 60) [*]; done
  | ((try dsimp only); (repeat' split) <;> simp +contextual (maxDischargeDepth := 60) [*])

@[simp] theorem touches_State_endRecovery {ps : List Part} {s0 s : State} (hk : Touches ps s0 s) (h_recovering : Part.recovering ∈ ps) (d : Domain) : Touches ps s0 (State.endRecovery s d) := by
  unfold State.endRecovery
  first
  | simp +contextual (maxDischargeDepth := 60) [*]; done
  | ((try dsimp only); (repeat' split) <;> simp +contextual (maxDischargeDepth := 60) [*])

@[simp] theorem touches_State_undefineTensor {ps : List Part} {s0 s : State} (hk : Touches ps s0 s) (h_free : Part.free ∈ ps) (h_tensors : Part.tensors ∈ ps) (h : Nat) : Touches ps s0 (State.undefineTensor s h) := by
  unfold State.undefineTensor
  first
  | simp +contextual (maxDischargeDepth := 60) [*]; done
  | ((try dsimp only); (repeat' split) <;> simp +contextual (maxDischargeDepth := 60) [*])

@[simp] theorem touches_State_undefineOutputs {ps : List Part} {s0 s : State} (hk : Touches ps s0 s) (h_free : Part.free ∈ ps) (h_tensors : Part.tensors ∈ ps) (w : Nat) : Touches ps s0 (State.undefineOutputs s w) := by
  unfold State.undefineOutputs
  first
  | simp +contextual (maxDischargeDepth := 60) [*]; done
  | ((try dsimp only); (repeat' split) <;> simp +contextual (maxDischargeDepth := 60) [*])

@[simp] theorem touches_State_kernelOutput {ps : List Part} {s0 s : State} (hk : Touches ps s0 s) (h_free : Part.free ∈ ps) (h_tensors : Part.tensors ∈ ps) (x : Item) (digest k : Nat) (mine : Nat → Bool) : Touches ps s0 (State.kernelOutput s x digest k mine).1 := by
  unfold State.kernelOutput
  first
  | simp +contextual (maxDischargeDepth := 60) [*]; done
  | ((try dsimp only); (repeat' split) <;> simp +contextual (maxDischargeDepth := 60) [*])

@[simp] theorem touches_State_kernelOutputs {ps : List Part} {s0 s : State} (hk : Touches ps s0 s) (h_free : Part.free ∈ ps) (h_tensors : Part.tensors ∈ ps) (x : Item) (digest : Nat) (g : Image) : Touches ps s0 (State.kernelOutputs s x digest g).1 := by
  unfold State.kernelOutputs
  refine touches_foldl_fst _ _ ?_ hk
  intro q a hq
  split <;> simp +contextual (maxDischargeDepth := 60) [*]

@[simp] theorem touches_State_unitOutputs {ps : List Part} {s0 s : State} (hk : Touches ps s0 s) (h_free : Part.free ∈ ps) (h_tensors : Part.tensors ∈ ps) (x : Item) (digest unit : Nat) (g : Image) : Touches ps s0 (State.unitOutputs s x digest unit g).1 := by
  unfold State.unitOutputs
  refine touches_foldl_fst _ _ ?_ hk
  intro q a hq
  split <;> simp +contextual (maxDischargeDepth := 60) [*]

@[simp] theorem touches_State_landUpdate {ps : List Part} {s0 s : State} (hk : Touches ps s0 s) (h_free : Part.free ∈ ps) (h_tensors : Part.tensors ∈ ps) (x : Item) : Touches ps s0 (State.landUpdate s x) := by
  unfold State.landUpdate
  first
  | simp +contextual (maxDischargeDepth := 60) [*]; done
  | ((try dsimp only); (repeat' split) <;> simp +contextual (maxDischargeDepth := 60) [*])

@[simp] theorem touches_State_wake {ps : List Part} {s0 s : State} (hk : Touches ps s0 s) (h_items : Part.items ∈ ps) (p : Waiter × Nat) : Touches ps s0 (State.wake s p) := by
  unfold State.wake
  first
  | simp +contextual (maxDischargeDepth := 60) [*]; done
  | ((try dsimp only); (repeat' split) <;> simp +contextual (maxDischargeDepth := 60) [*])

@[simp] theorem touches_State_settleTally {ps : List Part} {s0 s : State} (hk : Touches ps s0 s) (h_tallies : Part.tallies ∈ ps) (h_items : Part.items ∈ ps) (h_islands : Part.islands ∈ ps) (h : Nat) (t : Tally) : Touches ps s0 (State.settleTally s h t) := by
  unfold State.settleTally
  first
  | simp +contextual (maxDischargeDepth := 60) [*]; done
  | ((try dsimp only); (repeat' split) <;> simp +contextual (maxDischargeDepth := 60) [*])

@[simp] theorem touches_State_tallyFault {ps : List Part} {s0 s : State} (hk : Touches ps s0 s) (h_tallies : Part.tallies ∈ ps) (h_islands : Part.islands ∈ ps) (h_dumpDue : Part.dumpDue ∈ ps) (h code item : Nat) : Touches ps s0 (State.tallyFault s h code item) := by
  unfold State.tallyFault
  first
  | simp +contextual (maxDischargeDepth := 60) [*]; done
  | ((try dsimp only); (repeat' split) <;> simp +contextual (maxDischargeDepth := 60) [*])

@[simp] theorem touches_State_signalTally {ps : List Part} {s0 s : State} (hk : Touches ps s0 s) (h_tallies : Part.tallies ∈ ps) (h_items : Part.items ∈ ps) (h_islands : Part.islands ∈ ps) (h_dumpDue : Part.dumpDue ∈ ps) (h n source item : Nat) : Touches ps s0 (State.signalTally s h n source item).1 := by
  unfold State.signalTally
  first
  | simp +contextual (maxDischargeDepth := 60) [*]; done
  | ((try dsimp only); (repeat' split) <;> simp +contextual (maxDischargeDepth := 60) [*])

@[simp] theorem touches_State_takeTally {ps : List Part} {s0 s : State} (hk : Touches ps s0 s) (h_tallies : Part.tallies ∈ ps) (h_items : Part.items ∈ ps) (h_islands : Part.islands ∈ ps) (h_dumpDue : Part.dumpDue ∈ ps) (h m item : Nat) : Touches ps s0 (State.takeTally s h m item).1 := by
  unfold State.takeTally
  first
  | simp +contextual (maxDischargeDepth := 60) [*]; done
  | ((try dsimp only); (repeat' split) <;> simp +contextual (maxDischargeDepth := 60) [*])

@[simp] theorem touches_State_waitTally {ps : List Part} {s0 s : State} (hk : Touches ps s0 s) (h_tallies : Part.tallies ∈ ps) (h_items : Part.items ∈ ps) (h_heldWaits : Part.heldWaits ∈ ps) (h_islands : Part.islands ∈ ps) (h : Nat) (w : Waiter) : Touches ps s0 (State.waitTally s h w) := by
  unfold State.waitTally
  first
  | simp +contextual (maxDischargeDepth := 60) [*]; done
  | ((try dsimp only); (repeat' split) <;> simp +contextual (maxDischargeDepth := 60) [*])

@[simp] theorem touches_State_leaveQueue {ps : List Part} {s0 s : State} (hk : Touches ps s0 s) (h_tallies : Part.tallies ∈ ps) (h_items : Part.items ∈ ps) (h_heldWaits : Part.heldWaits ∈ ps) (h_islands : Part.islands ∈ ps) (h item : Nat) : Touches ps s0 (State.leaveQueue s h item) := by
  unfold State.leaveQueue
  first
  | simp +contextual (maxDischargeDepth := 60) [*]; done
  | ((try dsimp only); (repeat' split) <;> simp +contextual (maxDischargeDepth := 60) [*])

@[simp] theorem touches_State_leaveQueues {ps : List Part} {s0 s : State} (hk : Touches ps s0 s) (h_tallies : Part.tallies ∈ ps) (h_items : Part.items ∈ ps) (h_heldWaits : Part.heldWaits ∈ ps) (h_islands : Part.islands ∈ ps) (x : Item) (item : Nat) : Touches ps s0 (State.leaveQueues s x item) := by
  unfold State.leaveQueues
  first
  | simp +contextual (maxDischargeDepth := 60) [*]; done
  | ((try dsimp only); (repeat' split) <;> simp +contextual (maxDischargeDepth := 60) [*])

@[simp] theorem touches_State_transmit {ps : List Part} {s0 s : State} (hk : Touches ps s0 s) (h_out : Part.out ∈ ps) (h_islands : Part.islands ∈ ps) (port : Nat) (f : VfFrame) : Touches ps s0 (State.transmit s port f) := by
  unfold State.transmit
  first
  | simp +contextual (maxDischargeDepth := 60) [*]; done
  | ((try dsimp only); (repeat' split) <;> simp +contextual (maxDischargeDepth := 60) [*])

@[simp] theorem touches_State_openSend {ps : List Part} {s0 s : State} (hk : Touches ps s0 s) (h_free : Part.free ∈ ps) (h_peers : Part.peers ∈ ps) (h : Half) (peer : Nat) : Touches ps s0 (State.openSend s h peer) := by
  unfold State.openSend
  first
  | simp +contextual (maxDischargeDepth := 60) [*]; done
  | ((try dsimp only); (repeat' split) <;> simp +contextual (maxDischargeDepth := 60) [*])

@[simp] theorem touches_State_launch {ps : List Part} {s0 s : State} (hk : Touches ps s0 s) (h_out : Part.out ∈ ps) (h_islands : Part.islands ∈ ps) (h_peers : Part.peers ∈ ps) (h : Half) (peer : Nat) (f : VfFrame) : Touches ps s0 (State.launch s h peer f) := by
  unfold State.launch
  first
  | simp +contextual (maxDischargeDepth := 60) [*]; done
  | ((try dsimp only); (repeat' split) <;> simp +contextual (maxDischargeDepth := 60) [*])

@[simp] theorem touches_State_send {ps : List Part} {s0 s : State} (hk : Touches ps s0 s) (h_out : Part.out ∈ ps) (h_free : Part.free ∈ ps) (h_islands : Part.islands ∈ ps) (h_peers : Part.peers ∈ ps) (h : Half) (peer : Nat) (f : VfFrame) : Touches ps s0 (State.send s h peer f) := by
  unfold State.send
  first
  | simp +contextual (maxDischargeDepth := 60) [*]; done
  | ((try dsimp only); (repeat' split) <;> simp +contextual (maxDischargeDepth := 60) [*])

theorem touches_flushQueue {ps : List Part} {s0 : State} (hf : Half) (peer : Nat) (n : Nat) {s : State} (h : Touches ps s0 s) (h_out : Part.out ∈ ps) (h_free : Part.free ∈ ps) (h_islands : Part.islands ∈ ps) (h_peers : Part.peers ∈ ps) : Touches ps s0 (flushQueue hf peer n s) := by
  induction n generalizing s with
  | zero => exact h
  | succ n ih =>
    unfold flushQueue
    dsimp only
    split
    · simp +contextual (maxDischargeDepth := 60) [*]
    · split
      · exact ih (by simp +contextual (maxDischargeDepth := 60) [*])
      · simp +contextual (maxDischargeDepth := 60) [*]

@[simp] theorem touches_State_flush {ps : List Part} {s0 s : State} (hk : Touches ps s0 s) (h_out : Part.out ∈ ps) (h_free : Part.free ∈ ps) (h_islands : Part.islands ∈ ps) (h_peers : Part.peers ∈ ps) (h : Half) (peer : Nat) : Touches ps s0 (State.flush s h peer) := by
  unfold State.flush
  exact touches_flushQueue _ _ _ hk (by assumption) (by assumption) (by assumption) (by assumption)

@[simp] theorem touches_State_sendAck {ps : List Part} {s0 s : State} (hk : Touches ps s0 s) (h_out : Part.out ∈ ps) (h_islands : Part.islands ∈ ps) (port : Nat) (f : VfFrame) : Touches ps s0 (State.sendAck s port f) := by
  unfold State.sendAck
  first
  | simp +contextual (maxDischargeDepth := 60) [*]; done
  | ((try dsimp only); (repeat' split) <;> simp +contextual (maxDischargeDepth := 60) [*])

@[simp] theorem touches_State_abortPeers {ps : List Part} {s0 s : State} (hk : Touches ps s0 s) (h_out : Part.out ∈ ps) (h_free : Part.free ∈ ps) (h_islands : Part.islands ∈ ps) (h_peers : Part.peers ∈ ps) (t : Ticket) (fault : Nat) : Touches ps s0 (State.abortPeers s t fault) := by
  unfold State.abortPeers
  first
  | simp +contextual (maxDischargeDepth := 60) [*]; done
  | ((try dsimp only); (repeat' split) <;> simp +contextual (maxDischargeDepth := 60) [*])

@[simp] theorem touches_State_tellSuccessor {ps : List Part} {s0 s : State} (hk : Touches ps s0 s) (h_rings : Part.rings ∈ ps) (h_items : Part.items ∈ ps) (x : Item) (id status : Nat) : Touches ps s0 (State.tellSuccessor s x id status) := by
  unfold State.tellSuccessor
  first
  | simp +contextual (maxDischargeDepth := 60) [*]; done
  | ((try dsimp only); (repeat' split) <;> simp +contextual (maxDischargeDepth := 60) [*])

@[simp] theorem touches_State_release {ps : List Part} {s0 s : State} (hk : Touches ps s0 s) (h_decks : Part.decks ∈ ps) (h_aabs : Part.aabs ∈ ps) (h_dtbs : Part.dtbs ∈ ps) (h_tellers : Part.tellers ∈ ps) (id : Nat) : Touches ps s0 (State.release s id) := by
  unfold State.release
  first
  | simp +contextual (maxDischargeDepth := 60) [*]; done
  | ((try dsimp only); (repeat' split) <;> simp +contextual (maxDischargeDepth := 60) [*])

@[simp] theorem touches_State_dropOutputs {ps : List Part} {s0 s : State} (hk : Touches ps s0 s) (h_free : Part.free ∈ ps) (h_cmem : Part.cmem ∈ ps) (h_lastWrite : Part.lastWrite ∈ ps) (h_accounts : Part.accounts ∈ ps) (h_tensors : Part.tensors ∈ ps) (h_tallies : Part.tallies ∈ ps) (x : Item) (status : Nat) : Touches ps s0 (State.dropOutputs s x status) := by
  unfold State.dropOutputs
  first
  | simp +contextual (maxDischargeDepth := 60) [*]; done
  | ((try dsimp only); (repeat' split) <;> simp +contextual (maxDischargeDepth := 60) [*])

@[simp] theorem touches_State_forgetImages {ps : List Part} {s0 s : State} (hk : Touches ps s0 s) (h_tellers : Part.tellers ∈ ps) (gone : Nat → Bool) : Touches ps s0 (State.forgetImages s gone) := by
  unfold State.forgetImages
  first
  | simp +contextual (maxDischargeDepth := 60) [*]; done
  | ((try dsimp only); (repeat' split) <;> simp +contextual (maxDischargeDepth := 60) [*])

@[simp] theorem touches_State_timed {ps : List Part} {s0 s : State} (hk : Touches ps s0 s) (h_free : Part.free ∈ ps) (x : Item) (whole : Bool) : Touches ps s0 (State.timed s x whole).1 := by
  unfold State.timed
  first
  | simp +contextual (maxDischargeDepth := 60) [*]; done
  | ((try dsimp only); (repeat' split) <;> simp +contextual (maxDischargeDepth := 60) [*])

@[simp] theorem touches_State_abortTicket {ps : List Part} {s0 s : State} (hk : Touches ps s0 s) (h_out : Part.out ∈ ps) (h_free : Part.free ∈ ps) (h_islands : Part.islands ∈ ps) (h_tickets : Part.tickets ∈ ps) (h_peers : Part.peers ∈ ps) (id fault : Nat) : Touches ps s0 (State.abortTicket s id fault) := by
  unfold State.abortTicket
  first
  | simp +contextual (maxDischargeDepth := 60) [*]; done
  | ((try dsimp only); (repeat' split) <;> simp +contextual (maxDischargeDepth := 60) [*])

@[simp] theorem touches_State_leaveItem {ps : List Part} {s0 s : State} (hk : Touches ps s0 s) (h_out : Part.out ∈ ps) (h_free : Part.free ∈ ps) (h_cmem : Part.cmem ∈ ps) (h_lastWrite : Part.lastWrite ∈ ps) (h_accounts : Part.accounts ∈ ps) (h_tensors : Part.tensors ∈ ps) (h_tallies : Part.tallies ∈ ps) (h_items : Part.items ∈ ps) (h_heldWaits : Part.heldWaits ∈ ps) (h_islands : Part.islands ∈ ps) (h_decks : Part.decks ∈ ps) (h_aabs : Part.aabs ∈ ps) (h_dtbs : Part.dtbs ∈ ps) (h_tellers : Part.tellers ∈ ps) (h_tickets : Part.tickets ∈ ps) (h_peers : Part.peers ∈ ps) (id status fault : Nat) (x : Item) : Touches ps s0 (State.leaveItem s id status fault x) := by
  unfold State.leaveItem
  first
  | simp +contextual (maxDischargeDepth := 60) [*]; done
  | ((try dsimp only); (repeat' split) <;> simp +contextual (maxDischargeDepth := 60) [*])

@[simp] theorem touches_State_markEnded {ps : List Part} {s0 s : State} (hk : Touches ps s0 s) (h_rings : Part.rings ∈ ps) (h_items : Part.items ∈ ps) (id status fault : Nat) (x : Item) : Touches ps s0 (State.markEnded s id status fault x) := by
  unfold State.markEnded
  first
  | simp +contextual (maxDischargeDepth := 60) [*]; done
  | ((try dsimp only); (repeat' split) <;> simp +contextual (maxDischargeDepth := 60) [*])

@[simp] theorem touches_State_endItem {ps : List Part} {s0 s : State} (hk : Touches ps s0 s) (h_out : Part.out ∈ ps) (h_free : Part.free ∈ ps) (h_cmem : Part.cmem ∈ ps) (h_lastWrite : Part.lastWrite ∈ ps) (h_rings : Part.rings ∈ ps) (h_accounts : Part.accounts ∈ ps) (h_tensors : Part.tensors ∈ ps) (h_tallies : Part.tallies ∈ ps) (h_items : Part.items ∈ ps) (h_heldWaits : Part.heldWaits ∈ ps) (h_islands : Part.islands ∈ ps) (h_decks : Part.decks ∈ ps) (h_aabs : Part.aabs ∈ ps) (h_dtbs : Part.dtbs ∈ ps) (h_tellers : Part.tellers ∈ ps) (h_tickets : Part.tickets ∈ ps) (h_peers : Part.peers ∈ ps) (id status fault : Nat) : Touches ps s0 (State.endItem s id status fault) := by
  unfold State.endItem
  first
  | simp +contextual (maxDischargeDepth := 60) [*]; done
  | ((try dsimp only); (repeat' split) <;> simp +contextual (maxDischargeDepth := 60) [*])

@[simp] theorem touches_State_finishItem {ps : List Part} {s0 s : State} (hk : Touches ps s0 s) (h_items : Part.items ∈ ps) (id : Nat) (x : Item) : Touches ps s0 (State.finishItem s id x) := by
  unfold State.finishItem
  first
  | simp +contextual (maxDischargeDepth := 60) [*]; done
  | ((try dsimp only); (repeat' split) <;> simp +contextual (maxDischargeDepth := 60) [*])

@[simp] theorem touches_State_writeShadow {ps : List Part} {s0 s : State} (hk : Touches ps s0 s) (h_cmem : Part.cmem ∈ ps) (h_lastWrite : Part.lastWrite ∈ ps) (n : Nat) : Touches ps s0 (State.writeShadow s n) := by
  unfold State.writeShadow
  first
  | simp +contextual (maxDischargeDepth := 60) [*]; done
  | ((try dsimp only); (repeat' split) <;> simp +contextual (maxDischargeDepth := 60) [*])

@[simp] theorem touches_State_putReceipt {ps : List Part} {s0 s : State} (hk : Touches ps s0 s) (h_out : Part.out ∈ ps) (h_cmem : Part.cmem ∈ ps) (h_lastWrite : Part.lastWrite ∈ ps) (h_rings : Part.rings ∈ ps) (h_items : Part.items ∈ ps) (h_islands : Part.islands ∈ ps) (id : Nat) (x : Item) : Touches ps s0 (State.putReceipt s id x) := by
  unfold State.putReceipt
  first
  | simp +contextual (maxDischargeDepth := 60) [*]; done
  | ((try dsimp only); (repeat' split) <;> simp +contextual (maxDischargeDepth := 60) [*])

@[simp] theorem touches_State_ringMismatch {ps : List Part} {s0 s : State} (hk : Touches ps s0 s) (h_islands : Part.islands ∈ ps) (h_dumpDue : Part.dumpDue ∈ ps) (n : Nat) : Touches ps s0 (State.ringMismatch s n) := by
  unfold State.ringMismatch
  first
  | simp +contextual (maxDischargeDepth := 60) [*]; done
  | ((try dsimp only); (repeat' split) <;> simp +contextual (maxDischargeDepth := 60) [*])

@[simp] theorem touches_State_writeReceipt {ps : List Part} {s0 s : State} (hk : Touches ps s0 s) (h_out : Part.out ∈ ps) (h_cmem : Part.cmem ∈ ps) (h_lastWrite : Part.lastWrite ∈ ps) (h_rings : Part.rings ∈ ps) (h_items : Part.items ∈ ps) (h_islands : Part.islands ∈ ps) (h_dumpDue : Part.dumpDue ∈ ps) (id : Nat) : Touches ps s0 (State.writeReceipt s id) := by
  unfold State.writeReceipt
  first
  | simp +contextual (maxDischargeDepth := 60) [*]; done
  | ((try dsimp only); (repeat' split) <;> simp +contextual (maxDischargeDepth := 60) [*])

@[simp] theorem touches_State_postSignal {ps : List Part} {s0 s : State} (hk : Touches ps s0 s) (h_tallies : Part.tallies ∈ ps) (h_items : Part.items ∈ ps) (h_islands : Part.islands ∈ ps) (h_dumpDue : Part.dumpDue ∈ ps) (id : Nat) (x : Item) : Touches ps s0 (State.postSignal s id x).1 := by
  unfold State.postSignal
  first
  | simp +contextual (maxDischargeDepth := 60) [*]; done
  | ((try dsimp only); (repeat' split) <;> simp +contextual (maxDischargeDepth := 60) [*])

@[simp] theorem touches_State_succeed {ps : List Part} {s0 s : State} (hk : Touches ps s0 s) (h_free : Part.free ∈ ps) (h_rings : Part.rings ∈ ps) (h_tensors : Part.tensors ∈ ps) (h_items : Part.items ∈ ps) (h_decks : Part.decks ∈ ps) (h_aabs : Part.aabs ∈ ps) (h_dtbs : Part.dtbs ∈ ps) (h_tellers : Part.tellers ∈ ps) (h_tickets : Part.tickets ∈ ps) (id : Nat) (x : Item) : Touches ps s0 (State.succeed s id x) := by
  unfold State.succeed
  first
  | simp +contextual (maxDischargeDepth := 60) [*]; done
  | ((try dsimp only); (repeat' split) <;> simp +contextual (maxDischargeDepth := 60) [*])

@[simp] theorem touches_State_completeItem {ps : List Part} {s0 s : State} (hk : Touches ps s0 s) (h_out : Part.out ∈ ps) (h_free : Part.free ∈ ps) (h_cmem : Part.cmem ∈ ps) (h_lastWrite : Part.lastWrite ∈ ps) (h_rings : Part.rings ∈ ps) (h_accounts : Part.accounts ∈ ps) (h_tensors : Part.tensors ∈ ps) (h_tallies : Part.tallies ∈ ps) (h_items : Part.items ∈ ps) (h_heldWaits : Part.heldWaits ∈ ps) (h_islands : Part.islands ∈ ps) (h_decks : Part.decks ∈ ps) (h_aabs : Part.aabs ∈ ps) (h_dtbs : Part.dtbs ∈ ps) (h_tellers : Part.tellers ∈ ps) (h_tickets : Part.tickets ∈ ps) (h_peers : Part.peers ∈ ps) (h_dumpDue : Part.dumpDue ∈ ps) (id : Nat) (x : Item) : Touches ps s0 (State.completeItem s id x) := by
  unfold State.completeItem
  first
  | simp +contextual (maxDischargeDepth := 60) [*]; done
  | ((try dsimp only); (repeat' split) <;> simp +contextual (maxDischargeDepth := 60) [*])

@[simp] theorem touches_State_takeSlot {ps : List Part} {s0 s : State} (hk : Touches ps s0 s) (h_decks : Part.decks ∈ ps) (dn : Nat) : Touches ps s0 (State.takeSlot s dn) := by
  unfold State.takeSlot
  first
  | simp +contextual (maxDischargeDepth := 60) [*]; done
  | ((try dsimp only); (repeat' split) <;> simp +contextual (maxDischargeDepth := 60) [*])

@[simp] theorem touches_State_releaseExtents {ps : List Part} {s0 s : State} (hk : Touches ps s0 s) (h_hbmStacks : Part.hbmStacks ∈ ps) (l : List (Nat × Nat)) : Touches ps s0 (State.releaseExtents s l) := by
  unfold State.releaseExtents
  first
  | simp +contextual (maxDischargeDepth := 60) [*]; done
  | ((try dsimp only); (repeat' split) <;> simp +contextual (maxDischargeDepth := 60) [*])

@[simp] theorem touches_State_loseAccount {ps : List Part} {s0 s : State} (hk : Touches ps s0 s) (h_accounts : Part.accounts ∈ ps) (code : Nat) (l : Loss) (readable : Bool) (a : Nat) : Touches ps s0 (State.loseAccount s code l readable a) := by
  unfold State.loseAccount
  first
  | simp +contextual (maxDischargeDepth := 60) [*]; done
  | ((try dsimp only); (repeat' split) <;> simp +contextual (maxDischargeDepth := 60) [*])

@[simp] theorem touches_State_poisonLost {ps : List Part} {s0 s : State} (hk : Touches ps s0 s) (h_free : Part.free ∈ ps) (h_accounts : Part.accounts ∈ ps) (h_tensors : Part.tensors ∈ ps) (h_images : Part.images ∈ ps) (code : Nat) (l : Loss) (readable : Bool) : Touches ps s0 (State.poisonLost s code l readable) := by
  unfold State.poisonLost
  have h1 : Touches ps s0 ((s.tensors.map Prod.fst).foldl (fun s h => match find s.tensors h with
      | some t => s.setTensor h (lostTensor s code l readable h t)
      | none => s) s) := touches_foldl _ _ (by intro u a hu; split <;> simp +contextual (maxDischargeDepth := 60) [*]) hk
  dsimp only
  generalize (s.tensors.map Prod.fst).foldl _ s = s1 at h1 ⊢
  have h2 : Touches ps s0 ((s1.images.map Prod.fst).foldl
      (fun s h => { s with images := adjust s.images h (lostImage s code l readable h) }) s1) :=
    touches_foldl _ _ (by intro u a hu; simp +contextual (maxDischargeDepth := 60) [*]) h1
  generalize (s1.images.map Prod.fst).foldl _ s1 = s2 at h2 ⊢
  have h3 : Touches ps s0 ((s2.accounts.map Prod.fst).foldl (fun s a => s.loseAccount code l readable a) s2) :=
    touches_foldl _ _ (by intro u a hu; simp +contextual (maxDischargeDepth := 60) [*]) h2
  simp +contextual (maxDischargeDepth := 60) [*]

@[simp] theorem touches_State_decideStash {ps : List Part} {s0 s : State} (hk : Touches ps s0 s) (h_accounts : Part.accounts ∈ ps) (x : Item) (bytes : Nat) : Touches ps s0 (State.decideStash s x bytes).1 := by
  unfold State.decideStash
  first
  | simp +contextual (maxDischargeDepth := 60) [*]; done
  | ((try dsimp only); (repeat' split) <;> simp +contextual (maxDischargeDepth := 60) [*])

@[simp] theorem touches_State_mismatch {ps : List Part} {s0 s : State} (hk : Touches ps s0 s) (h_out : Part.out ∈ ps) (h_free : Part.free ∈ ps) (h_cmem : Part.cmem ∈ ps) (h_lastWrite : Part.lastWrite ∈ ps) (h_rings : Part.rings ∈ ps) (h_accounts : Part.accounts ∈ ps) (h_tensors : Part.tensors ∈ ps) (h_tallies : Part.tallies ∈ ps) (h_items : Part.items ∈ ps) (h_heldWaits : Part.heldWaits ∈ ps) (h_islands : Part.islands ∈ ps) (h_decks : Part.decks ∈ ps) (h_aabs : Part.aabs ∈ ps) (h_dtbs : Part.dtbs ∈ ps) (h_tellers : Part.tellers ∈ ps) (h_tickets : Part.tickets ∈ ps) (h_peers : Part.peers ∈ ps) (h_dumpDue : Part.dumpDue ∈ ps) (id : Nat) (x : Item) : Touches ps s0 (State.mismatch s id x) := by
  unfold State.mismatch
  first
  | simp +contextual (maxDischargeDepth := 60) [*]; done
  | ((try dsimp only); (repeat' split) <;> simp +contextual (maxDischargeDepth := 60) [*])

@[simp] theorem touches_stashEffect {ps : List Part} {s0 s : State} (hk : Touches ps s0 s) (h_out : Part.out ∈ ps) (h_free : Part.free ∈ ps) (h_cmem : Part.cmem ∈ ps) (h_lastWrite : Part.lastWrite ∈ ps) (h_rings : Part.rings ∈ ps) (h_accounts : Part.accounts ∈ ps) (h_tensors : Part.tensors ∈ ps) (h_tallies : Part.tallies ∈ ps) (h_items : Part.items ∈ ps) (h_heldWaits : Part.heldWaits ∈ ps) (h_islands : Part.islands ∈ ps) (h_decks : Part.decks ∈ ps) (h_aabs : Part.aabs ∈ ps) (h_dtbs : Part.dtbs ∈ ps) (h_tellers : Part.tellers ∈ ps) (h_tickets : Part.tickets ∈ ps) (h_peers : Part.peers ∈ ps) (id : Nat) (x : Item) : Touches ps s0 (stashEffect s id x) := by
  unfold stashEffect
  first
  | simp +contextual (maxDischargeDepth := 60) [*]; done
  | ((try dsimp only); (repeat' split) <;> simp +contextual (maxDischargeDepth := 60) [*])

@[simp] theorem touches_recallEffect {ps : List Part} {s0 s : State} (hk : Touches ps s0 s) (h_out : Part.out ∈ ps) (h_free : Part.free ∈ ps) (h_cmem : Part.cmem ∈ ps) (h_lastWrite : Part.lastWrite ∈ ps) (h_rings : Part.rings ∈ ps) (h_accounts : Part.accounts ∈ ps) (h_tensors : Part.tensors ∈ ps) (h_tallies : Part.tallies ∈ ps) (h_items : Part.items ∈ ps) (h_heldWaits : Part.heldWaits ∈ ps) (h_islands : Part.islands ∈ ps) (h_decks : Part.decks ∈ ps) (h_aabs : Part.aabs ∈ ps) (h_dtbs : Part.dtbs ∈ ps) (h_tellers : Part.tellers ∈ ps) (h_tickets : Part.tickets ∈ ps) (h_peers : Part.peers ∈ ps) (h_dumpDue : Part.dumpDue ∈ ps) (id : Nat) (x : Item) : Touches ps s0 (recallEffect s id x) := by
  unfold recallEffect
  first
  | simp +contextual (maxDischargeDepth := 60) [*]; done
  | ((try dsimp only); (repeat' split) <;> simp +contextual (maxDischargeDepth := 60) [*])

@[simp] theorem touches_State_atEndpoint {ps : List Part} {s0 s : State} (hk : Touches ps s0 s)  (ep : Half) (f : State → State) (hf : ∀ t, Touches ps s0 t → Touches ps s0 (f t)) : Touches ps s0 (State.atEndpoint s ep f) := by
  unfold State.atEndpoint
  first
  | simp +contextual (maxDischargeDepth := 60) [*]; done
  | ((try dsimp only); (repeat' split) <;> simp +contextual (maxDischargeDepth := 60) [*])

@[simp] theorem touches_State_ringError {ps : List Part} {s0 s : State} (hk : Touches ps s0 s) (h_cmem : Part.cmem ∈ ps) (h_lastWrite : Part.lastWrite ∈ ps) (h_rings : Part.rings ∈ ps) (n code : Nat) : Touches ps s0 (State.ringError s n code) := by
  unfold State.ringError
  first
  | simp +contextual (maxDischargeDepth := 60) [*]; done
  | ((try dsimp only); (repeat' split) <;> simp +contextual (maxDischargeDepth := 60) [*])

@[simp] theorem touches_State_badComplement {ps : List Part} {s0 s : State} (hk : Touches ps s0 s) (h_cmem : Part.cmem ∈ ps) (h_lastWrite : Part.lastWrite ∈ ps) (h_rings : Part.rings ∈ ps) (h_islands : Part.islands ∈ ps) (h_dumpDue : Part.dumpDue ∈ ps) (ep : Half) (n : Nat) : Touches ps s0 (State.badComplement s ep n) := by
  unfold State.badComplement
  first
  | simp +contextual (maxDischargeDepth := 60) [*]; done
  | ((try dsimp only); (repeat' split) <;> simp +contextual (maxDischargeDepth := 60) [*])

@[simp] theorem touches_State_acceptBell {ps : List Part} {s0 s : State} (hk : Touches ps s0 s) (h_out : Part.out ∈ ps) (h_rings : Part.rings ∈ ps) (ep : Half) (n index : Nat) : Touches ps s0 (State.acceptBell s ep n index) := by
  unfold State.acceptBell
  first
  | simp +contextual (maxDischargeDepth := 60) [*]; done
  | ((try dsimp only); (repeat' split) <;> simp +contextual (maxDischargeDepth := 60) [*])

@[simp] theorem touches_bellEffect {ps : List Part} {s0 s : State} (hk : Touches ps s0 s) (h_out : Part.out ∈ ps) (h_cmem : Part.cmem ∈ ps) (h_lastWrite : Part.lastWrite ∈ ps) (h_rings : Part.rings ∈ ps) (h_islands : Part.islands ∈ ps) (h_dumpDue : Part.dumpDue ∈ ps) (ep : Half) (n w : Nat) : Touches ps s0 (bellEffect ep n w s) := by
  unfold bellEffect
  first
  | simp +contextual (maxDischargeDepth := 60) [*]; done
  | ((try dsimp only); (repeat' split) <;> simp +contextual (maxDischargeDepth := 60) [*])

@[simp] theorem touches_controlEffect {ps : List Part} {s0 s : State} (hk : Touches ps s0 s) (h_out : Part.out ∈ ps) (h_cmem : Part.cmem ∈ ps) (h_lastWrite : Part.lastWrite ∈ ps) (h_rings : Part.rings ∈ ps) (h_islands : Part.islands ∈ ps) (h_dumpDue : Part.dumpDue ∈ ps) (ep : Half) (n w : Nat) (act : State → State) (hact : ∀ t, Touches ps s0 t → Touches ps s0 (act t)) : Touches ps s0 (controlEffect ep n w act s) := by
  unfold controlEffect
  first
  | simp +contextual (maxDischargeDepth := 60) [*]; done
  | ((try dsimp only); (repeat' split) <;> simp +contextual (maxDischargeDepth := 60) [*])

@[simp] theorem touches_State_loadFails {ps : List Part} {s0 s : State} (hk : Touches ps s0 s) (h_cmem : Part.cmem ∈ ps) (h_lastWrite : Part.lastWrite ∈ ps) (h_hub : Part.hub ∈ ps) (h_rings : Part.rings ∈ ps) (n entry : Nat) : Touches ps s0 (State.loadFails s n entry) := by
  unfold State.loadFails
  first
  | simp +contextual (maxDischargeDepth := 60) [*]; done
  | ((try dsimp only); (repeat' split) <;> simp +contextual (maxDischargeDepth := 60) [*])

@[simp] theorem touches_loadEffect {ps : List Part} {s0 s : State} (hk : Touches ps s0 s) (h_cmem : Part.cmem ∈ ps) (h_lastWrite : Part.lastWrite ∈ ps) (h_hub : Part.hub ∈ ps) (h_rings : Part.rings ∈ ps) (n : Nat) : Touches ps s0 (loadEffect n s) := by
  unfold loadEffect
  first
  | simp +contextual (maxDischargeDepth := 60) [*]; done
  | ((try dsimp only); (repeat' split) <;> simp +contextual (maxDischargeDepth := 60) [*])

@[simp] theorem touches_State_stopRing {ps : List Part} {s0 s : State} (hk : Touches ps s0 s) (h_cmem : Part.cmem ∈ ps) (h_lastWrite : Part.lastWrite ∈ ps) (h_rings : Part.rings ∈ ps) (n : Nat) : Touches ps s0 (State.stopRing s n) := by
  unfold State.stopRing
  first
  | simp +contextual (maxDischargeDepth := 60) [*]; done
  | ((try dsimp only); (repeat' split) <;> simp +contextual (maxDischargeDepth := 60) [*])

@[simp] theorem touches_stopOr {ps : List Part} {s0 s : State} (hk : Touches ps s0 s) (h_cmem : Part.cmem ∈ ps) (h_lastWrite : Part.lastWrite ∈ ps) (h_rings : Part.rings ∈ ps) (h_islands : Part.islands ∈ ps) (ep : Half) (n : Nat) (act : State → State) (hact : ∀ t, Touches ps s0 t → Touches ps s0 (act t)) : Touches ps s0 (stopOr ep n act s) := by
  unfold stopOr
  first
  | simp +contextual (maxDischargeDepth := 60) [*]; done
  | ((try dsimp only); (repeat' split) <;> simp +contextual (maxDischargeDepth := 60) [*])

@[simp] theorem touches_State_stopItem {ps : List Part} {s0 s : State} (hk : Touches ps s0 s) (h_out : Part.out ∈ ps) (h_free : Part.free ∈ ps) (h_cmem : Part.cmem ∈ ps) (h_lastWrite : Part.lastWrite ∈ ps) (h_rings : Part.rings ∈ ps) (h_accounts : Part.accounts ∈ ps) (h_tensors : Part.tensors ∈ ps) (h_tallies : Part.tallies ∈ ps) (h_items : Part.items ∈ ps) (h_heldWaits : Part.heldWaits ∈ ps) (h_islands : Part.islands ∈ ps) (h_decks : Part.decks ∈ ps) (h_aabs : Part.aabs ∈ ps) (h_dtbs : Part.dtbs ∈ ps) (h_tellers : Part.tellers ∈ ps) (h_tickets : Part.tickets ∈ ps) (h_peers : Part.peers ∈ ps) (id : Nat) (x : Item) : Touches ps s0 (State.stopItem s id x) := by
  unfold State.stopItem
  first
  | simp +contextual (maxDischargeDepth := 60) [*]; done
  | ((try dsimp only); (repeat' split) <;> simp +contextual (maxDischargeDepth := 60) [*])

@[simp] theorem touches_State_cancelWhere {ps : List Part} {s0 s : State} (hk : Touches ps s0 s) (h_out : Part.out ∈ ps) (h_free : Part.free ∈ ps) (h_cmem : Part.cmem ∈ ps) (h_lastWrite : Part.lastWrite ∈ ps) (h_rings : Part.rings ∈ ps) (h_accounts : Part.accounts ∈ ps) (h_tensors : Part.tensors ∈ ps) (h_tallies : Part.tallies ∈ ps) (h_items : Part.items ∈ ps) (h_heldWaits : Part.heldWaits ∈ ps) (h_islands : Part.islands ∈ ps) (h_decks : Part.decks ∈ ps) (h_aabs : Part.aabs ∈ ps) (h_dtbs : Part.dtbs ∈ ps) (h_tellers : Part.tellers ∈ ps) (h_tickets : Part.tickets ∈ ps) (h_peers : Part.peers ∈ ps) (p : Nat × Item → Bool) : Touches ps s0 (State.cancelWhere s p) := by
  unfold State.cancelWhere
  refine touches_foldl _ _ ?_ hk
  intro t a ht
  (repeat' split) <;> simp +contextual (maxDischargeDepth := 60) [*]

@[simp] theorem touches_State_reachStop {ps : List Part} {s0 s : State} (hk : Touches ps s0 s) (h_out : Part.out ∈ ps) (h_free : Part.free ∈ ps) (h_cmem : Part.cmem ∈ ps) (h_lastWrite : Part.lastWrite ∈ ps) (h_rings : Part.rings ∈ ps) (h_accounts : Part.accounts ∈ ps) (h_tensors : Part.tensors ∈ ps) (h_tallies : Part.tallies ∈ ps) (h_items : Part.items ∈ ps) (h_heldWaits : Part.heldWaits ∈ ps) (h_islands : Part.islands ∈ ps) (h_decks : Part.decks ∈ ps) (h_aabs : Part.aabs ∈ ps) (h_dtbs : Part.dtbs ∈ ps) (h_tellers : Part.tellers ∈ ps) (h_tickets : Part.tickets ∈ ps) (h_peers : Part.peers ∈ ps) (id : Nat) (boundary : Bool) : Touches ps s0 (State.reachStop s id boundary) := by
  unfold State.reachStop
  first
  | simp +contextual (maxDischargeDepth := 60) [*]; done
  | ((try dsimp only); (repeat' split) <;> simp +contextual (maxDischargeDepth := 60) [*])

@[simp] theorem touches_stopEffect {ps : List Part} {s0 s : State} (hk : Touches ps s0 s) (h_out : Part.out ∈ ps) (h_free : Part.free ∈ ps) (h_cmem : Part.cmem ∈ ps) (h_lastWrite : Part.lastWrite ∈ ps) (h_rings : Part.rings ∈ ps) (h_accounts : Part.accounts ∈ ps) (h_tensors : Part.tensors ∈ ps) (h_tallies : Part.tallies ∈ ps) (h_items : Part.items ∈ ps) (h_heldWaits : Part.heldWaits ∈ ps) (h_islands : Part.islands ∈ ps) (h_decks : Part.decks ∈ ps) (h_aabs : Part.aabs ∈ ps) (h_dtbs : Part.dtbs ∈ ps) (h_tellers : Part.tellers ∈ ps) (h_tickets : Part.tickets ∈ ps) (h_peers : Part.peers ∈ ps) (ep : Half) (n : Nat) : Touches ps s0 (stopEffect ep n s) := by
  unfold stopEffect
  first
  | simp +contextual (maxDischargeDepth := 60) [*]; done
  | ((try dsimp only); (repeat' split) <;> simp +contextual (maxDischargeDepth := 60) [*])

@[simp] theorem touches_drainEffect {ps : List Part} {s0 s : State} (hk : Touches ps s0 s) (h_cmem : Part.cmem ∈ ps) (h_lastWrite : Part.lastWrite ∈ ps) (h_rings : Part.rings ∈ ps) (h_islands : Part.islands ∈ ps) (ep : Half) (n : Nat) : Touches ps s0 (drainEffect ep n s) := by
  unfold drainEffect
  first
  | simp +contextual (maxDischargeDepth := 60) [*]; done
  | ((try dsimp only); (repeat' split) <;> simp +contextual (maxDischargeDepth := 60) [*])

@[simp] theorem touches_State_clearAccount {ps : List Part} {s0 s : State} (hk : Touches ps s0 s) (h_accounts : Part.accounts ∈ ps) (h_tensors : Part.tensors ∈ ps) (h_tallies : Part.tallies ∈ ps) (h_images : Part.images ∈ ps) (h_decks : Part.decks ∈ ps) (h_tellers : Part.tellers ∈ ps) (h_hbmStacks : Part.hbmStacks ∈ ps) (h_offers : Part.offers ∈ ps) (h_pools : Part.pools ∈ ps) (a : Nat) : Touches ps s0 (State.clearAccount s a) := by
  unfold State.clearAccount
  first
  | simp +contextual (maxDischargeDepth := 60) [*]; done
  | ((try dsimp only); (repeat' split) <;> simp +contextual (maxDischargeDepth := 60) [*])

@[simp] theorem touches_State_idleRings {ps : List Part} {s0 s : State} (hk : Touches ps s0 s) (h_cmem : Part.cmem ∈ ps) (h_lastWrite : Part.lastWrite ∈ ps) (h_rings : Part.rings ∈ ps) (a : Nat) : Touches ps s0 (State.idleRings s a) := by
  unfold State.idleRings
  first
  | simp +contextual (maxDischargeDepth := 60) [*]; done
  | ((try dsimp only); (repeat' split) <;> simp +contextual (maxDischargeDepth := 60) [*])

@[simp] theorem touches_State_accountDone {ps : List Part} {s0 s : State} (hk : Touches ps s0 s) (h_hub : Part.hub ∈ ps) (result : Nat) : Touches ps s0 (State.accountDone s result) := by
  unfold State.accountDone
  first
  | simp +contextual (maxDischargeDepth := 60) [*]; done
  | ((try dsimp only); (repeat' split) <;> simp +contextual (maxDischargeDepth := 60) [*])

@[simp] theorem touches_State_finishRemove {ps : List Part} {s0 s : State} (hk : Touches ps s0 s) (h_cmem : Part.cmem ∈ ps) (h_lastWrite : Part.lastWrite ∈ ps) (h_hub : Part.hub ∈ ps) (h_rings : Part.rings ∈ ps) (h_accounts : Part.accounts ∈ ps) (h_tensors : Part.tensors ∈ ps) (h_tallies : Part.tallies ∈ ps) (h_images : Part.images ∈ ps) (h_decks : Part.decks ∈ ps) (h_tellers : Part.tellers ∈ ps) (h_hbmStacks : Part.hbmStacks ∈ ps) (h_offers : Part.offers ∈ ps) (h_pools : Part.pools ∈ ps) (a : Nat) : Touches ps s0 (State.finishRemove s a) := by
  unfold State.finishRemove
  first
  | simp +contextual (maxDischargeDepth := 60) [*]; done
  | ((try dsimp only); (repeat' split) <;> simp +contextual (maxDischargeDepth := 60) [*])

@[simp] theorem touches_State_deferredReceipt {ps : List Part} {s0 s : State} (hk : Touches ps s0 s) (h_out : Part.out ∈ ps) (h_cmem : Part.cmem ∈ ps) (h_lastWrite : Part.lastWrite ∈ ps) (h_hub : Part.hub ∈ ps) (h_rings : Part.rings ∈ ps) (h_accounts : Part.accounts ∈ ps) (h_tensors : Part.tensors ∈ ps) (h_tallies : Part.tallies ∈ ps) (h_images : Part.images ∈ ps) (h_items : Part.items ∈ ps) (h_islands : Part.islands ∈ ps) (h_decks : Part.decks ∈ ps) (h_tellers : Part.tellers ∈ ps) (h_hbmStacks : Part.hbmStacks ∈ ps) (h_offers : Part.offers ∈ ps) (h_pools : Part.pools ∈ ps) (n : Nat) : Touches ps s0 (State.deferredReceipt s n) := by
  unfold State.deferredReceipt
  first
  | simp +contextual (maxDischargeDepth := 60) [*]; done
  | ((try dsimp only); (repeat' split) <;> simp +contextual (maxDischargeDepth := 60) [*])

@[simp] theorem touches_State_checkSlip {ps : List Part} {s0 s : State} (hk : Touches ps s0 s) (h_accounts : Part.accounts ∈ ps) (x : Item) : Touches ps s0 (State.checkSlip s x).1 := by
  unfold State.checkSlip
  first
  | simp +contextual (maxDischargeDepth := 60) [*]; done
  | ((try dsimp only); (repeat' split) <;> simp +contextual (maxDischargeDepth := 60) [*])

@[simp] theorem touches_State_consumeOne {ps : List Part} {s0 s : State} (hk : Touches ps s0 s) (h_rings : Part.rings ∈ ps) (h_accounts : Part.accounts ∈ ps) (h_items : Part.items ∈ ps) (h_nextItem : Part.nextItem ∈ ps) (h_islands : Part.islands ∈ ps) (n : Nat) : Touches ps s0 (State.consumeOne s n) := by
  unfold State.consumeOne
  first
  | simp +contextual (maxDischargeDepth := 60) [*]; done
  | ((try dsimp only); (repeat' split) <;> simp +contextual (maxDischargeDepth := 60) [*])

@[simp] theorem touches_State_holdFallback {ps : List Part} {s0 s : State} (hk : Touches ps s0 s) (h_tensors : Part.tensors ∈ ps) (h : Nat) (f : Fmt) : Touches ps s0 (State.holdFallback s h f) := by
  unfold State.holdFallback
  first
  | simp +contextual (maxDischargeDepth := 60) [*]; done
  | ((try dsimp only); (repeat' split) <;> simp +contextual (maxDischargeDepth := 60) [*])

@[simp] theorem touches_digitalEffect {ps : List Part} {s0 s : State} (hk : Touches ps s0 s) (h_out : Part.out ∈ ps) (h_free : Part.free ∈ ps) (h_cmem : Part.cmem ∈ ps) (h_lastWrite : Part.lastWrite ∈ ps) (h_rings : Part.rings ∈ ps) (h_accounts : Part.accounts ∈ ps) (h_tensors : Part.tensors ∈ ps) (h_tallies : Part.tallies ∈ ps) (h_items : Part.items ∈ ps) (h_heldWaits : Part.heldWaits ∈ ps) (h_islands : Part.islands ∈ ps) (h_decks : Part.decks ∈ ps) (h_aabs : Part.aabs ∈ ps) (h_dtbs : Part.dtbs ∈ ps) (h_tellers : Part.tellers ∈ ps) (h_tickets : Part.tickets ∈ ps) (h_peers : Part.peers ∈ ps) (id : Nat) (x : Item) : Touches ps s0 (digitalEffect s id x) := by
  unfold digitalEffect
  first
  | simp +contextual (maxDischargeDepth := 60) [*]; done
  | ((try dsimp only); (repeat' split) <;> simp +contextual (maxDischargeDepth := 60) [*])

@[simp] theorem touches_State_convertTile {ps : List Part} {s0 s : State} (hk : Touches ps s0 s) (h_out : Part.out ∈ ps) (h_free : Part.free ∈ ps) (h_cmem : Part.cmem ∈ ps) (h_lastWrite : Part.lastWrite ∈ ps) (h_rings : Part.rings ∈ ps) (h_accounts : Part.accounts ∈ ps) (h_tensors : Part.tensors ∈ ps) (h_tallies : Part.tallies ∈ ps) (h_items : Part.items ∈ ps) (h_heldWaits : Part.heldWaits ∈ ps) (h_islands : Part.islands ∈ ps) (h_decks : Part.decks ∈ ps) (h_aabs : Part.aabs ∈ ps) (h_dtbs : Part.dtbs ∈ ps) (h_tellers : Part.tellers ∈ ps) (h_tickets : Part.tickets ∈ ps) (h_peers : Part.peers ∈ ps) (id : Nat) (x : Item) (tile : Nat) : Touches ps s0 (State.convertTile s id x tile) := by
  unfold State.convertTile
  first
  | simp +contextual (maxDischargeDepth := 60) [*]; done
  | ((try dsimp only); (repeat' split) <;> simp +contextual (maxDischargeDepth := 60) [*])

@[simp] theorem touches_dtbTileEffect {ps : List Part} {s0 s : State} (hk : Touches ps s0 s) (h_out : Part.out ∈ ps) (h_free : Part.free ∈ ps) (h_cmem : Part.cmem ∈ ps) (h_lastWrite : Part.lastWrite ∈ ps) (h_rings : Part.rings ∈ ps) (h_accounts : Part.accounts ∈ ps) (h_tensors : Part.tensors ∈ ps) (h_tallies : Part.tallies ∈ ps) (h_items : Part.items ∈ ps) (h_heldWaits : Part.heldWaits ∈ ps) (h_islands : Part.islands ∈ ps) (h_decks : Part.decks ∈ ps) (h_aabs : Part.aabs ∈ ps) (h_dtbs : Part.dtbs ∈ ps) (h_tellers : Part.tellers ∈ ps) (h_tickets : Part.tickets ∈ ps) (h_peers : Part.peers ∈ ps) (id tile : Nat) (x : Item) : Touches ps s0 (dtbTileEffect s id tile x) := by
  unfold dtbTileEffect
  first
  | simp +contextual (maxDischargeDepth := 60) [*]; done
  | ((try dsimp only); (repeat' split) <;> simp +contextual (maxDischargeDepth := 60) [*])

@[simp] theorem touches_State_dropWork {ps : List Part} {s0 s : State} (hk : Touches ps s0 s) (h_items : Part.items ∈ ps) (h_decks : Part.decks ∈ ps) (h_aabs : Part.aabs ∈ ps) (h_dtbs : Part.dtbs ∈ ps) (h_tellers : Part.tellers ∈ ps) (h_banks : Part.banks ∈ ps) (b : Nat) : Touches ps s0 (State.dropWork s b) := by
  unfold State.dropWork
  dsimp only
  split
  · have h1 : Touches ps s0 ((itemsOn s b).foldl (fun t id => { t with items := adjust t.items id (Item.redoTiles s) }) s) :=
      touches_foldl _ _ (by intro u a hu; simp +contextual (maxDischargeDepth := 60) [*]) hk
    generalize (itemsOn s b).foldl _ s = s1 at h1 ⊢
    simp +contextual (maxDischargeDepth := 60) [*]
  all_goals simp +contextual (maxDischargeDepth := 60) [*]

@[simp] theorem touches_State_strip {ps : List Part} {s0 s : State} (hk : Touches ps s0 s) (h_items : Part.items ∈ ps) (h_islands : Part.islands ∈ ps) (h_decks : Part.decks ∈ ps) (h_aabs : Part.aabs ∈ ps) (h_dtbs : Part.dtbs ∈ ps) (h_tellers : Part.tellers ∈ ps) (h_banks : Part.banks ∈ ps) (b : Nat) (ids : List Nat) : Touches ps s0 (State.strip s b ids) := by
  unfold State.strip
  first
  | simp +contextual (maxDischargeDepth := 60) [*]; done
  | ((try dsimp only); (repeat' split) <;> simp +contextual (maxDischargeDepth := 60) [*])

@[simp] theorem touches_State_fenceFor {ps : List Part} {s0 s : State} (hk : Touches ps s0 s) (h_flash : Part.flash ∈ ps) (h_items : Part.items ∈ ps) (h_islands : Part.islands ∈ ps) (h_decks : Part.decks ∈ ps) (h_aabs : Part.aabs ∈ ps) (h_dtbs : Part.dtbs ∈ ps) (h_tellers : Part.tellers ∈ ps) (h_banks : Part.banks ∈ ps) (h_recovering : Part.recovering ∈ ps) (h_recoveryQueue : Part.recoveryQueue ∈ ps) (b code : Nat) (ids : List Nat) : Touches ps s0 (State.fenceFor s b code ids) := by
  unfold State.fenceFor
  first
  | simp +contextual (maxDischargeDepth := 60) [*]; done
  | ((try dsimp only); (repeat' split) <;> simp +contextual (maxDischargeDepth := 60) [*])

@[simp] theorem touches_State_blockCheck {ps : List Part} {s0 s : State} (hk : Touches ps s0 s) (h_flash : Part.flash ∈ ps) (h_items : Part.items ∈ ps) (h_islands : Part.islands ∈ ps) (h_decks : Part.decks ∈ ps) (h_aabs : Part.aabs ∈ ps) (h_dtbs : Part.dtbs ∈ ps) (h_tellers : Part.tellers ∈ ps) (h_banks : Part.banks ∈ ps) (h_recovering : Part.recovering ∈ ps) (h_recoveryQueue : Part.recoveryQueue ∈ ps) (h_dumpDue : Part.dumpDue ∈ ps) (block account item : Nat) (c : BlockCheck) : Touches ps s0 (State.blockCheck s block account item c) := by
  unfold State.blockCheck
  first
  | simp +contextual (maxDischargeDepth := 60) [*]; done
  | ((try dsimp only); (repeat' split) <;> simp +contextual (maxDischargeDepth := 60) [*])

@[simp] theorem touches_State_endGroup {ps : List Part} {s0 s : State} (hk : Touches ps s0 s) (h_items : Part.items ∈ ps) (h_dtbs : Part.dtbs ∈ ps) (dtb item row col : Nat) (x : Item) (p : Product) (d : Dtb) : Touches ps s0 (State.endGroup s dtb item row col x p d) := by
  unfold State.endGroup
  first
  | simp +contextual (maxDischargeDepth := 60) [*]; done
  | ((try dsimp only); (repeat' split) <;> simp +contextual (maxDischargeDepth := 60) [*])

@[simp] theorem touches_tileInstruction {ps : List Part} {s0 s : State} (hk : Touches ps s0 s) (h_flash : Part.flash ∈ ps) (h_items : Part.items ∈ ps) (h_islands : Part.islands ∈ ps) (h_decks : Part.decks ∈ ps) (h_aabs : Part.aabs ∈ ps) (h_dtbs : Part.dtbs ∈ ps) (h_tellers : Part.tellers ∈ ps) (h_banks : Part.banks ∈ ps) (h_recovering : Part.recovering ∈ ps) (h_recoveryQueue : Part.recoveryQueue ∈ ps) (h_dumpDue : Part.dumpDue ∈ ps) (dtb item row col start n group cycle : Nat) (check : BlockCheck) (x : Item) : Touches ps s0 (tileInstruction dtb item row col start n group cycle check s x) := by
  unfold tileInstruction
  first
  | simp +contextual (maxDischargeDepth := 60) [*]; done
  | ((try dsimp only); (repeat' split) <;> simp +contextual (maxDischargeDepth := 60) [*])

@[simp] theorem touches_State_saveContext {ps : List Part} {s0 s : State} (hk : Touches ps s0 s) (h_items : Part.items ∈ ps) (h_islands : Part.islands ∈ ps) (h_dtbs : Part.dtbs ∈ ps) (dtb : Nat) : Touches ps s0 (State.saveContext s dtb) := by
  unfold State.saveContext
  first
  | simp +contextual (maxDischargeDepth := 60) [*]; done
  | ((try dsimp only); (repeat' split) <;> simp +contextual (maxDischargeDepth := 60) [*])

@[simp] theorem touches_restoreEffect {ps : List Part} {s0 s : State} (hk : Touches ps s0 s) (h_items : Part.items ∈ ps) (h_islands : Part.islands ∈ ps) (h_dtbs : Part.dtbs ∈ ps) (h_dumpDue : Part.dumpDue ∈ ps) (dtb item row col : Nat) (x : Item) : Touches ps s0 (restoreEffect dtb item row col s x) := by
  unfold restoreEffect
  first
  | simp +contextual (maxDischargeDepth := 60) [*]; done
  | ((try dsimp only); (repeat' split) <;> simp +contextual (maxDischargeDepth := 60) [*])

@[simp] theorem touches_State_countEvaluation {ps : List Part} {s0 s : State} (hk : Touches ps s0 s) (h_islands : Part.islands ∈ ps) (aab phases spilled clipped : Nat) : Touches ps s0 (State.countEvaluation s aab phases spilled clipped) := by
  unfold State.countEvaluation
  first
  | simp +contextual (maxDischargeDepth := 60) [*]; done
  | ((try dsimp only); (repeat' split) <;> simp +contextual (maxDischargeDepth := 60) [*])

@[simp] theorem touches_State_evaluate {ps : List Part} {s0 s : State} (hk : Touches ps s0 s) (h_free : Part.free ∈ ps) (h_islands : Part.islands ∈ ps) (h_decks : Part.decks ∈ ps) (x : Item) (b c : Tensor) (m : Nat) (p : TilePart) : Touches ps s0 (State.evaluate s x b c m p).1 := by
  unfold State.evaluate
  first
  | simp +contextual (maxDischargeDepth := 60) [*]; done
  | ((try dsimp only); (repeat' split) <;> simp +contextual (maxDischargeDepth := 60) [*])

@[simp] theorem touches_State_occupy {ps : List Part} {s0 s : State} (hk : Touches ps s0 s) (h_aabs : Part.aabs ∈ ps) (p : TilePart) (f : Fmt) (cycle planes phases : Nat) : Touches ps s0 (State.occupy s p f cycle planes phases) := by
  unfold State.occupy
  first
  | simp +contextual (maxDischargeDepth := 60) [*]; done
  | ((try dsimp only); (repeat' split) <;> simp +contextual (maxDischargeDepth := 60) [*])

@[simp] theorem touches_State_sequence {ps : List Part} {s0 s : State} (hk : Touches ps s0 s) (h_free : Part.free ∈ ps) (h_decks : Part.decks ∈ ps) (h_aabs : Part.aabs ∈ ps) (aab array cycle : Nat) : Touches ps s0 (State.sequence s aab array cycle) := by
  unfold State.sequence
  first
  | simp +contextual (maxDischargeDepth := 60) [*]; done
  | ((try dsimp only); (repeat' split) <;> simp +contextual (maxDischargeDepth := 60) [*])

theorem touches_takeCopy {ps : List Part} {s0 s t : State} (hk : Touches ps s0 s) (h_decks : Part.decks ∈ ps) {dn : Nat} {idle : Nat → Bool} (h : s.takeCopy dn idle = some t) : Touches ps s0 t := by
  unfold State.takeCopy at h
  dsimp only at h
  split at h
  · rw [← Option.some.inj h]; simp +contextual (maxDischargeDepth := 60) [*]
  · split at h
    · rw [← Option.some.inj h]; simp +contextual (maxDischargeDepth := 60) [*]
    · exact absurd h (by simp)

theorem touches_getD_state {ps : List Part} {s0 s : State} (hk : Touches ps s0 s) (o : Option State) (h : ∀ t, o = some t → Touches ps s0 t) : Touches ps s0 (o.getD s) := by
  cases o with
  | none => exact hk
  | some t => exact h t rfl

@[simp] theorem touches_State_evaluateNext {ps : List Part} {s0 s : State} (hk : Touches ps s0 s) (h_free : Part.free ∈ ps) (h_islands : Part.islands ∈ ps) (h_decks : Part.decks ∈ ps) (h_aabs : Part.aabs ∈ ps) (x : Item) (b c : Tensor) (m : Nat) (p : TilePart) : Touches ps s0 (State.evaluateNext s x b c m p).1 := by
  unfold State.evaluateNext
  dsimp only
  have h1 : Touches ps s0 (if referenceDue (lookup {} (s.aab (deckAab p.deck)).arrays (deckArray p.deck)) then
      s.sequence (deckAab p.deck) (deckArray p.deck) (nextStart (s.aab (deckAab p.deck)) (deckArray p.deck)) else s) := by
    split <;> simp +contextual (maxDischargeDepth := 60) [*]
  generalize (if referenceDue (lookup {} (s.aab (deckAab p.deck)).arrays (deckArray p.deck)) then
      s.sequence (deckAab p.deck) (deckArray p.deck) (nextStart (s.aab (deckAab p.deck)) (deckArray p.deck)) else s) = s1 at h1 ⊢
  have h2 := touches_State_setAab h1 (by assumption) (deckAab p.deck) (rampDown (nextStart (s1.aab (deckAab p.deck)) (deckArray p.deck)) (s1.aab (deckAab p.deck)))
  generalize s1.setAab (deckAab p.deck) (rampDown (nextStart (s1.aab (deckAab p.deck)) (deckArray p.deck)) (s1.aab (deckAab p.deck))) = s2 at h2 ⊢
  have h3 := touches_getD_state h2 (s2.takeCopy p.deck fun _ => true) fun t ht => touches_takeCopy h2 (by assumption) ht
  simp +contextual (maxDischargeDepth := 60) [*]

@[simp] theorem touches_evaluateAll {ps : List Part} {s0 s : State} (hk : Touches ps s0 s) (h_free : Part.free ∈ ps) (h_islands : Part.islands ∈ ps) (h_decks : Part.decks ∈ ps) (h_aabs : Part.aabs ∈ ps) (b c : Tensor) (parts : List TilePart) (x : Item) : Touches ps s0 (evaluateAll b c parts s x).1 := by
  unfold evaluateAll
  refine touches_foldl_fst _ _ ?_ hk
  intro q m hq
  refine touches_foldl_fst _ _ ?_ hq
  intro r a hr
  split <;> simp +contextual (maxDischargeDepth := 60) [*]

@[simp] theorem touches_State_forwardValues {ps : List Part} {s0 s : State} (hk : Touches ps s0 s) (h_free : Part.free ∈ ps) (h_tensors : Part.tensors ∈ ps) (h_items : Part.items ∈ ps) (h_islands : Part.islands ∈ ps) (h_decks : Part.decks ∈ ps) (h_aabs : Part.aabs ∈ ps) (id : Nat) (x : Item) (b c out : Tensor) (homeless : Bool) : Touches ps s0 (State.forwardValues s id x b c out homeless) := by
  unfold State.forwardValues
  first
  | simp +contextual (maxDischargeDepth := 60) [*]; done
  | ((try dsimp only); (repeat' split) <;> simp +contextual (maxDischargeDepth := 60) [*])

@[simp] theorem touches_forwardEffect {ps : List Part} {s0 s : State} (hk : Touches ps s0 s) (h_out : Part.out ∈ ps) (h_free : Part.free ∈ ps) (h_cmem : Part.cmem ∈ ps) (h_lastWrite : Part.lastWrite ∈ ps) (h_rings : Part.rings ∈ ps) (h_accounts : Part.accounts ∈ ps) (h_tensors : Part.tensors ∈ ps) (h_tallies : Part.tallies ∈ ps) (h_items : Part.items ∈ ps) (h_heldWaits : Part.heldWaits ∈ ps) (h_islands : Part.islands ∈ ps) (h_decks : Part.decks ∈ ps) (h_aabs : Part.aabs ∈ ps) (h_dtbs : Part.dtbs ∈ ps) (h_tellers : Part.tellers ∈ ps) (h_tickets : Part.tickets ∈ ps) (h_peers : Part.peers ∈ ps) (id : Nat) (x : Item) : Touches ps s0 (forwardEffect s id x) := by
  unfold forwardEffect
  first
  | simp +contextual (maxDischargeDepth := 60) [*]; done
  | ((try dsimp only); (repeat' split) <;> simp +contextual (maxDischargeDepth := 60) [*])

@[simp] theorem touches_outputTile {ps : List Part} {s0 s : State} (hk : Touches ps s0 s) (h_out : Part.out ∈ ps) (h_free : Part.free ∈ ps) (h_cmem : Part.cmem ∈ ps) (h_lastWrite : Part.lastWrite ∈ ps) (h_rings : Part.rings ∈ ps) (h_accounts : Part.accounts ∈ ps) (h_tensors : Part.tensors ∈ ps) (h_tallies : Part.tallies ∈ ps) (h_items : Part.items ∈ ps) (h_heldWaits : Part.heldWaits ∈ ps) (h_islands : Part.islands ∈ ps) (h_decks : Part.decks ∈ ps) (h_aabs : Part.aabs ∈ ps) (h_dtbs : Part.dtbs ∈ ps) (h_tellers : Part.tellers ∈ ps) (h_tickets : Part.tickets ∈ ps) (h_peers : Part.peers ∈ ps) (id tile : Nat) (x : Item) : Touches ps s0 (outputTile s id tile x) := by
  unfold outputTile
  first
  | simp +contextual (maxDischargeDepth := 60) [*]; done
  | ((try dsimp only); (repeat' split) <;> simp +contextual (maxDischargeDepth := 60) [*])

@[simp] theorem touches_State_evaluateIssued {ps : List Part} {s0 s : State} (hk : Touches ps s0 s) (h_free : Part.free ∈ ps) (h_flash : Part.flash ∈ ps) (h_items : Part.items ∈ ps) (h_islands : Part.islands ∈ ps) (h_decks : Part.decks ∈ ps) (h_aabs : Part.aabs ∈ ps) (h_dtbs : Part.dtbs ∈ ps) (h_tellers : Part.tellers ∈ ps) (h_banks : Part.banks ∈ ps) (h_recovering : Part.recovering ∈ ps) (h_recoveryQueue : Part.recoveryQueue ∈ ps) (h_dumpDue : Part.dumpDue ∈ ps) (aab w vector cycle : Nat) (check : BlockCheck) (x : Item) (b c : Tensor) (p : TilePart) : Touches ps s0 (State.evaluateIssued s aab w vector cycle check x b c p) := by
  unfold State.evaluateIssued
  dsimp only
  have h1 := touches_State_setAab hk (by assumption) aab ((s.drained cycle (rampDown cycle (s.aab aab))))
  split
  · exact h1
  · exact h1
  · rename_i t _ ht _
    have h2 := touches_takeCopy h1 (by assumption) ht
    split
    · simp +contextual (maxDischargeDepth := 60) [*]
    · simp +contextual (maxDischargeDepth := 60) [*]

@[simp] theorem touches_issueEffect {ps : List Part} {s0 s : State} (hk : Touches ps s0 s) (h_free : Part.free ∈ ps) (h_flash : Part.flash ∈ ps) (h_items : Part.items ∈ ps) (h_islands : Part.islands ∈ ps) (h_decks : Part.decks ∈ ps) (h_aabs : Part.aabs ∈ ps) (h_dtbs : Part.dtbs ∈ ps) (h_tellers : Part.tellers ∈ ps) (h_banks : Part.banks ∈ ps) (h_recovering : Part.recovering ∈ ps) (h_recoveryQueue : Part.recoveryQueue ∈ ps) (h_dumpDue : Part.dumpDue ∈ ps) (aab w vector cycle : Nat) (check : BlockCheck) : Touches ps s0 (issueEffect aab w vector cycle check s) := by
  unfold issueEffect
  first
  | simp +contextual (maxDischargeDepth := 60) [*]; done
  | ((try dsimp only); (repeat' split) <;> simp +contextual (maxDischargeDepth := 60) [*])

@[simp] theorem touches_State_debasedFault {ps : List Part} {s0 s : State} (hk : Touches ps s0 s) (h_islands : Part.islands ∈ ps) (h_dumpDue : Part.dumpDue ∈ ps) (dn row pulses : Nat) : Touches ps s0 (State.debasedFault s dn row pulses) := by
  unfold State.debasedFault
  first
  | simp +contextual (maxDischargeDepth := 60) [*]; done
  | ((try dsimp only); (repeat' split) <;> simp +contextual (maxDischargeDepth := 60) [*])

@[simp] theorem touches_State_wearRow {ps : List Part} {s0 s : State} (hk : Touches ps s0 s) (h_islands : Part.islands ∈ ps) (h_decks : Part.decks ∈ ps) (h_dumpDue : Part.dumpDue ∈ ps) (dn row : Nat) (w w' : Wear) : Touches ps s0 (State.wearRow s dn row w w') := by
  unfold State.wearRow
  first
  | simp +contextual (maxDischargeDepth := 60) [*]; done
  | ((try dsimp only); (repeat' split) <;> simp +contextual (maxDischargeDepth := 60) [*])

@[simp] theorem touches_State_programCodes {ps : List Part} {s0 s : State} (hk : Touches ps s0 s) (h_islands : Part.islands ∈ ps) (h_decks : Part.decks ∈ ps) (h_dumpDue : Part.dumpDue ∈ ps) (dn row n : Nat) (f : Fmt) (codes : List (Nat × Int)) (spend : Bool) : Touches ps s0 (State.programCodes s dn row n f codes spend) := by
  unfold State.programCodes
  first
  | simp +contextual (maxDischargeDepth := 60) [*]; done
  | ((try dsimp only); (repeat' split) <;> simp +contextual (maxDischargeDepth := 60) [*])

@[simp] theorem touches_State_newStruck {ps : List Part} {s0 s : State} (hk : Touches ps s0 s) (h_tensors : Part.tensors ∈ ps) (dn : Nat) : Touches ps s0 (State.newStruck s dn) := by
  unfold State.newStruck
  first
  | simp +contextual (maxDischargeDepth := 60) [*]; done
  | ((try dsimp only); (repeat' split) <;> simp +contextual (maxDischargeDepth := 60) [*])

@[simp] theorem touches_State_applyMeasured {ps : List Part} {s0 s : State} (hk : Touches ps s0 s) (h_tensors : Part.tensors ∈ ps) (h_decks : Part.decks ∈ ps) (dn : Nat) : Touches ps s0 (State.applyMeasured s dn) := by
  unfold State.applyMeasured
  first
  | simp +contextual (maxDischargeDepth := 60) [*]; done
  | ((try dsimp only); (repeat' split) <;> simp +contextual (maxDischargeDepth := 60) [*])

@[simp] theorem touches_State_bindDeck {ps : List Part} {s0 s : State} (hk : Touches ps s0 s) (h_tensors : Part.tensors ∈ ps) (h_decks : Part.decks ∈ ps) (h : Nat) (t : Tensor) (tile : Nat) (p : TilePart) : Touches ps s0 (State.bindDeck s h t tile p) := by
  unfold State.bindDeck
  first
  | simp +contextual (maxDischargeDepth := 60) [*]; done
  | ((try dsimp only); (repeat' split) <;> simp +contextual (maxDischargeDepth := 60) [*])

theorem touches_placeRows {ps : List Part} {s0 : State} (h_free : Part.free ∈ ps) (h_tensors : Part.tensors ∈ ps) (h_decks : Part.decks ∈ ps) (hd : Nat) (t : Tensor) (tile c0 cs n : Nat) : ∀ {first rows : Nat} {s : State} (_ : Touches ps s0 s)
    {r : State × List TilePart} (_ : placeRows hd t tile c0 cs n first rows s = some r), Touches ps s0 r.1 := by
  induction n with
  | zero =>
    intro first rows s h r hr
    rw [placeRows] at hr
    split at hr
    · rw [← Option.some.inj hr]; exact h
    · exact absurd hr (by simp)
  | succ n ih =>
    intro first rows s h r hr
    rw [placeRows] at hr
    split at hr
    · rw [← Option.some.inj hr]; exact h
    · split at hr
      · exact absurd hr (by simp)
      · dsimp only at hr
        split at hr
        · exact absurd hr (by simp)
        · rename_i q hq
          rw [← Option.some.inj hr]
          have hq2 := ih (r := q) (by simp +contextual (maxDischargeDepth := 60) [*]) hq
          exact hq2

theorem touches_getD {ps : List Part} {s0 s : State} (hk : Touches ps s0 s) (o : Option (State × List TilePart)) (h : ∀ r, o = some r → Touches ps s0 r.1) :
    Touches ps s0 (o.getD (s, [])).1 := by
  cases o with
  | none => exact hk
  | some r => exact h r rfl

@[simp] theorem touches_State_placeTile {ps : List Part} {s0 s : State} (hk : Touches ps s0 s) (h_free : Part.free ∈ ps) (h_tensors : Part.tensors ∈ ps) (h_decks : Part.decks ∈ ps) (h : Nat) (t : Tensor) (tile : Nat) : Touches ps s0 (State.placeTile s h t tile).1 := by
  unfold State.placeTile
  exact touches_getD hk _ fun r hr => touches_placeRows (by assumption) (by assumption) (by assumption) _ _ _ _ _ _ hk hr

@[simp] theorem touches_State_releaseDeck {ps : List Part} {s0 s : State} (hk : Touches ps s0 s) (h_decks : Part.decks ∈ ps) (dn : Nat) : Touches ps s0 (State.releaseDeck s dn) := by
  unfold State.releaseDeck
  first
  | simp +contextual (maxDischargeDepth := 60) [*]; done
  | ((try dsimp only); (repeat' split) <;> simp +contextual (maxDischargeDepth := 60) [*])

@[simp] theorem touches_State_placeWeight {ps : List Part} {s0 s : State} (hk : Touches ps s0 s) (h_free : Part.free ∈ ps) (h_tensors : Part.tensors ∈ ps) (h_decks : Part.decks ∈ ps) (h : Nat) (t : Tensor) : Touches ps s0 (State.placeWeight s h t).1 := by
  unfold State.placeWeight
  dsimp only
  refine touches_foldl_fst _ _ ?_ ?_
  · intro q a hq
    split <;> simp +contextual (maxDischargeDepth := 60) [*]
  · refine touches_foldl_fst _ _ ?_ ?_
    · intro q a hq
      unfold attachOne
      simp +contextual (maxDischargeDepth := 60) [*]
    · exact touches_foldl _ _ (by intro t a ht; simp +contextual (maxDischargeDepth := 60) [*]) hk

@[simp] theorem touches_State_readTj {ps : List Part} {s0 s : State} (hk : Touches ps s0 s) (h_islands : Part.islands ∈ ps) (dn : Nat) (tj : Int) : Touches ps s0 (State.readTj s dn tj) := by
  unfold State.readTj
  first
  | simp +contextual (maxDischargeDepth := 60) [*]; done
  | ((try dsimp only); (repeat' split) <;> simp +contextual (maxDischargeDepth := 60) [*])

@[simp] theorem touches_State_driftFault {ps : List Part} {s0 s : State} (hk : Touches ps s0 s) (h_islands : Part.islands ∈ ps) (h_dumpDue : Part.dumpDue ∈ ps) (dn : Nat) (drift : Nat × Nat) : Touches ps s0 (State.driftFault s dn drift) := by
  unfold State.driftFault
  first
  | simp +contextual (maxDischargeDepth := 60) [*]; done
  | ((try dsimp only); (repeat' split) <;> simp +contextual (maxDischargeDepth := 60) [*])

@[simp] theorem touches_State_assayDeck {ps : List Part} {s0 s : State} (hk : Touches ps s0 s) (h_free : Part.free ∈ ps) (h_islands : Part.islands ∈ ps) (h_decks : Part.decks ∈ ps) (h_dumpDue : Part.dumpDue ∈ ps) (dn t : Nat) (tj : Int) : Touches ps s0 (State.assayDeck s dn t tj) := by
  unfold State.assayDeck
  first
  | simp +contextual (maxDischargeDepth := 60) [*]; done
  | ((try dsimp only); (repeat' split) <;> simp +contextual (maxDischargeDepth := 60) [*])

@[simp] theorem touches_State_zeroDeck {ps : List Part} {s0 s : State} (hk : Touches ps s0 s) (h_free : Part.free ∈ ps) (h_islands : Part.islands ∈ ps) (h_decks : Part.decks ∈ ps) (h_dumpDue : Part.dumpDue ∈ ps) (dn t : Nat) : Touches ps s0 (State.zeroDeck s dn t) := by
  unfold State.zeroDeck
  first
  | simp +contextual (maxDischargeDepth := 60) [*]; done
  | ((try dsimp only); (repeat' split) <;> simp +contextual (maxDischargeDepth := 60) [*])

@[simp] theorem touches_State_moveTile {ps : List Part} {s0 s : State} (hk : Touches ps s0 s) (h_free : Part.free ∈ ps) (h_tensors : Part.tensors ∈ ps) (h_islands : Part.islands ∈ ps) (h_decks : Part.decks ∈ ps) (h_dumpDue : Part.dumpDue ∈ ps) (dn new : Nat) (h tile : Nat) (p : TilePart) (t : Tensor) : Touches ps s0 (State.moveTile s dn new h tile p t) := by
  unfold State.moveTile
  first
  | simp +contextual (maxDischargeDepth := 60) [*]; done
  | ((try dsimp only); (repeat' split) <;> simp +contextual (maxDischargeDepth := 60) [*])

@[simp] theorem touches_State_writeWear {ps : List Part} {s0 s : State} (hk : Touches ps s0 s) (h_flash : Part.flash ∈ ps) (h_decks : Part.decks ∈ ps) (t : Nat) : Touches ps s0 (State.writeWear s t) := by
  unfold State.writeWear
  first
  | simp +contextual (maxDischargeDepth := 60) [*]; done
  | ((try dsimp only); (repeat' split) <;> simp +contextual (maxDischargeDepth := 60) [*])

@[simp] theorem touches_settleRowStep {ps : List Part} {s0 s : State} (hk : Touches ps s0 s) (h_islands : Part.islands ∈ ps) (h_decks : Part.decks ∈ ps) (h_dumpDue : Part.dumpDue ∈ ps) (t m : Tensor) (p : TilePart) (n : Nat) (k : Nat) : Touches ps s0 (settleRowStep t m p n s k) := by
  unfold settleRowStep
  first
  | simp +contextual (maxDischargeDepth := 60) [*]; done
  | ((try dsimp only); (repeat' split) <;> simp +contextual (maxDischargeDepth := 60) [*])

@[simp] theorem touches_State_settlePart {ps : List Part} {s0 s : State} (hk : Touches ps s0 s) (h_free : Part.free ∈ ps) (h_tensors : Part.tensors ∈ ps) (h_islands : Part.islands ∈ ps) (h_decks : Part.decks ∈ ps) (h_dumpDue : Part.dumpDue ∈ ps) (h : Nat) (m : Tensor) (new : Table F32) (p : TilePart) : Touches ps s0 (State.settlePart s h m new p) := by
  unfold State.settlePart
  first
  | simp +contextual (maxDischargeDepth := 60) [*]; done
  | ((try dsimp only); (repeat' split) <;> simp +contextual (maxDischargeDepth := 60) [*])

@[simp] theorem touches_State_deferTile {ps : List Part} {s0 s : State} (hk : Touches ps s0 s) (h_islands : Part.islands ∈ ps) (t m : Tensor) (tile : Nat) : Touches ps s0 (State.deferTile s t m tile) := by
  unfold State.deferTile
  first
  | simp +contextual (maxDischargeDepth := 60) [*]; done
  | ((try dsimp only); (repeat' split) <;> simp +contextual (maxDischargeDepth := 60) [*])

theorem touches_settleParts {ps : List Part} {s0 : State} (h_free : Part.free ∈ ps) (h_tensors : Part.tensors ∈ ps) (h_islands : Part.islands ∈ ps) (h_decks : Part.decks ∈ ps) (h_dumpDue : Part.dumpDue ∈ ps) (h : Nat) (m : Tensor) (new : Table F32) (l : List TilePart) {q : State × List Nat} (hq : Touches ps s0 q.1) :
    Touches ps s0 (l.foldl (fun r p => (r.1.settlePart h m new p, insertNat r.2 p.deck)) q).1 :=
  touches_foldl_fst _ _ (fun r p hr => by simp +contextual (maxDischargeDepth := 60) [*]) hq

theorem touches_rehome {ps : List Part} {s0 : State} (h_free : Part.free ∈ ps) (h_tensors : Part.tensors ∈ ps) (h_decks : Part.decks ∈ ps) (hd : Nat) (q : State × Tensor) (tile : Nat) (h : Touches ps s0 q.1) : Touches ps s0 (rehome hd q tile).1 := by
  unfold rehome
  split
  · exact h
  · dsimp only
    split
    · exact h
    · exact touches_foldl _ _ (by intro t a ht; simp +contextual (maxDischargeDepth := 60) [*]) (by simp +contextual (maxDischargeDepth := 60) [*])

@[simp] theorem touches_settleTile {ps : List Part} {s0 s : State} (hk : Touches ps s0 s) (h_free : Part.free ∈ ps) (h_tensors : Part.tensors ∈ ps) (h_islands : Part.islands ∈ ps) (h_decks : Part.decks ∈ ps) (h_dumpDue : Part.dumpDue ∈ ps) (h : Nat) (t m : Tensor) (new : Table F32) (settled : List Nat) (tile : Nat) : Touches ps s0 (settleTile s h t m new settled tile).1 := by
  unfold settleTile
  dsimp only
  split
  · split
    · simp +contextual (maxDischargeDepth := 60) [*]
    · exact hk
  · exact touches_settleParts (by assumption) (by assumption) (by assumption) (by assumption) (by assumption) _ _ _ _ (touches_State_setTensor (touches_rehome (by assumption) (by assumption) (by assumption) _ _ _ hk) (by assumption) _ _)

@[simp] theorem touches_State_settleRest {ps : List Part} {s0 s : State} (hk : Touches ps s0 s) (h_tensors : Part.tensors ∈ ps) (h_islands : Part.islands ∈ ps) (h : Nat) (t m : Tensor) (new : Table F32) : Touches ps s0 (State.settleRest s h t m new) := by
  unfold State.settleRest
  first
  | simp +contextual (maxDischargeDepth := 60) [*]; done
  | ((try dsimp only); (repeat' split) <;> simp +contextual (maxDischargeDepth := 60) [*])

@[simp] theorem touches_State_refit {ps : List Part} {s0 s : State} (hk : Touches ps s0 s) (h_out : Part.out ∈ ps) (h_free : Part.free ∈ ps) (h_cmem : Part.cmem ∈ ps) (h_lastWrite : Part.lastWrite ∈ ps) (h_rings : Part.rings ∈ ps) (h_accounts : Part.accounts ∈ ps) (h_tensors : Part.tensors ∈ ps) (h_tallies : Part.tallies ∈ ps) (h_items : Part.items ∈ ps) (h_heldWaits : Part.heldWaits ∈ ps) (h_islands : Part.islands ∈ ps) (h_decks : Part.decks ∈ ps) (h_aabs : Part.aabs ∈ ps) (h_dtbs : Part.dtbs ∈ ps) (h_tellers : Part.tellers ∈ ps) (h_tickets : Part.tickets ∈ ps) (h_peers : Part.peers ∈ ps) (id : Nat) (x : Item) (t m : Tensor) : Touches ps s0 (State.refit s id x t m) := by
  unfold State.refit
  first
  | simp +contextual (maxDischargeDepth := 60) [*]; done
  | ((try dsimp only); (repeat' split) <;> simp +contextual (maxDischargeDepth := 60) [*])

@[simp] theorem touches_State_settleEnd {ps : List Part} {s0 s : State} (hk : Touches ps s0 s) (h_out : Part.out ∈ ps) (h_free : Part.free ∈ ps) (h_cmem : Part.cmem ∈ ps) (h_lastWrite : Part.lastWrite ∈ ps) (h_rings : Part.rings ∈ ps) (h_accounts : Part.accounts ∈ ps) (h_tensors : Part.tensors ∈ ps) (h_tallies : Part.tallies ∈ ps) (h_items : Part.items ∈ ps) (h_heldWaits : Part.heldWaits ∈ ps) (h_islands : Part.islands ∈ ps) (h_decks : Part.decks ∈ ps) (h_aabs : Part.aabs ∈ ps) (h_dtbs : Part.dtbs ∈ ps) (h_tellers : Part.tellers ∈ ps) (h_tickets : Part.tickets ∈ ps) (h_peers : Part.peers ∈ ps) (id h : Nat) (x : Item) (m : Tensor) : Touches ps s0 (State.settleEnd s id h x m) := by
  unfold State.settleEnd
  first
  | simp +contextual (maxDischargeDepth := 60) [*]; done
  | ((try dsimp only); (repeat' split) <;> simp +contextual (maxDischargeDepth := 60) [*])

@[simp] theorem touches_settleEffect {ps : List Part} {s0 s : State} (hk : Touches ps s0 s) (h_out : Part.out ∈ ps) (h_free : Part.free ∈ ps) (h_cmem : Part.cmem ∈ ps) (h_lastWrite : Part.lastWrite ∈ ps) (h_rings : Part.rings ∈ ps) (h_accounts : Part.accounts ∈ ps) (h_tensors : Part.tensors ∈ ps) (h_tallies : Part.tallies ∈ ps) (h_items : Part.items ∈ ps) (h_heldWaits : Part.heldWaits ∈ ps) (h_islands : Part.islands ∈ ps) (h_decks : Part.decks ∈ ps) (h_aabs : Part.aabs ∈ ps) (h_dtbs : Part.dtbs ∈ ps) (h_tellers : Part.tellers ∈ ps) (h_tickets : Part.tickets ∈ ps) (h_peers : Part.peers ∈ ps) (h_dumpDue : Part.dumpDue ∈ ps) (id : Nat) (x : Item) : Touches ps s0 (settleEffect s id x) := by
  unfold settleEffect
  first
  | simp +contextual (maxDischargeDepth := 60) [*]; done
  | ((try dsimp only); (repeat' split) <;> simp +contextual (maxDischargeDepth := 60) [*])

@[simp] theorem touches_State_afterConversion {ps : List Part} {s0 s go : State} (hk : Touches ps s0 s) (hg : Touches ps s0 go) (h_out : Part.out ∈ ps) (h_free : Part.free ∈ ps) (h_cmem : Part.cmem ∈ ps) (h_lastWrite : Part.lastWrite ∈ ps) (h_rings : Part.rings ∈ ps) (h_accounts : Part.accounts ∈ ps) (h_tensors : Part.tensors ∈ ps) (h_tallies : Part.tallies ∈ ps) (h_items : Part.items ∈ ps) (h_heldWaits : Part.heldWaits ∈ ps) (h_islands : Part.islands ∈ ps) (h_decks : Part.decks ∈ ps) (h_aabs : Part.aabs ∈ ps) (h_dtbs : Part.dtbs ∈ ps) (h_tellers : Part.tellers ∈ ps) (h_tickets : Part.tickets ∈ ps) (h_peers : Part.peers ∈ ps) (id : Nat) (y : Item) :
    Touches ps s0 (s.afterConversion id y go) := by
  unfold State.afterConversion
  split <;> simp +contextual (maxDischargeDepth := 60) [*]

@[simp] theorem touches_copyConverted {ps : List Part} {s0 s : State} (hk : Touches ps s0 s) (h_out : Part.out ∈ ps) (h_free : Part.free ∈ ps) (h_cmem : Part.cmem ∈ ps) (h_lastWrite : Part.lastWrite ∈ ps) (h_rings : Part.rings ∈ ps) (h_accounts : Part.accounts ∈ ps) (h_tensors : Part.tensors ∈ ps) (h_tallies : Part.tallies ∈ ps) (h_items : Part.items ∈ ps) (h_heldWaits : Part.heldWaits ∈ ps) (h_islands : Part.islands ∈ ps) (h_decks : Part.decks ∈ ps) (h_aabs : Part.aabs ∈ ps) (h_dtbs : Part.dtbs ∈ ps) (h_tellers : Part.tellers ∈ ps) (h_tickets : Part.tickets ∈ ps) (h_peers : Part.peers ∈ ps) (id : Nat) (x : Item) (a b : Tensor) : Touches ps s0 (copyConverted s id x a b) := by
  unfold copyConverted
  first
  | simp +contextual (maxDischargeDepth := 60) [*]; done
  | ((try dsimp only); (repeat' split) <;> simp +contextual (maxDischargeDepth := 60) [*])

@[simp] theorem touches_copyEffect {ps : List Part} {s0 s : State} (hk : Touches ps s0 s) (h_out : Part.out ∈ ps) (h_free : Part.free ∈ ps) (h_cmem : Part.cmem ∈ ps) (h_lastWrite : Part.lastWrite ∈ ps) (h_rings : Part.rings ∈ ps) (h_accounts : Part.accounts ∈ ps) (h_tensors : Part.tensors ∈ ps) (h_tallies : Part.tallies ∈ ps) (h_items : Part.items ∈ ps) (h_heldWaits : Part.heldWaits ∈ ps) (h_islands : Part.islands ∈ ps) (h_decks : Part.decks ∈ ps) (h_aabs : Part.aabs ∈ ps) (h_dtbs : Part.dtbs ∈ ps) (h_tellers : Part.tellers ∈ ps) (h_tickets : Part.tickets ∈ ps) (h_peers : Part.peers ∈ ps) (id : Nat) (x : Item) : Touches ps s0 (copyEffect s id x) := by
  unfold copyEffect
  first
  | simp +contextual (maxDischargeDepth := 60) [*]; done
  | ((try dsimp only); (repeat' split) <;> simp +contextual (maxDischargeDepth := 60) [*])

@[simp] theorem touches_loadTensorEffect {ps : List Part} {s0 s : State} (hk : Touches ps s0 s) (h_out : Part.out ∈ ps) (h_free : Part.free ∈ ps) (h_cmem : Part.cmem ∈ ps) (h_lastWrite : Part.lastWrite ∈ ps) (h_rings : Part.rings ∈ ps) (h_accounts : Part.accounts ∈ ps) (h_tensors : Part.tensors ∈ ps) (h_tallies : Part.tallies ∈ ps) (h_items : Part.items ∈ ps) (h_heldWaits : Part.heldWaits ∈ ps) (h_islands : Part.islands ∈ ps) (h_decks : Part.decks ∈ ps) (h_aabs : Part.aabs ∈ ps) (h_dtbs : Part.dtbs ∈ ps) (h_tellers : Part.tellers ∈ ps) (h_tickets : Part.tickets ∈ ps) (h_peers : Part.peers ∈ ps) (h_dumpDue : Part.dumpDue ∈ ps) (id : Nat) (x : Item) : Touches ps s0 (loadTensorEffect s id x) := by
  unfold loadTensorEffect
  first
  | simp +contextual (maxDischargeDepth := 60) [*]; done
  | ((try dsimp only); (repeat' split) <;> simp +contextual (maxDischargeDepth := 60) [*])

@[simp] theorem touches_storeConverted {ps : List Part} {s0 s : State} (hk : Touches ps s0 s) (h_out : Part.out ∈ ps) (h_free : Part.free ∈ ps) (h_cmem : Part.cmem ∈ ps) (h_lastWrite : Part.lastWrite ∈ ps) (h_rings : Part.rings ∈ ps) (h_accounts : Part.accounts ∈ ps) (h_tensors : Part.tensors ∈ ps) (h_tallies : Part.tallies ∈ ps) (h_items : Part.items ∈ ps) (h_heldWaits : Part.heldWaits ∈ ps) (h_islands : Part.islands ∈ ps) (h_decks : Part.decks ∈ ps) (h_aabs : Part.aabs ∈ ps) (h_dtbs : Part.dtbs ∈ ps) (h_tellers : Part.tellers ∈ ps) (h_tickets : Part.tickets ∈ ps) (h_peers : Part.peers ∈ ps) (id : Nat) (x : Item) (b : Tensor) (f : Fmt) : Touches ps s0 (storeConverted s id x b f) := by
  unfold storeConverted
  first
  | simp +contextual (maxDischargeDepth := 60) [*]; done
  | ((try dsimp only); (repeat' split) <;> simp +contextual (maxDischargeDepth := 60) [*])

@[simp] theorem touches_storeEffect {ps : List Part} {s0 s : State} (hk : Touches ps s0 s) (h_out : Part.out ∈ ps) (h_free : Part.free ∈ ps) (h_cmem : Part.cmem ∈ ps) (h_lastWrite : Part.lastWrite ∈ ps) (h_rings : Part.rings ∈ ps) (h_accounts : Part.accounts ∈ ps) (h_tensors : Part.tensors ∈ ps) (h_tallies : Part.tallies ∈ ps) (h_items : Part.items ∈ ps) (h_heldWaits : Part.heldWaits ∈ ps) (h_islands : Part.islands ∈ ps) (h_decks : Part.decks ∈ ps) (h_aabs : Part.aabs ∈ ps) (h_dtbs : Part.dtbs ∈ ps) (h_tellers : Part.tellers ∈ ps) (h_tickets : Part.tickets ∈ ps) (h_peers : Part.peers ∈ ps) (id : Nat) (x : Item) : Touches ps s0 (storeEffect s id x) := by
  unfold storeEffect
  first
  | simp +contextual (maxDischargeDepth := 60) [*]; done
  | ((try dsimp only); (repeat' split) <;> simp +contextual (maxDischargeDepth := 60) [*])

@[simp] theorem touches_declareEffect {ps : List Part} {s0 s : State} (hk : Touches ps s0 s) (h_out : Part.out ∈ ps) (h_free : Part.free ∈ ps) (h_cmem : Part.cmem ∈ ps) (h_lastWrite : Part.lastWrite ∈ ps) (h_rings : Part.rings ∈ ps) (h_accounts : Part.accounts ∈ ps) (h_tensors : Part.tensors ∈ ps) (h_tallies : Part.tallies ∈ ps) (h_items : Part.items ∈ ps) (h_heldWaits : Part.heldWaits ∈ ps) (h_islands : Part.islands ∈ ps) (h_decks : Part.decks ∈ ps) (h_aabs : Part.aabs ∈ ps) (h_dtbs : Part.dtbs ∈ ps) (h_tellers : Part.tellers ∈ ps) (h_tickets : Part.tickets ∈ ps) (h_peers : Part.peers ∈ ps) (id : Nat) (x : Item) : Touches ps s0 (declareEffect s id x) := by
  unfold declareEffect
  first
  | simp +contextual (maxDischargeDepth := 60) [*]; done
  | ((try dsimp only); (repeat' split) <;> simp +contextual (maxDischargeDepth := 60) [*])

@[simp] theorem touches_State_removeObject {ps : List Part} {s0 s : State} (hk : Touches ps s0 s) (h_tensors : Part.tensors ∈ ps) (h_tallies : Part.tallies ∈ ps) (h_images : Part.images ∈ ps) (h_decks : Part.decks ∈ ps) (h_tellers : Part.tellers ∈ ps) (h_hbmStacks : Part.hbmStacks ∈ ps) (h : Nat) : Touches ps s0 (State.removeObject s h) := by
  unfold State.removeObject
  first
  | simp +contextual (maxDischargeDepth := 60) [*]; done
  | ((try dsimp only); (repeat' split) <;> simp +contextual (maxDischargeDepth := 60) [*])

@[simp] theorem touches_State_retiring {ps : List Part} {s0 s : State} (hk : Touches ps s0 s) (h_tallies : Part.tallies ∈ ps) (h : Nat) : Touches ps s0 (State.retiring s h) := by
  unfold State.retiring
  first
  | simp +contextual (maxDischargeDepth := 60) [*]; done
  | ((try dsimp only); (repeat' split) <;> simp +contextual (maxDischargeDepth := 60) [*])

@[simp] theorem touches_retireEffect {ps : List Part} {s0 s : State} (hk : Touches ps s0 s) (h_tensors : Part.tensors ∈ ps) (h_tallies : Part.tallies ∈ ps) (h_images : Part.images ∈ ps) (h_items : Part.items ∈ ps) (h_decks : Part.decks ∈ ps) (h_tellers : Part.tellers ∈ ps) (h_hbmStacks : Part.hbmStacks ∈ ps) (id : Nat) (x : Item) : Touches ps s0 (retireEffect s id x) := by
  unfold retireEffect
  first
  | simp +contextual (maxDischargeDepth := 60) [*]; done
  | ((try dsimp only); (repeat' split) <;> simp +contextual (maxDischargeDepth := 60) [*])

@[simp] theorem touches_loadImageEffect {ps : List Part} {s0 s : State} (hk : Touches ps s0 s) (h_out : Part.out ∈ ps) (h_free : Part.free ∈ ps) (h_cmem : Part.cmem ∈ ps) (h_lastWrite : Part.lastWrite ∈ ps) (h_rings : Part.rings ∈ ps) (h_accounts : Part.accounts ∈ ps) (h_tensors : Part.tensors ∈ ps) (h_tallies : Part.tallies ∈ ps) (h_images : Part.images ∈ ps) (h_items : Part.items ∈ ps) (h_heldWaits : Part.heldWaits ∈ ps) (h_islands : Part.islands ∈ ps) (h_decks : Part.decks ∈ ps) (h_aabs : Part.aabs ∈ ps) (h_dtbs : Part.dtbs ∈ ps) (h_tellers : Part.tellers ∈ ps) (h_tickets : Part.tickets ∈ ps) (h_peers : Part.peers ∈ ps) (id : Nat) (x : Item) : Touches ps s0 (loadImageEffect s id x) := by
  unfold loadImageEffect
  first
  | simp +contextual (maxDischargeDepth := 60) [*]; done
  | ((try dsimp only); (repeat' split) <;> simp +contextual (maxDischargeDepth := 60) [*])

@[simp] theorem touches_updateEffect {ps : List Part} {s0 s : State} (hk : Touches ps s0 s) (h_out : Part.out ∈ ps) (h_free : Part.free ∈ ps) (h_cmem : Part.cmem ∈ ps) (h_lastWrite : Part.lastWrite ∈ ps) (h_rings : Part.rings ∈ ps) (h_accounts : Part.accounts ∈ ps) (h_tensors : Part.tensors ∈ ps) (h_tallies : Part.tallies ∈ ps) (h_items : Part.items ∈ ps) (h_heldWaits : Part.heldWaits ∈ ps) (h_islands : Part.islands ∈ ps) (h_decks : Part.decks ∈ ps) (h_aabs : Part.aabs ∈ ps) (h_dtbs : Part.dtbs ∈ ps) (h_tellers : Part.tellers ∈ ps) (h_tickets : Part.tickets ∈ ps) (h_peers : Part.peers ∈ ps) (id : Nat) (x : Item) (digest : Nat) (g : Image) : Touches ps s0 (updateEffect s id x digest g) := by
  unfold updateEffect
  first
  | simp +contextual (maxDischargeDepth := 60) [*]; done
  | ((try dsimp only); (repeat' split) <;> simp +contextual (maxDischargeDepth := 60) [*])

@[simp] theorem touches_plainRunEffect {ps : List Part} {s0 s : State} (hk : Touches ps s0 s) (h_out : Part.out ∈ ps) (h_free : Part.free ∈ ps) (h_cmem : Part.cmem ∈ ps) (h_lastWrite : Part.lastWrite ∈ ps) (h_rings : Part.rings ∈ ps) (h_accounts : Part.accounts ∈ ps) (h_tensors : Part.tensors ∈ ps) (h_tallies : Part.tallies ∈ ps) (h_items : Part.items ∈ ps) (h_heldWaits : Part.heldWaits ∈ ps) (h_islands : Part.islands ∈ ps) (h_decks : Part.decks ∈ ps) (h_aabs : Part.aabs ∈ ps) (h_dtbs : Part.dtbs ∈ ps) (h_tellers : Part.tellers ∈ ps) (h_tickets : Part.tickets ∈ ps) (h_peers : Part.peers ∈ ps) (id : Nat) (x : Item) (digest : Nat) (g : Image) : Touches ps s0 (plainRunEffect s id x digest g) := by
  unfold plainRunEffect
  first
  | simp +contextual (maxDischargeDepth := 60) [*]; done
  | ((try dsimp only); (repeat' split) <;> simp +contextual (maxDischargeDepth := 60) [*])

@[simp] theorem touches_runEffect {ps : List Part} {s0 s : State} (hk : Touches ps s0 s) (h_out : Part.out ∈ ps) (h_free : Part.free ∈ ps) (h_cmem : Part.cmem ∈ ps) (h_lastWrite : Part.lastWrite ∈ ps) (h_rings : Part.rings ∈ ps) (h_accounts : Part.accounts ∈ ps) (h_tensors : Part.tensors ∈ ps) (h_tallies : Part.tallies ∈ ps) (h_items : Part.items ∈ ps) (h_heldWaits : Part.heldWaits ∈ ps) (h_islands : Part.islands ∈ ps) (h_decks : Part.decks ∈ ps) (h_aabs : Part.aabs ∈ ps) (h_dtbs : Part.dtbs ∈ ps) (h_tellers : Part.tellers ∈ ps) (h_tickets : Part.tickets ∈ ps) (h_peers : Part.peers ∈ ps) (id : Nat) (x : Item) : Touches ps s0 (runEffect s id x) := by
  unfold runEffect
  first
  | simp +contextual (maxDischargeDepth := 60) [*]; done
  | ((try dsimp only); (repeat' split) <;> simp +contextual (maxDischargeDepth := 60) [*])

@[simp] theorem touches_State_applySignal {ps : List Part} {s0 s : State} (hk : Touches ps s0 s) (h_out : Part.out ∈ ps) (h_free : Part.free ∈ ps) (h_cmem : Part.cmem ∈ ps) (h_lastWrite : Part.lastWrite ∈ ps) (h_rings : Part.rings ∈ ps) (h_accounts : Part.accounts ∈ ps) (h_tensors : Part.tensors ∈ ps) (h_tallies : Part.tallies ∈ ps) (h_items : Part.items ∈ ps) (h_heldWaits : Part.heldWaits ∈ ps) (h_islands : Part.islands ∈ ps) (h_decks : Part.decks ∈ ps) (h_aabs : Part.aabs ∈ ps) (h_dtbs : Part.dtbs ∈ ps) (h_tellers : Part.tellers ∈ ps) (h_tickets : Part.tickets ∈ ps) (h_peers : Part.peers ∈ ps) (h_dumpDue : Part.dumpDue ∈ ps) (h n source item : Nat) : Touches ps s0 (State.applySignal s h n source item) := by
  unfold State.applySignal
  first
  | simp +contextual (maxDischargeDepth := 60) [*]; done
  | ((try dsimp only); (repeat' split) <;> simp +contextual (maxDischargeDepth := 60) [*])

@[simp] theorem touches_signalEffect {ps : List Part} {s0 s : State} (hk : Touches ps s0 s) (h_out : Part.out ∈ ps) (h_free : Part.free ∈ ps) (h_cmem : Part.cmem ∈ ps) (h_lastWrite : Part.lastWrite ∈ ps) (h_rings : Part.rings ∈ ps) (h_accounts : Part.accounts ∈ ps) (h_tensors : Part.tensors ∈ ps) (h_tallies : Part.tallies ∈ ps) (h_items : Part.items ∈ ps) (h_heldWaits : Part.heldWaits ∈ ps) (h_islands : Part.islands ∈ ps) (h_decks : Part.decks ∈ ps) (h_aabs : Part.aabs ∈ ps) (h_dtbs : Part.dtbs ∈ ps) (h_tellers : Part.tellers ∈ ps) (h_tickets : Part.tickets ∈ ps) (h_peers : Part.peers ∈ ps) (h_dumpDue : Part.dumpDue ∈ ps) (id : Nat) (x : Item) : Touches ps s0 (signalEffect s id x) := by
  unfold signalEffect
  first
  | simp +contextual (maxDischargeDepth := 60) [*]; done
  | ((try dsimp only); (repeat' split) <;> simp +contextual (maxDischargeDepth := 60) [*])

@[simp] theorem touches_takeEffect {ps : List Part} {s0 s : State} (hk : Touches ps s0 s) (h_out : Part.out ∈ ps) (h_free : Part.free ∈ ps) (h_cmem : Part.cmem ∈ ps) (h_lastWrite : Part.lastWrite ∈ ps) (h_rings : Part.rings ∈ ps) (h_accounts : Part.accounts ∈ ps) (h_tensors : Part.tensors ∈ ps) (h_tallies : Part.tallies ∈ ps) (h_items : Part.items ∈ ps) (h_heldWaits : Part.heldWaits ∈ ps) (h_islands : Part.islands ∈ ps) (h_decks : Part.decks ∈ ps) (h_aabs : Part.aabs ∈ ps) (h_dtbs : Part.dtbs ∈ ps) (h_tellers : Part.tellers ∈ ps) (h_tickets : Part.tickets ∈ ps) (h_peers : Part.peers ∈ ps) (h_dumpDue : Part.dumpDue ∈ ps) (id : Nat) (x : Item) : Touches ps s0 (takeEffect s id x) := by
  unfold takeEffect
  first
  | simp +contextual (maxDischargeDepth := 60) [*]; done
  | ((try dsimp only); (repeat' split) <;> simp +contextual (maxDischargeDepth := 60) [*])

@[simp] theorem touches_State_issueWait {ps : List Part} {s0 s : State} (hk : Touches ps s0 s) (h_out : Part.out ∈ ps) (h_free : Part.free ∈ ps) (h_cmem : Part.cmem ∈ ps) (h_lastWrite : Part.lastWrite ∈ ps) (h_rings : Part.rings ∈ ps) (h_accounts : Part.accounts ∈ ps) (h_tensors : Part.tensors ∈ ps) (h_tallies : Part.tallies ∈ ps) (h_items : Part.items ∈ ps) (h_heldWaits : Part.heldWaits ∈ ps) (h_islands : Part.islands ∈ ps) (h_decks : Part.decks ∈ ps) (h_aabs : Part.aabs ∈ ps) (h_dtbs : Part.dtbs ∈ ps) (h_tellers : Part.tellers ∈ ps) (h_tickets : Part.tickets ∈ ps) (h_peers : Part.peers ∈ ps) (h_dumpDue : Part.dumpDue ∈ ps) (id : Nat) (x : Item) (h m : Nat) (waitSlip : Bool) : Touches ps s0 (State.issueWait s id x h m waitSlip) := by
  unfold State.issueWait
  first
  | simp +contextual (maxDischargeDepth := 60) [*]; done
  | ((try dsimp only); (repeat' split) <;> simp +contextual (maxDischargeDepth := 60) [*])

@[simp] theorem touches_waitIssueEffect {ps : List Part} {s0 s : State} (hk : Touches ps s0 s) (h_out : Part.out ∈ ps) (h_free : Part.free ∈ ps) (h_cmem : Part.cmem ∈ ps) (h_lastWrite : Part.lastWrite ∈ ps) (h_rings : Part.rings ∈ ps) (h_accounts : Part.accounts ∈ ps) (h_tensors : Part.tensors ∈ ps) (h_tallies : Part.tallies ∈ ps) (h_items : Part.items ∈ ps) (h_heldWaits : Part.heldWaits ∈ ps) (h_islands : Part.islands ∈ ps) (h_decks : Part.decks ∈ ps) (h_aabs : Part.aabs ∈ ps) (h_dtbs : Part.dtbs ∈ ps) (h_tellers : Part.tellers ∈ ps) (h_tickets : Part.tickets ∈ ps) (h_peers : Part.peers ∈ ps) (h_dumpDue : Part.dumpDue ∈ ps) (id : Nat) (x : Item) : Touches ps s0 (waitIssueEffect s id x) := by
  unfold waitIssueEffect
  first
  | simp +contextual (maxDischargeDepth := 60) [*]; done
  | ((try dsimp only); (repeat' split) <;> simp +contextual (maxDischargeDepth := 60) [*])

@[simp] theorem touches_State_finishWait {ps : List Part} {s0 s : State} (hk : Touches ps s0 s) (h_items : Part.items ∈ ps) (id : Nat) : Touches ps s0 (State.finishWait s id) := by
  unfold State.finishWait
  first
  | simp +contextual (maxDischargeDepth := 60) [*]; done
  | ((try dsimp only); (repeat' split) <;> simp +contextual (maxDischargeDepth := 60) [*])

@[simp] theorem touches_waitEffect {ps : List Part} {s0 s : State} (hk : Touches ps s0 s) (h_out : Part.out ∈ ps) (h_free : Part.free ∈ ps) (h_cmem : Part.cmem ∈ ps) (h_lastWrite : Part.lastWrite ∈ ps) (h_rings : Part.rings ∈ ps) (h_accounts : Part.accounts ∈ ps) (h_tensors : Part.tensors ∈ ps) (h_tallies : Part.tallies ∈ ps) (h_items : Part.items ∈ ps) (h_heldWaits : Part.heldWaits ∈ ps) (h_islands : Part.islands ∈ ps) (h_decks : Part.decks ∈ ps) (h_aabs : Part.aabs ∈ ps) (h_dtbs : Part.dtbs ∈ ps) (h_tellers : Part.tellers ∈ ps) (h_tickets : Part.tickets ∈ ps) (h_peers : Part.peers ∈ ps) (h_dumpDue : Part.dumpDue ∈ ps) (id : Nat) (x : Item) : Touches ps s0 (waitEffect s id x) := by
  unfold waitEffect
  first
  | simp +contextual (maxDischargeDepth := 60) [*]; done
  | ((try dsimp only); (repeat' split) <;> simp +contextual (maxDischargeDepth := 60) [*])

@[simp] theorem touches_State_setThread {ps : List Part} {s0 s : State} (hk : Touches ps s0 s) (h_tellers : Part.tellers ∈ ps) (teller n : Nat) (t : Thread) : Touches ps s0 (State.setThread s teller n t) := by
  unfold State.setThread
  first
  | simp +contextual (maxDischargeDepth := 60) [*]; done
  | ((try dsimp only); (repeat' split) <;> simp +contextual (maxDischargeDepth := 60) [*])

@[simp] theorem touches_State_landUnit {ps : List Part} {s0 s : State} (hk : Touches ps s0 s) (h_out : Part.out ∈ ps) (h_free : Part.free ∈ ps) (h_cmem : Part.cmem ∈ ps) (h_lastWrite : Part.lastWrite ∈ ps) (h_rings : Part.rings ∈ ps) (h_accounts : Part.accounts ∈ ps) (h_tensors : Part.tensors ∈ ps) (h_tallies : Part.tallies ∈ ps) (h_items : Part.items ∈ ps) (h_heldWaits : Part.heldWaits ∈ ps) (h_islands : Part.islands ∈ ps) (h_decks : Part.decks ∈ ps) (h_aabs : Part.aabs ∈ ps) (h_dtbs : Part.dtbs ∈ ps) (h_tellers : Part.tellers ∈ ps) (h_tickets : Part.tickets ∈ ps) (h_peers : Part.peers ∈ ps) (id unit : Nat) (x : Item) : Touches ps s0 (State.landUnit s id unit x) := by
  unfold State.landUnit
  first
  | simp +contextual (maxDischargeDepth := 60) [*]; done
  | ((try dsimp only); (repeat' split) <;> simp +contextual (maxDischargeDepth := 60) [*])

@[simp] theorem touches_State_applyOp {ps : List Part} {s0 s : State} (hk : Touches ps s0 s) (h_out : Part.out ∈ ps) (h_free : Part.free ∈ ps) (h_cmem : Part.cmem ∈ ps) (h_lastWrite : Part.lastWrite ∈ ps) (h_rings : Part.rings ∈ ps) (h_accounts : Part.accounts ∈ ps) (h_tensors : Part.tensors ∈ ps) (h_tallies : Part.tallies ∈ ps) (h_items : Part.items ∈ ps) (h_heldWaits : Part.heldWaits ∈ ps) (h_islands : Part.islands ∈ ps) (h_decks : Part.decks ∈ ps) (h_aabs : Part.aabs ∈ ps) (h_dtbs : Part.dtbs ∈ ps) (h_tellers : Part.tellers ∈ ps) (h_tickets : Part.tickets ∈ ps) (h_peers : Part.peers ∈ ps) (h_dumpDue : Part.dumpDue ∈ ps) (h : Nat) (op : TallyOp) : Touches ps s0 (State.applyOp s h op) := by
  unfold State.applyOp
  first
  | simp +contextual (maxDischargeDepth := 60) [*]; done
  | ((try dsimp only); (repeat' split) <;> simp +contextual (maxDischargeDepth := 60) [*])

@[simp] theorem touches_State_queueAside {ps : List Part} {s0 s : State} (hk : Touches ps s0 s) (h_tallies : Part.tallies ∈ ps) (h : Nat) : Touches ps s0 (State.queueAside s h) := by
  unfold State.queueAside
  first
  | simp +contextual (maxDischargeDepth := 60) [*]; done
  | ((try dsimp only); (repeat' split) <;> simp +contextual (maxDischargeDepth := 60) [*])

@[simp] theorem touches_State_queueBack {ps : List Part} {s0 s : State} (hk : Touches ps s0 s) (h_tallies : Part.tallies ∈ ps) (h : Nat) (queue : List Waiter) : Touches ps s0 (State.queueBack s h queue) := by
  unfold State.queueBack
  first
  | simp +contextual (maxDischargeDepth := 60) [*]; done
  | ((try dsimp only); (repeat' split) <;> simp +contextual (maxDischargeDepth := 60) [*])

@[simp] theorem touches_State_settleNow {ps : List Part} {s0 s : State} (hk : Touches ps s0 s) (h_tallies : Part.tallies ∈ ps) (h_items : Part.items ∈ ps) (h_islands : Part.islands ∈ ps) (h : Nat) : Touches ps s0 (State.settleNow s h) := by
  unfold State.settleNow
  first
  | simp +contextual (maxDischargeDepth := 60) [*]; done
  | ((try dsimp only); (repeat' split) <;> simp +contextual (maxDischargeDepth := 60) [*])

@[simp] theorem touches_State_cycleOps {ps : List Part} {s0 s : State} (hk : Touches ps s0 s) (h_out : Part.out ∈ ps) (h_free : Part.free ∈ ps) (h_cmem : Part.cmem ∈ ps) (h_lastWrite : Part.lastWrite ∈ ps) (h_rings : Part.rings ∈ ps) (h_accounts : Part.accounts ∈ ps) (h_tensors : Part.tensors ∈ ps) (h_tallies : Part.tallies ∈ ps) (h_items : Part.items ∈ ps) (h_heldWaits : Part.heldWaits ∈ ps) (h_islands : Part.islands ∈ ps) (h_decks : Part.decks ∈ ps) (h_aabs : Part.aabs ∈ ps) (h_dtbs : Part.dtbs ∈ ps) (h_tellers : Part.tellers ∈ ps) (h_tickets : Part.tickets ∈ ps) (h_peers : Part.peers ∈ ps) (h_dumpDue : Part.dumpDue ∈ ps) (h : Nat) (ops : List TallyOp) : Touches ps s0 (State.cycleOps s h ops) := by
  unfold State.cycleOps
  first
  | simp +contextual (maxDischargeDepth := 60) [*]; done
  | ((try dsimp only); (repeat' split) <;> simp +contextual (maxDischargeDepth := 60) [*])

@[simp] theorem touches_State_relocate {ps : List Part} {s0 s : State} (hk : Touches ps s0 s) (h_tallies : Part.tallies ∈ ps) (h_heldWaits : Part.heldWaits ∈ ps) (h : Nat) (t : Tally) (region : Nat) : Touches ps s0 (State.relocate s h t region) := by
  unfold State.relocate
  first
  | simp +contextual (maxDischargeDepth := 60) [*]; done
  | ((try dsimp only); (repeat' split) <;> simp +contextual (maxDischargeDepth := 60) [*])

@[simp] theorem touches_State_moveChecked {ps : List Part} {s0 s : State} (hk : Touches ps s0 s) (h_tallies : Part.tallies ∈ ps) (h_heldWaits : Part.heldWaits ∈ ps) (h_islands : Part.islands ∈ ps) (h_dumpDue : Part.dumpDue ∈ ps) (h : Nat) (t : Tally) (region : Nat) : Touches ps s0 (State.moveChecked s h t region) := by
  unfold State.moveChecked
  first
  | simp +contextual (maxDischargeDepth := 60) [*]; done
  | ((try dsimp only); (repeat' split) <;> simp +contextual (maxDischargeDepth := 60) [*])

@[simp] theorem touches_State_readRecord {ps : List Part} {s0 s : State} (hk : Touches ps s0 s) (h_accounts : Part.accounts ∈ ps) (h_islands : Part.islands ∈ ps) (h_dumpDue : Part.dumpDue ∈ ps) (account : Nat) : Touches ps s0 (State.readRecord s account) := by
  unfold State.readRecord
  first
  | simp +contextual (maxDischargeDepth := 60) [*]; done
  | ((try dsimp only); (repeat' split) <;> simp +contextual (maxDischargeDepth := 60) [*])

@[simp] theorem touches_stageEffect {ps : List Part} {s0 s : State} (hk : Touches ps s0 s) (h_out : Part.out ∈ ps) (h_free : Part.free ∈ ps) (h_cmem : Part.cmem ∈ ps) (h_lastWrite : Part.lastWrite ∈ ps) (h_rings : Part.rings ∈ ps) (h_accounts : Part.accounts ∈ ps) (h_tensors : Part.tensors ∈ ps) (h_tallies : Part.tallies ∈ ps) (h_items : Part.items ∈ ps) (h_heldWaits : Part.heldWaits ∈ ps) (h_islands : Part.islands ∈ ps) (h_decks : Part.decks ∈ ps) (h_aabs : Part.aabs ∈ ps) (h_dtbs : Part.dtbs ∈ ps) (h_tellers : Part.tellers ∈ ps) (h_tickets : Part.tickets ∈ ps) (h_peers : Part.peers ∈ ps) (id : Nat) (x : Item) : Touches ps s0 (stageEffect s id x) := by
  unfold stageEffect
  first
  | simp +contextual (maxDischargeDepth := 60) [*]; done
  | ((try dsimp only); (repeat' split) <;> simp +contextual (maxDischargeDepth := 60) [*])

@[simp] theorem touches_commitEffect {ps : List Part} {s0 s : State} (hk : Touches ps s0 s) (h_out : Part.out ∈ ps) (h_free : Part.free ∈ ps) (h_cmem : Part.cmem ∈ ps) (h_lastWrite : Part.lastWrite ∈ ps) (h_rings : Part.rings ∈ ps) (h_accounts : Part.accounts ∈ ps) (h_tensors : Part.tensors ∈ ps) (h_tallies : Part.tallies ∈ ps) (h_items : Part.items ∈ ps) (h_heldWaits : Part.heldWaits ∈ ps) (h_islands : Part.islands ∈ ps) (h_decks : Part.decks ∈ ps) (h_aabs : Part.aabs ∈ ps) (h_dtbs : Part.dtbs ∈ ps) (h_tellers : Part.tellers ∈ ps) (h_tickets : Part.tickets ∈ ps) (h_peers : Part.peers ∈ ps) (h_dumpDue : Part.dumpDue ∈ ps) (id : Nat) (x : Item) : Touches ps s0 (commitEffect s id x) := by
  unfold commitEffect
  first
  | simp +contextual (maxDischargeDepth := 60) [*]; done
  | ((try dsimp only); (repeat' split) <;> simp +contextual (maxDischargeDepth := 60) [*])

@[simp] theorem touches_fenceEffect {ps : List Part} {s0 s : State} (hk : Touches ps s0 s) (h_items : Part.items ∈ ps) (id : Nat) (x : Item) : Touches ps s0 (fenceEffect s id x) := by
  unfold fenceEffect
  first
  | simp +contextual (maxDischargeDepth := 60) [*]; done
  | ((try dsimp only); (repeat' split) <;> simp +contextual (maxDischargeDepth := 60) [*])

@[simp] theorem touches_State_progress {ps : List Part} {s0 s : State} (hk : Touches ps s0 s) (h_items : Part.items ∈ ps) (id : Nat) : Touches ps s0 (State.progress s id) := by
  unfold State.progress
  first
  | simp +contextual (maxDischargeDepth := 60) [*]; done
  | ((try dsimp only); (repeat' split) <;> simp +contextual (maxDischargeDepth := 60) [*])

@[simp] theorem touches_State_sendOffer {ps : List Part} {s0 s : State} (hk : Touches ps s0 s) (h_out : Part.out ∈ ps) (h_free : Part.free ∈ ps) (h_items : Part.items ∈ ps) (h_islands : Part.islands ∈ ps) (h_tickets : Part.tickets ∈ ps) (h_peers : Part.peers ∈ ps) (id peer : Nat) (ceiling : Dy) : Touches ps s0 (State.sendOffer s id peer ceiling) := by
  unfold State.sendOffer
  first
  | simp +contextual (maxDischargeDepth := 60) [*]; done
  | ((try dsimp only); (repeat' split) <;> simp +contextual (maxDischargeDepth := 60) [*])

@[simp] theorem touches_State_clearMismatch {ps : List Part} {s0 s : State} (hk : Touches ps s0 s) (h_islands : Part.islands ∈ ps) (h_dumpDue : Part.dumpDue ∈ ps) (h : Half) (ticket account item : Nat) : Touches ps s0 (State.clearMismatch s h ticket account item) := by
  unfold State.clearMismatch
  first
  | simp +contextual (maxDischargeDepth := 60) [*]; done
  | ((try dsimp only); (repeat' split) <;> simp +contextual (maxDischargeDepth := 60) [*])

@[simp] theorem touches_State_afterRefusal {ps : List Part} {s0 s : State} (hk : Touches ps s0 s) (h_out : Part.out ∈ ps) (h_free : Part.free ∈ ps) (h_cmem : Part.cmem ∈ ps) (h_lastWrite : Part.lastWrite ∈ ps) (h_rings : Part.rings ∈ ps) (h_accounts : Part.accounts ∈ ps) (h_tensors : Part.tensors ∈ ps) (h_tallies : Part.tallies ∈ ps) (h_items : Part.items ∈ ps) (h_heldWaits : Part.heldWaits ∈ ps) (h_islands : Part.islands ∈ ps) (h_decks : Part.decks ∈ ps) (h_aabs : Part.aabs ∈ ps) (h_dtbs : Part.dtbs ∈ ps) (h_tellers : Part.tellers ∈ ps) (h_tickets : Part.tickets ∈ ps) (h_peers : Part.peers ∈ ps) (h_dumpDue : Part.dumpDue ∈ ps) (code : Nat) (f : VfHeader) : Touches ps s0 (State.afterRefusal s code f) := by
  unfold State.afterRefusal
  first
  | simp +contextual (maxDischargeDepth := 60) [*]; done
  | ((try dsimp only); (repeat' split) <;> simp +contextual (maxDischargeDepth := 60) [*])

@[simp] theorem touches_State_grantSender {ps : List Part} {s0 s : State} (hk : Touches ps s0 s) (h_out : Part.out ∈ ps) (h_free : Part.free ∈ ps) (h_items : Part.items ∈ ps) (h_islands : Part.islands ∈ ps) (h_tickets : Part.tickets ∈ ps) (h_peers : Part.peers ∈ ps) (f : VfFrame) : Touches ps s0 (State.grantSender s f) := by
  unfold State.grantSender
  first
  | simp +contextual (maxDischargeDepth := 60) [*]; done
  | ((try dsimp only); (repeat' split) <;> simp +contextual (maxDischargeDepth := 60) [*])

@[simp] theorem touches_State_answerOffer {ps : List Part} {s0 s : State} (hk : Touches ps s0 s) (h_out : Part.out ∈ ps) (h_free : Part.free ∈ ps) (h_cmem : Part.cmem ∈ ps) (h_lastWrite : Part.lastWrite ∈ ps) (h_rings : Part.rings ∈ ps) (h_accounts : Part.accounts ∈ ps) (h_tensors : Part.tensors ∈ ps) (h_tallies : Part.tallies ∈ ps) (h_items : Part.items ∈ ps) (h_heldWaits : Part.heldWaits ∈ ps) (h_islands : Part.islands ∈ ps) (h_decks : Part.decks ∈ ps) (h_aabs : Part.aabs ∈ ps) (h_dtbs : Part.dtbs ∈ ps) (h_tellers : Part.tellers ∈ ps) (h_tickets : Part.tickets ∈ ps) (h_peers : Part.peers ∈ ps) (h_dumpDue : Part.dumpDue ∈ ps) (h : Half) (f : VfFrame) : Touches ps s0 (State.answerOffer s h f).1 := by
  unfold State.answerOffer
  first
  | simp +contextual (maxDischargeDepth := 60) [*]; done
  | ((try dsimp only); (repeat' split) <;> simp +contextual (maxDischargeDepth := 60) [*])

@[simp] theorem touches_State_deliverOffer {ps : List Part} {s0 s : State} (hk : Touches ps s0 s) (h_out : Part.out ∈ ps) (h_free : Part.free ∈ ps) (h_cmem : Part.cmem ∈ ps) (h_lastWrite : Part.lastWrite ∈ ps) (h_rings : Part.rings ∈ ps) (h_accounts : Part.accounts ∈ ps) (h_tensors : Part.tensors ∈ ps) (h_tallies : Part.tallies ∈ ps) (h_items : Part.items ∈ ps) (h_heldWaits : Part.heldWaits ∈ ps) (h_islands : Part.islands ∈ ps) (h_decks : Part.decks ∈ ps) (h_aabs : Part.aabs ∈ ps) (h_dtbs : Part.dtbs ∈ ps) (h_tellers : Part.tellers ∈ ps) (h_tickets : Part.tickets ∈ ps) (h_offers : Part.offers ∈ ps) (h_peers : Part.peers ∈ ps) (h_dumpDue : Part.dumpDue ∈ ps) (port : Nat) (f : VfFrame) : Touches ps s0 (State.deliverOffer s port f) := by
  unfold State.deliverOffer
  first
  | simp +contextual (maxDischargeDepth := 60) [*]; done
  | ((try dsimp only); (repeat' split) <;> simp +contextual (maxDischargeDepth := 60) [*])

@[simp] theorem touches_State_answerHeld {ps : List Part} {s0 s : State} (hk : Touches ps s0 s) (h_out : Part.out ∈ ps) (h_free : Part.free ∈ ps) (h_cmem : Part.cmem ∈ ps) (h_lastWrite : Part.lastWrite ∈ ps) (h_rings : Part.rings ∈ ps) (h_accounts : Part.accounts ∈ ps) (h_tensors : Part.tensors ∈ ps) (h_tallies : Part.tallies ∈ ps) (h_items : Part.items ∈ ps) (h_heldWaits : Part.heldWaits ∈ ps) (h_islands : Part.islands ∈ ps) (h_decks : Part.decks ∈ ps) (h_aabs : Part.aabs ∈ ps) (h_dtbs : Part.dtbs ∈ ps) (h_tellers : Part.tellers ∈ ps) (h_tickets : Part.tickets ∈ ps) (h_offers : Part.offers ∈ ps) (h_peers : Part.peers ∈ ps) (h_dumpDue : Part.dumpDue ∈ ps)  : Touches ps s0 (State.answerHeld s) := by
  unfold State.answerHeld
  first
  | simp +contextual (maxDischargeDepth := 60) [*]; done
  | ((try dsimp only); (repeat' split) <;> simp +contextual (maxDischargeDepth := 60) [*])

@[simp] theorem touches_State_openTicket {ps : List Part} {s0 s : State} (hk : Touches ps s0 s) (h_out : Part.out ∈ ps) (h_free : Part.free ∈ ps) (h_cmem : Part.cmem ∈ ps) (h_lastWrite : Part.lastWrite ∈ ps) (h_rings : Part.rings ∈ ps) (h_accounts : Part.accounts ∈ ps) (h_tensors : Part.tensors ∈ ps) (h_tallies : Part.tallies ∈ ps) (h_items : Part.items ∈ ps) (h_heldWaits : Part.heldWaits ∈ ps) (h_islands : Part.islands ∈ ps) (h_decks : Part.decks ∈ ps) (h_aabs : Part.aabs ∈ ps) (h_dtbs : Part.dtbs ∈ ps) (h_tellers : Part.tellers ∈ ps) (h_tickets : Part.tickets ∈ ps) (h_offers : Part.offers ∈ ps) (h_peers : Part.peers ∈ ps) (h_dumpDue : Part.dumpDue ∈ ps) (id : Nat) (x : Item) (half : Half) : Touches ps s0 (State.openTicket s id x half) := by
  unfold State.openTicket
  first
  | simp +contextual (maxDischargeDepth := 60) [*]; done
  | ((try dsimp only); (repeat' split) <;> simp +contextual (maxDischargeDepth := 60) [*])

@[simp] theorem touches_State_writeResult {ps : List Part} {s0 s : State} (hk : Touches ps s0 s) (h_out : Part.out ∈ ps) (h_free : Part.free ∈ ps) (h_cmem : Part.cmem ∈ ps) (h_lastWrite : Part.lastWrite ∈ ps) (h_rings : Part.rings ∈ ps) (h_accounts : Part.accounts ∈ ps) (h_tensors : Part.tensors ∈ ps) (h_tallies : Part.tallies ∈ ps) (h_items : Part.items ∈ ps) (h_heldWaits : Part.heldWaits ∈ ps) (h_islands : Part.islands ∈ ps) (h_decks : Part.decks ∈ ps) (h_aabs : Part.aabs ∈ ps) (h_dtbs : Part.dtbs ∈ ps) (h_tellers : Part.tellers ∈ ps) (h_tickets : Part.tickets ∈ ps) (h_peers : Part.peers ∈ ps) (id : Nat) (x : Item) (t : Ticket) : Touches ps s0 (State.writeResult s id x t) := by
  unfold State.writeResult
  first
  | simp +contextual (maxDischargeDepth := 60) [*]; done
  | ((try dsimp only); (repeat' split) <;> simp +contextual (maxDischargeDepth := 60) [*])

@[simp] theorem touches_State_countFinished {ps : List Part} {s0 s : State} (hk : Touches ps s0 s) (h_tickets : Part.tickets ∈ ps) (id : Nat) : Touches ps s0 (State.countFinished s id) := by
  unfold State.countFinished
  first
  | simp +contextual (maxDischargeDepth := 60) [*]; done
  | ((try dsimp only); (repeat' split) <;> simp +contextual (maxDischargeDepth := 60) [*])

@[simp] theorem touches_State_finishTicket {ps : List Part} {s0 s : State} (hk : Touches ps s0 s) (h_items : Part.items ∈ ps) (h_tickets : Part.tickets ∈ ps) (id : Nat) (x : Item) : Touches ps s0 (State.finishTicket s id x) := by
  unfold State.finishTicket
  first
  | simp +contextual (maxDischargeDepth := 60) [*]; done
  | ((try dsimp only); (repeat' split) <;> simp +contextual (maxDischargeDepth := 60) [*])

@[simp] theorem touches_State_frameProgress {ps : List Part} {s0 s : State} (hk : Touches ps s0 s) (h_items : Part.items ∈ ps) (f : VfFrame) : Touches ps s0 (State.frameProgress s f) := by
  unfold State.frameProgress
  first
  | simp +contextual (maxDischargeDepth := 60) [*]; done
  | ((try dsimp only); (repeat' split) <;> simp +contextual (maxDischargeDepth := 60) [*])

@[simp] theorem touches_State_sendContribution {ps : List Part} {s0 s : State} (hk : Touches ps s0 s) (h_out : Part.out ∈ ps) (h_free : Part.free ∈ ps) (h_items : Part.items ∈ ps) (h_islands : Part.islands ∈ ps) (h_tickets : Part.tickets ∈ ps) (h_peers : Part.peers ∈ ps) (id : Nat) (t : Ticket) (x : Tensor) (peer : Nat) : Touches ps s0 (State.sendContribution s id t x peer) := by
  unfold State.sendContribution
  first
  | simp +contextual (maxDischargeDepth := 60) [*]; done
  | ((try dsimp only); (repeat' split) <;> simp +contextual (maxDischargeDepth := 60) [*])

@[simp] theorem touches_contributeEffect {ps : List Part} {s0 s : State} (hk : Touches ps s0 s) (h_out : Part.out ∈ ps) (h_free : Part.free ∈ ps) (h_items : Part.items ∈ ps) (h_islands : Part.islands ∈ ps) (h_tickets : Part.tickets ∈ ps) (h_peers : Part.peers ∈ ps) (id : Nat) (x : Item) (t : Ticket) (b : Tensor) : Touches ps s0 (contributeEffect s id x t b) := by
  unfold contributeEffect
  first
  | simp +contextual (maxDischargeDepth := 60) [*]; done
  | ((try dsimp only); (repeat' split) <;> simp +contextual (maxDischargeDepth := 60) [*])

@[simp] theorem touches_State_addOwn {ps : List Part} {s0 s : State} (hk : Touches ps s0 s) (h_free : Part.free ∈ ps) (h_items : Part.items ∈ ps) (h_tickets : Part.tickets ∈ ps) (id : Nat) (x : Item) (t : Ticket) (b : Tensor) : Touches ps s0 (State.addOwn s id x t b) := by
  unfold State.addOwn
  first
  | simp +contextual (maxDischargeDepth := 60) [*]; done
  | ((try dsimp only); (repeat' split) <;> simp +contextual (maxDischargeDepth := 60) [*])

@[simp] theorem touches_ownerEffect {ps : List Part} {s0 s : State} (hk : Touches ps s0 s) (h_out : Part.out ∈ ps) (h_free : Part.free ∈ ps) (h_cmem : Part.cmem ∈ ps) (h_lastWrite : Part.lastWrite ∈ ps) (h_rings : Part.rings ∈ ps) (h_accounts : Part.accounts ∈ ps) (h_tensors : Part.tensors ∈ ps) (h_tallies : Part.tallies ∈ ps) (h_items : Part.items ∈ ps) (h_heldWaits : Part.heldWaits ∈ ps) (h_islands : Part.islands ∈ ps) (h_decks : Part.decks ∈ ps) (h_aabs : Part.aabs ∈ ps) (h_dtbs : Part.dtbs ∈ ps) (h_tellers : Part.tellers ∈ ps) (h_tickets : Part.tickets ∈ ps) (h_peers : Part.peers ∈ ps) (id : Nat) (x : Item) (t : Ticket) (b : Tensor) : Touches ps s0 (ownerEffect s id x t b) := by
  unfold ownerEffect
  first
  | simp +contextual (maxDischargeDepth := 60) [*]; done
  | ((try dsimp only); (repeat' split) <;> simp +contextual (maxDischargeDepth := 60) [*])

theorem touches_withContribution {ps : List Part} {s0 s : State} (hk : Touches ps s0 s) (h_out : Part.out ∈ ps) (h_free : Part.free ∈ ps) (h_cmem : Part.cmem ∈ ps) (h_lastWrite : Part.lastWrite ∈ ps) (h_rings : Part.rings ∈ ps) (h_accounts : Part.accounts ∈ ps) (h_tensors : Part.tensors ∈ ps) (h_tallies : Part.tallies ∈ ps) (h_items : Part.items ∈ ps) (h_heldWaits : Part.heldWaits ∈ ps) (h_islands : Part.islands ∈ ps) (h_decks : Part.decks ∈ ps) (h_aabs : Part.aabs ∈ ps) (h_dtbs : Part.dtbs ∈ ps) (h_tellers : Part.tellers ∈ ps) (h_tickets : Part.tickets ∈ ps) (h_peers : Part.peers ∈ ps) (id : Nat) (x : Item) (f : Ticket → Tensor → State)
    (hf : ∀ t b, Touches ps s0 (f t b)) : Touches ps s0 (withContribution s id x f) := by
  unfold withContribution
  (repeat' split) <;> simp +contextual (maxDischargeDepth := 60) [*]

@[simp] theorem touches_ownerReduceEffect {ps : List Part} {s0 s : State} (hk : Touches ps s0 s) (h_out : Part.out ∈ ps) (h_free : Part.free ∈ ps) (h_cmem : Part.cmem ∈ ps) (h_lastWrite : Part.lastWrite ∈ ps) (h_rings : Part.rings ∈ ps) (h_accounts : Part.accounts ∈ ps) (h_tensors : Part.tensors ∈ ps) (h_tallies : Part.tallies ∈ ps) (h_items : Part.items ∈ ps) (h_heldWaits : Part.heldWaits ∈ ps) (h_islands : Part.islands ∈ ps) (h_decks : Part.decks ∈ ps) (h_aabs : Part.aabs ∈ ps) (h_dtbs : Part.dtbs ∈ ps) (h_tellers : Part.tellers ∈ ps) (h_tickets : Part.tickets ∈ ps) (h_peers : Part.peers ∈ ps) (id : Nat) (x : Item) : Touches ps s0 (ownerReduceEffect s id x) := by
  unfold ownerReduceEffect
  refine touches_withContribution hk (by assumption) (by assumption) (by assumption) (by assumption) (by assumption) (by assumption) (by assumption) (by assumption) (by assumption) (by assumption) (by assumption) (by assumption) (by assumption) (by assumption) (by assumption) (by assumption) (by assumption) _ _ _ fun t b => ?_
  (try dsimp only); (repeat' split) <;> simp +contextual (maxDischargeDepth := 60) [*]

@[simp] theorem touches_State_hop {ps : List Part} {s0 s : State} (hk : Touches ps s0 s) (h_out : Part.out ∈ ps) (h_free : Part.free ∈ ps) (h_items : Part.items ∈ ps) (h_islands : Part.islands ∈ ps) (h_tickets : Part.tickets ∈ ps) (h_peers : Part.peers ∈ ps) (id : Nat) (x : Tensor) (payload : Option (List Byte)) (first count dust : Nat) (last : Bool) : Touches ps s0 (State.hop s id x payload first count dust last) := by
  unfold State.hop
  first
  | simp +contextual (maxDischargeDepth := 60) [*]; done
  | ((try dsimp only); (repeat' split) <;> simp +contextual (maxDischargeDepth := 60) [*])

@[simp] theorem touches_State_startRing {ps : List Part} {s0 s : State} (hk : Touches ps s0 s) (h_out : Part.out ∈ ps) (h_free : Part.free ∈ ps) (h_items : Part.items ∈ ps) (h_islands : Part.islands ∈ ps) (h_tickets : Part.tickets ∈ ps) (h_peers : Part.peers ∈ ps) (id : Nat) (x : Tensor) : Touches ps s0 (State.startRing s id x) := by
  unfold State.startRing
  first
  | simp +contextual (maxDischargeDepth := 60) [*]; done
  | ((try dsimp only); (repeat' split) <;> simp +contextual (maxDischargeDepth := 60) [*])

@[simp] theorem touches_State_drainInbox {ps : List Part} {s0 s : State} (hk : Touches ps s0 s) (h_out : Part.out ∈ ps) (h_free : Part.free ∈ ps) (h_items : Part.items ∈ ps) (h_islands : Part.islands ∈ ps) (h_tickets : Part.tickets ∈ ps) (h_peers : Part.peers ∈ ps) (id : Nat) (x : Tensor) (t : Ticket) : Touches ps s0 (State.drainInbox s id x t) := by
  unfold State.drainInbox
  first
  | simp +contextual (maxDischargeDepth := 60) [*]; done
  | ((try dsimp only); (repeat' split) <;> simp +contextual (maxDischargeDepth := 60) [*])

@[simp] theorem touches_State_ringOutcome {ps : List Part} {s0 s : State} (hk : Touches ps s0 s) (h_out : Part.out ∈ ps) (h_free : Part.free ∈ ps) (h_cmem : Part.cmem ∈ ps) (h_lastWrite : Part.lastWrite ∈ ps) (h_rings : Part.rings ∈ ps) (h_accounts : Part.accounts ∈ ps) (h_tensors : Part.tensors ∈ ps) (h_tallies : Part.tallies ∈ ps) (h_items : Part.items ∈ ps) (h_heldWaits : Part.heldWaits ∈ ps) (h_islands : Part.islands ∈ ps) (h_decks : Part.decks ∈ ps) (h_aabs : Part.aabs ∈ ps) (h_dtbs : Part.dtbs ∈ ps) (h_tellers : Part.tellers ∈ ps) (h_tickets : Part.tickets ∈ ps) (h_peers : Part.peers ∈ ps) (id : Nat) : Touches ps s0 (State.ringOutcome s id) := by
  unfold State.ringOutcome
  first
  | simp +contextual (maxDischargeDepth := 60) [*]; done
  | ((try dsimp only); (repeat' split) <;> simp +contextual (maxDischargeDepth := 60) [*])

@[simp] theorem touches_ringReduceEffect {ps : List Part} {s0 s : State} (hk : Touches ps s0 s) (h_out : Part.out ∈ ps) (h_free : Part.free ∈ ps) (h_cmem : Part.cmem ∈ ps) (h_lastWrite : Part.lastWrite ∈ ps) (h_rings : Part.rings ∈ ps) (h_accounts : Part.accounts ∈ ps) (h_tensors : Part.tensors ∈ ps) (h_tallies : Part.tallies ∈ ps) (h_items : Part.items ∈ ps) (h_heldWaits : Part.heldWaits ∈ ps) (h_islands : Part.islands ∈ ps) (h_decks : Part.decks ∈ ps) (h_aabs : Part.aabs ∈ ps) (h_dtbs : Part.dtbs ∈ ps) (h_tellers : Part.tellers ∈ ps) (h_tickets : Part.tickets ∈ ps) (h_peers : Part.peers ∈ ps) (id : Nat) (x : Item) : Touches ps s0 (ringReduceEffect s id x) := by
  unfold ringReduceEffect
  refine touches_withContribution hk (by assumption) (by assumption) (by assumption) (by assumption) (by assumption) (by assumption) (by assumption) (by assumption) (by assumption) (by assumption) (by assumption) (by assumption) (by assumption) (by assumption) (by assumption) (by assumption) (by assumption) _ _ _ fun t b => ?_
  dsimp only
  split
  · exact hk
  · have h1 : Touches ps s0 (s.setItem id (x.saw (nonFinite b))) := by simp +contextual (maxDischargeDepth := 60) [*]
    generalize s.setItem id (x.saw (nonFinite b)) = s1 at h1
    (repeat' split) <;> simp +contextual (maxDischargeDepth := 60) [*]

@[simp] theorem touches_State_sendImage {ps : List Part} {s0 s : State} (hk : Touches ps s0 s) (h_out : Part.out ∈ ps) (h_free : Part.free ∈ ps) (h_items : Part.items ∈ ps) (h_islands : Part.islands ∈ ps) (h_peers : Part.peers ∈ ps) (id : Nat) (t : Ticket) (bytes : List Byte) (peer : Nat) : Touches ps s0 (State.sendImage s id t bytes peer) := by
  unfold State.sendImage
  first
  | simp +contextual (maxDischargeDepth := 60) [*]; done
  | ((try dsimp only); (repeat' split) <;> simp +contextual (maxDischargeDepth := 60) [*])

@[simp] theorem touches_distributeOwner {ps : List Part} {s0 s : State} (hk : Touches ps s0 s) (h_out : Part.out ∈ ps) (h_free : Part.free ∈ ps) (h_items : Part.items ∈ ps) (h_islands : Part.islands ∈ ps) (h_tickets : Part.tickets ∈ ps) (h_peers : Part.peers ∈ ps) (id : Nat) (x : Item) (t : Ticket) (b : Tensor) : Touches ps s0 (distributeOwner s id x t b) := by
  unfold distributeOwner
  first
  | simp +contextual (maxDischargeDepth := 60) [*]; done
  | ((try dsimp only); (repeat' split) <;> simp +contextual (maxDischargeDepth := 60) [*])

@[simp] theorem touches_State_forwardImage {ps : List Part} {s0 s : State} (hk : Touches ps s0 s) (h_out : Part.out ∈ ps) (h_free : Part.free ∈ ps) (h_items : Part.items ∈ ps) (h_islands : Part.islands ∈ ps) (h_tickets : Part.tickets ∈ ps) (h_peers : Part.peers ∈ ps) (id : Nat) (t : Ticket) (next : Nat) : Touches ps s0 (State.forwardImage s id t next) := by
  unfold State.forwardImage
  first
  | simp +contextual (maxDischargeDepth := 60) [*]; done
  | ((try dsimp only); (repeat' split) <;> simp +contextual (maxDischargeDepth := 60) [*])

@[simp] theorem touches_State_writeDistributed {ps : List Part} {s0 s : State} (hk : Touches ps s0 s) (h_out : Part.out ∈ ps) (h_free : Part.free ∈ ps) (h_cmem : Part.cmem ∈ ps) (h_lastWrite : Part.lastWrite ∈ ps) (h_rings : Part.rings ∈ ps) (h_accounts : Part.accounts ∈ ps) (h_tensors : Part.tensors ∈ ps) (h_tallies : Part.tallies ∈ ps) (h_items : Part.items ∈ ps) (h_heldWaits : Part.heldWaits ∈ ps) (h_islands : Part.islands ∈ ps) (h_decks : Part.decks ∈ ps) (h_aabs : Part.aabs ∈ ps) (h_dtbs : Part.dtbs ∈ ps) (h_tellers : Part.tellers ∈ ps) (h_tickets : Part.tickets ∈ ps) (h_peers : Part.peers ∈ ps) (h_dumpDue : Part.dumpDue ∈ ps) (id : Nat) (x : Item) (t : Ticket) (a : Tensor) : Touches ps s0 (State.writeDistributed s id x t a) := by
  unfold State.writeDistributed
  first
  | simp +contextual (maxDischargeDepth := 60) [*]; done
  | ((try dsimp only); (repeat' split) <;> simp +contextual (maxDischargeDepth := 60) [*])

@[simp] theorem touches_distributeRecipient {ps : List Part} {s0 s : State} (hk : Touches ps s0 s) (h_out : Part.out ∈ ps) (h_free : Part.free ∈ ps) (h_cmem : Part.cmem ∈ ps) (h_lastWrite : Part.lastWrite ∈ ps) (h_rings : Part.rings ∈ ps) (h_accounts : Part.accounts ∈ ps) (h_tensors : Part.tensors ∈ ps) (h_tallies : Part.tallies ∈ ps) (h_items : Part.items ∈ ps) (h_heldWaits : Part.heldWaits ∈ ps) (h_islands : Part.islands ∈ ps) (h_decks : Part.decks ∈ ps) (h_aabs : Part.aabs ∈ ps) (h_dtbs : Part.dtbs ∈ ps) (h_tellers : Part.tellers ∈ ps) (h_tickets : Part.tickets ∈ ps) (h_peers : Part.peers ∈ ps) (h_dumpDue : Part.dumpDue ∈ ps) (id : Nat) (x : Item) (t : Ticket) (a : Tensor) : Touches ps s0 (distributeRecipient s id x t a) := by
  unfold distributeRecipient
  first
  | simp +contextual (maxDischargeDepth := 60) [*]; done
  | ((try dsimp only); (repeat' split) <;> simp +contextual (maxDischargeDepth := 60) [*])

@[simp] theorem touches_distributeEffect {ps : List Part} {s0 s : State} (hk : Touches ps s0 s) (h_out : Part.out ∈ ps) (h_free : Part.free ∈ ps) (h_cmem : Part.cmem ∈ ps) (h_lastWrite : Part.lastWrite ∈ ps) (h_rings : Part.rings ∈ ps) (h_accounts : Part.accounts ∈ ps) (h_tensors : Part.tensors ∈ ps) (h_tallies : Part.tallies ∈ ps) (h_items : Part.items ∈ ps) (h_heldWaits : Part.heldWaits ∈ ps) (h_islands : Part.islands ∈ ps) (h_decks : Part.decks ∈ ps) (h_aabs : Part.aabs ∈ ps) (h_dtbs : Part.dtbs ∈ ps) (h_tellers : Part.tellers ∈ ps) (h_tickets : Part.tickets ∈ ps) (h_peers : Part.peers ∈ ps) (h_dumpDue : Part.dumpDue ∈ ps) (id : Nat) (x : Item) : Touches ps s0 (distributeEffect s id x) := by
  unfold distributeEffect
  first
  | simp +contextual (maxDischargeDepth := 60) [*]; done
  | ((try dsimp only); (repeat' split) <;> simp +contextual (maxDischargeDepth := 60) [*])

@[simp] theorem touches_State_discard {ps : List Part} {s0 s : State} (hk : Touches ps s0 s) (h_islands : Part.islands ∈ ps) (port : Nat) : Touches ps s0 (State.discard s port) := by
  unfold State.discard
  first
  | simp +contextual (maxDischargeDepth := 60) [*]; done
  | ((try dsimp only); (repeat' split) <;> simp +contextual (maxDischargeDepth := 60) [*])

@[simp] theorem touches_State_deliverGrant {ps : List Part} {s0 s : State} (hk : Touches ps s0 s) (h_items : Part.items ∈ ps) (h_tickets : Part.tickets ∈ ps) (f : VfFrame) : Touches ps s0 (State.deliverGrant s f) := by
  unfold State.deliverGrant
  first
  | simp +contextual (maxDischargeDepth := 60) [*]; done
  | ((try dsimp only); (repeat' split) <;> simp +contextual (maxDischargeDepth := 60) [*])

@[simp] theorem touches_State_deliverRefuse {ps : List Part} {s0 s : State} (hk : Touches ps s0 s) (h_out : Part.out ∈ ps) (h_free : Part.free ∈ ps) (h_cmem : Part.cmem ∈ ps) (h_lastWrite : Part.lastWrite ∈ ps) (h_rings : Part.rings ∈ ps) (h_accounts : Part.accounts ∈ ps) (h_tensors : Part.tensors ∈ ps) (h_tallies : Part.tallies ∈ ps) (h_items : Part.items ∈ ps) (h_heldWaits : Part.heldWaits ∈ ps) (h_islands : Part.islands ∈ ps) (h_decks : Part.decks ∈ ps) (h_aabs : Part.aabs ∈ ps) (h_dtbs : Part.dtbs ∈ ps) (h_tellers : Part.tellers ∈ ps) (h_tickets : Part.tickets ∈ ps) (h_peers : Part.peers ∈ ps) (h_dumpDue : Part.dumpDue ∈ ps) (f : VfFrame) : Touches ps s0 (State.deliverRefuse s f) := by
  unfold State.deliverRefuse
  first
  | simp +contextual (maxDischargeDepth := 60) [*]; done
  | ((try dsimp only); (repeat' split) <;> simp +contextual (maxDischargeDepth := 60) [*])

@[simp] theorem touches_State_deliverBusy {ps : List Part} {s0 s : State} (hk : Touches ps s0 s) (h_items : Part.items ∈ ps) (h_tickets : Part.tickets ∈ ps) (f : VfFrame) : Touches ps s0 (State.deliverBusy s f) := by
  unfold State.deliverBusy
  first
  | simp +contextual (maxDischargeDepth := 60) [*]; done
  | ((try dsimp only); (repeat' split) <;> simp +contextual (maxDischargeDepth := 60) [*])

@[simp] theorem touches_State_deliverAbort {ps : List Part} {s0 s : State} (hk : Touches ps s0 s) (h_out : Part.out ∈ ps) (h_free : Part.free ∈ ps) (h_cmem : Part.cmem ∈ ps) (h_lastWrite : Part.lastWrite ∈ ps) (h_rings : Part.rings ∈ ps) (h_accounts : Part.accounts ∈ ps) (h_tensors : Part.tensors ∈ ps) (h_tallies : Part.tallies ∈ ps) (h_items : Part.items ∈ ps) (h_heldWaits : Part.heldWaits ∈ ps) (h_islands : Part.islands ∈ ps) (h_decks : Part.decks ∈ ps) (h_aabs : Part.aabs ∈ ps) (h_dtbs : Part.dtbs ∈ ps) (h_tellers : Part.tellers ∈ ps) (h_tickets : Part.tickets ∈ ps) (h_peers : Part.peers ∈ ps) (f : VfFrame) : Touches ps s0 (State.deliverAbort s f) := by
  unfold State.deliverAbort
  first
  | simp +contextual (maxDischargeDepth := 60) [*]; done
  | ((try dsimp only); (repeat' split) <;> simp +contextual (maxDischargeDepth := 60) [*])

@[simp] theorem touches_State_addFrame {ps : List Part} {s0 s : State} (hk : Touches ps s0 s) (h_items : Part.items ∈ ps) (h_tickets : Part.tickets ∈ ps) (id : Nat) (t : Ticket) (f : VfFrame) : Touches ps s0 (State.addFrame s id t f) := by
  unfold State.addFrame
  first
  | simp +contextual (maxDischargeDepth := 60) [*]; done
  | ((try dsimp only); (repeat' split) <;> simp +contextual (maxDischargeDepth := 60) [*])

@[simp] theorem touches_State_deliverData {ps : List Part} {s0 s : State} (hk : Touches ps s0 s) (h_items : Part.items ∈ ps) (h_tickets : Part.tickets ∈ ps) (f : VfFrame) : Touches ps s0 (State.deliverData s f) := by
  unfold State.deliverData
  first
  | simp +contextual (maxDischargeDepth := 60) [*]; done
  | ((try dsimp only); (repeat' split) <;> simp +contextual (maxDischargeDepth := 60) [*])

@[simp] theorem touches_State_forgetMember {ps : List Part} {s0 s : State} (hk : Touches ps s0 s) (h_items : Part.items ∈ ps) (h_tickets : Part.tickets ∈ ps) (account group peer : Nat) : Touches ps s0 (State.forgetMember s account group peer) := by
  unfold State.forgetMember
  first
  | simp +contextual (maxDischargeDepth := 60) [*]; done
  | ((try dsimp only); (repeat' split) <;> simp +contextual (maxDischargeDepth := 60) [*])

@[simp] theorem touches_State_loseInGroup {ps : List Part} {s0 s : State} (hk : Touches ps s0 s) (h_out : Part.out ∈ ps) (h_free : Part.free ∈ ps) (h_cmem : Part.cmem ∈ ps) (h_lastWrite : Part.lastWrite ∈ ps) (h_rings : Part.rings ∈ ps) (h_accounts : Part.accounts ∈ ps) (h_tensors : Part.tensors ∈ ps) (h_tallies : Part.tallies ∈ ps) (h_items : Part.items ∈ ps) (h_heldWaits : Part.heldWaits ∈ ps) (h_islands : Part.islands ∈ ps) (h_decks : Part.decks ∈ ps) (h_aabs : Part.aabs ∈ ps) (h_dtbs : Part.dtbs ∈ ps) (h_tellers : Part.tellers ∈ ps) (h_tickets : Part.tickets ∈ ps) (h_peers : Part.peers ∈ ps) (account group peer : Nat) : Touches ps s0 (State.loseInGroup s account group peer) := by
  unfold State.loseInGroup
  first
  | simp +contextual (maxDischargeDepth := 60) [*]; done
  | ((try dsimp only); (repeat' split) <;> simp +contextual (maxDischargeDepth := 60) [*])

@[simp] theorem touches_State_deliverLost {ps : List Part} {s0 s : State} (hk : Touches ps s0 s) (h_out : Part.out ∈ ps) (h_free : Part.free ∈ ps) (h_cmem : Part.cmem ∈ ps) (h_lastWrite : Part.lastWrite ∈ ps) (h_rings : Part.rings ∈ ps) (h_accounts : Part.accounts ∈ ps) (h_tensors : Part.tensors ∈ ps) (h_tallies : Part.tallies ∈ ps) (h_items : Part.items ∈ ps) (h_heldWaits : Part.heldWaits ∈ ps) (h_islands : Part.islands ∈ ps) (h_decks : Part.decks ∈ ps) (h_aabs : Part.aabs ∈ ps) (h_dtbs : Part.dtbs ∈ ps) (h_tellers : Part.tellers ∈ ps) (h_tickets : Part.tickets ∈ ps) (h_peers : Part.peers ∈ ps) (f : VfFrame) : Touches ps s0 (State.deliverLost s f) := by
  unfold State.deliverLost
  first
  | simp +contextual (maxDischargeDepth := 60) [*]; done
  | ((try dsimp only); (repeat' split) <;> simp +contextual (maxDischargeDepth := 60) [*])

@[simp] theorem touches_State_deliver {ps : List Part} {s0 s : State} (hk : Touches ps s0 s) (h_out : Part.out ∈ ps) (h_free : Part.free ∈ ps) (h_cmem : Part.cmem ∈ ps) (h_lastWrite : Part.lastWrite ∈ ps) (h_rings : Part.rings ∈ ps) (h_accounts : Part.accounts ∈ ps) (h_tensors : Part.tensors ∈ ps) (h_tallies : Part.tallies ∈ ps) (h_items : Part.items ∈ ps) (h_heldWaits : Part.heldWaits ∈ ps) (h_islands : Part.islands ∈ ps) (h_decks : Part.decks ∈ ps) (h_aabs : Part.aabs ∈ ps) (h_dtbs : Part.dtbs ∈ ps) (h_tellers : Part.tellers ∈ ps) (h_tickets : Part.tickets ∈ ps) (h_offers : Part.offers ∈ ps) (h_peers : Part.peers ∈ ps) (h_dumpDue : Part.dumpDue ∈ ps) (port : Nat) (f : VfFrame) : Touches ps s0 (State.deliver s port f) := by
  unfold State.deliver
  first
  | simp +contextual (maxDischargeDepth := 60) [*]; done
  | ((try dsimp only); (repeat' split) <;> simp +contextual (maxDischargeDepth := 60) [*])

theorem touches_deliverLoop {ps : List Part} {s0 : State} (hf : Half) (peer port n : Nat) {s : State} (h : Touches ps s0 s) (h_out : Part.out ∈ ps) (h_free : Part.free ∈ ps) (h_cmem : Part.cmem ∈ ps) (h_lastWrite : Part.lastWrite ∈ ps) (h_rings : Part.rings ∈ ps) (h_accounts : Part.accounts ∈ ps) (h_tensors : Part.tensors ∈ ps) (h_tallies : Part.tallies ∈ ps) (h_items : Part.items ∈ ps) (h_heldWaits : Part.heldWaits ∈ ps) (h_islands : Part.islands ∈ ps) (h_decks : Part.decks ∈ ps) (h_aabs : Part.aabs ∈ ps) (h_dtbs : Part.dtbs ∈ ps) (h_tellers : Part.tellers ∈ ps) (h_tickets : Part.tickets ∈ ps) (h_offers : Part.offers ∈ ps) (h_peers : Part.peers ∈ ps) (h_dumpDue : Part.dumpDue ∈ ps) :
    Touches ps s0 (deliverLoop hf peer port n s) := by
  induction n generalizing s with
  | zero => exact h
  | succ n ih =>
    unfold deliverLoop
    dsimp only
    split
    · exact h
    · exact ih (by simp +contextual (maxDischargeDepth := 60) [*])

@[simp] theorem touches_State_receive {ps : List Part} {s0 s : State} (hk : Touches ps s0 s) (h_out : Part.out ∈ ps) (h_free : Part.free ∈ ps) (h_cmem : Part.cmem ∈ ps) (h_lastWrite : Part.lastWrite ∈ ps) (h_rings : Part.rings ∈ ps) (h_accounts : Part.accounts ∈ ps) (h_tensors : Part.tensors ∈ ps) (h_tallies : Part.tallies ∈ ps) (h_items : Part.items ∈ ps) (h_heldWaits : Part.heldWaits ∈ ps) (h_islands : Part.islands ∈ ps) (h_decks : Part.decks ∈ ps) (h_aabs : Part.aabs ∈ ps) (h_dtbs : Part.dtbs ∈ ps) (h_tellers : Part.tellers ∈ ps) (h_tickets : Part.tickets ∈ ps) (h_offers : Part.offers ∈ ps) (h_peers : Part.peers ∈ ps) (h_dumpDue : Part.dumpDue ∈ ps) (port : Nat) (f : VfFrame) : Touches ps s0 (State.receive s port f) := by
  unfold State.receive
  dsimp only
  (repeat' split) <;> first | exact touches_deliverLoop _ _ _ _ (by simp +contextual (maxDischargeDepth := 60) [*]) (by assumption) (by assumption) (by assumption) (by assumption) (by assumption) (by assumption) (by assumption) (by assumption) (by assumption) (by assumption) (by assumption) (by assumption) (by assumption) (by assumption) (by assumption) (by assumption) (by assumption) (by assumption) (by assumption) | simp +contextual (maxDischargeDepth := 60) [*]

@[simp] theorem touches_State_atPort {ps : List Part} {s0 s : State} (hk : Touches ps s0 s) (h_now : Part.now ∈ ps) (h_islands : Part.islands ∈ ps) (port t : Nat) (f : VfFrame) (act : State → State) (hact : ∀ t, Touches ps s0 t → Touches ps s0 (act t)) : Touches ps s0 (State.atPort s port t f act) := by
  unfold State.atPort
  first
  | simp +contextual (maxDischargeDepth := 60) [*]; done
  | ((try dsimp only); (repeat' split) <;> simp +contextual (maxDischargeDepth := 60) [*])

@[simp] theorem touches_State_planeUp {ps : List Part} {s0 s : State} (hk : Touches ps s0 s) (h_peers : Part.peers ∈ ps) (h_lostPeers : Part.lostPeers ∈ ps) (h : Half) (peer plane : Nat) : Touches ps s0 (State.planeUp s h peer plane) := by
  unfold State.planeUp
  first
  | simp +contextual (maxDischargeDepth := 60) [*]; done
  | ((try dsimp only); (repeat' split) <;> simp +contextual (maxDischargeDepth := 60) [*])

@[simp] theorem touches_State_frameAcked {ps : List Part} {s0 s : State} (hk : Touches ps s0 s) (h_items : Part.items ∈ ps) (h_tickets : Part.tickets ∈ ps) (f : VfFrame) : Touches ps s0 (State.frameAcked s f) := by
  unfold State.frameAcked
  first
  | simp +contextual (maxDischargeDepth := 60) [*]; done
  | ((try dsimp only); (repeat' split) <;> simp +contextual (maxDischargeDepth := 60) [*])

@[simp] theorem touches_ackEffect {ps : List Part} {s0 s : State} (hk : Touches ps s0 s) (h_out : Part.out ∈ ps) (h_free : Part.free ∈ ps) (h_items : Part.items ∈ ps) (h_islands : Part.islands ∈ ps) (h_tickets : Part.tickets ∈ ps) (h_peers : Part.peers ∈ ps) (h_lostPeers : Part.lostPeers ∈ ps) (port : Nat) (f : VfFrame) : Touches ps s0 (ackEffect port f s) := by
  unfold ackEffect
  first
  | simp +contextual (maxDischargeDepth := 60) [*]; done
  | ((try dsimp only); (repeat' split) <;> simp +contextual (maxDischargeDepth := 60) [*])

@[simp] theorem touches_State_missPlane {ps : List Part} {s0 s : State} (hk : Touches ps s0 s) (h_islands : Part.islands ∈ ps) (h_peers : Part.peers ∈ ps) (h : Half) (peer plane : Nat) : Touches ps s0 (State.missPlane s h peer plane) := by
  unfold State.missPlane
  first
  | simp +contextual (maxDischargeDepth := 60) [*]; done
  | ((try dsimp only); (repeat' split) <;> simp +contextual (maxDischargeDepth := 60) [*])

@[simp] theorem touches_retransmit {ps : List Part} {s0 s : State} (hk : Touches ps s0 s) (h_out : Part.out ∈ ps) (h_items : Part.items ∈ ps) (h_islands : Part.islands ∈ ps) (h_peers : Part.peers ∈ ps) (h : Half) (peer seq : Nat) : Touches ps s0 (retransmit h peer seq s) := by
  unfold retransmit
  first
  | simp +contextual (maxDischargeDepth := 60) [*]; done
  | ((try dsimp only); (repeat' split) <;> simp +contextual (maxDischargeDepth := 60) [*])

@[simp] theorem touches_planeProbe {ps : List Part} {s0 s : State} (hk : Touches ps s0 s) (h_out : Part.out ∈ ps) (h_islands : Part.islands ∈ ps) (h_peers : Part.peers ∈ ps) (h : Half) (peer plane : Nat) : Touches ps s0 (planeProbe h peer plane s) := by
  unfold planeProbe
  first
  | simp +contextual (maxDischargeDepth := 60) [*]; done
  | ((try dsimp only); (repeat' split) <;> simp +contextual (maxDischargeDepth := 60) [*])

@[simp] theorem touches_State_notify {ps : List Part} {s0 s : State} (hk : Touches ps s0 s) (h_out : Part.out ∈ ps) (h_free : Part.free ∈ ps) (h_islands : Part.islands ∈ ps) (h_peers : Part.peers ∈ ps) (h : Half) (account peer : Nat) (groups : List Nat) : Touches ps s0 (State.notify s h account peer groups) := by
  unfold State.notify
  first
  | simp +contextual (maxDischargeDepth := 60) [*]; done
  | ((try dsimp only); (repeat' split) <;> simp +contextual (maxDischargeDepth := 60) [*])

@[simp] theorem touches_losePeer {ps : List Part} {s0 s : State} (hk : Touches ps s0 s) (h_out : Part.out ∈ ps) (h_free : Part.free ∈ ps) (h_cmem : Part.cmem ∈ ps) (h_lastWrite : Part.lastWrite ∈ ps) (h_rings : Part.rings ∈ ps) (h_accounts : Part.accounts ∈ ps) (h_tensors : Part.tensors ∈ ps) (h_tallies : Part.tallies ∈ ps) (h_items : Part.items ∈ ps) (h_heldWaits : Part.heldWaits ∈ ps) (h_islands : Part.islands ∈ ps) (h_decks : Part.decks ∈ ps) (h_aabs : Part.aabs ∈ ps) (h_dtbs : Part.dtbs ∈ ps) (h_tellers : Part.tellers ∈ ps) (h_tickets : Part.tickets ∈ ps) (h_peers : Part.peers ∈ ps) (h_lostPeers : Part.lostPeers ∈ ps) (h_dumpDue : Part.dumpDue ∈ ps) (peer : Nat) : Touches ps s0 (losePeer peer s) := by
  unfold losePeer
  first
  | simp +contextual (maxDischargeDepth := 60) [*]; done
  | ((try dsimp only); (repeat' split) <;> simp +contextual (maxDischargeDepth := 60) [*])

@[simp] theorem touches_closeContext {ps : List Part} {s0 s : State} (hk : Touches ps s0 s) (h_peers : Part.peers ∈ ps) (h : Half) (peer : Nat) (makeRoom : Bool) : Touches ps s0 (closeContext h peer makeRoom s) := by
  unfold closeContext
  first
  | simp +contextual (maxDischargeDepth := 60) [*]; done
  | ((try dsimp only); (repeat' split) <;> simp +contextual (maxDischargeDepth := 60) [*])

@[simp] theorem touches_State_serveRing {ps : List Part} {s0 s : State} (hk : Touches ps s0 s) (h_accounts : Part.accounts ∈ ps) (x : Item) : Touches ps s0 (State.serveRing s x) := by
  unfold State.serveRing
  first
  | simp +contextual (maxDischargeDepth := 60) [*]; done
  | ((try dsimp only); (repeat' split) <;> simp +contextual (maxDischargeDepth := 60) [*])

@[simp] theorem touches_State_beginVersions {ps : List Part} {s0 s : State} (hk : Touches ps s0 s) (h_tensors : Part.tensors ∈ ps) (id : Nat) (x : Item) : Touches ps s0 (State.beginVersions s id x) := by
  unfold State.beginVersions
  first
  | simp +contextual (maxDischargeDepth := 60) [*]; done
  | ((try dsimp only); (repeat' split) <;> simp +contextual (maxDischargeDepth := 60) [*])

@[simp] theorem touches_State_takeHolds {ps : List Part} {s0 s : State} (hk : Touches ps s0 s) (h_decks : Part.decks ∈ ps) (id : Nat) (decks : List Nat) : Touches ps s0 (State.takeHolds s id decks) := by
  unfold State.takeHolds
  first
  | simp +contextual (maxDischargeDepth := 60) [*]; done
  | ((try dsimp only); (repeat' split) <;> simp +contextual (maxDischargeDepth := 60) [*])

@[simp] theorem touches_State_pin {ps : List Part} {s0 s : State} (hk : Touches ps s0 s) (h_tensors : Part.tensors ∈ ps) (x : Item) : Touches ps s0 (State.pin s x) := by
  unfold State.pin
  first
  | simp +contextual (maxDischargeDepth := 60) [*]; done
  | ((try dsimp only); (repeat' split) <;> simp +contextual (maxDischargeDepth := 60) [*])

@[simp] theorem touches_State_run {ps : List Part} {s0 s : State} (hk : Touches ps s0 s) (h_items : Part.items ∈ ps) (id : Nat) (x : Item) : Touches ps s0 (State.run s id x) := by
  unfold State.run
  first
  | simp +contextual (maxDischargeDepth := 60) [*]; done
  | ((try dsimp only); (repeat' split) <;> simp +contextual (maxDischargeDepth := 60) [*])

@[simp] theorem touches_startGemm {ps : List Part} {s0 s : State} (hk : Touches ps s0 s) (h_out : Part.out ∈ ps) (h_free : Part.free ∈ ps) (h_cmem : Part.cmem ∈ ps) (h_lastWrite : Part.lastWrite ∈ ps) (h_rings : Part.rings ∈ ps) (h_accounts : Part.accounts ∈ ps) (h_tensors : Part.tensors ∈ ps) (h_tallies : Part.tallies ∈ ps) (h_items : Part.items ∈ ps) (h_heldWaits : Part.heldWaits ∈ ps) (h_islands : Part.islands ∈ ps) (h_decks : Part.decks ∈ ps) (h_aabs : Part.aabs ∈ ps) (h_dtbs : Part.dtbs ∈ ps) (h_tellers : Part.tellers ∈ ps) (h_tickets : Part.tickets ∈ ps) (h_peers : Part.peers ∈ ps) (id : Nat) (x : Item) : Touches ps s0 (startGemm s id x) := by
  unfold startGemm
  first
  | simp +contextual (maxDischargeDepth := 60) [*]; done
  | ((try dsimp only); (repeat' split) <;> simp +contextual (maxDischargeDepth := 60) [*])

@[simp] theorem touches_startUpdate {ps : List Part} {s0 s : State} (hk : Touches ps s0 s) (h_out : Part.out ∈ ps) (h_free : Part.free ∈ ps) (h_cmem : Part.cmem ∈ ps) (h_lastWrite : Part.lastWrite ∈ ps) (h_rings : Part.rings ∈ ps) (h_accounts : Part.accounts ∈ ps) (h_tensors : Part.tensors ∈ ps) (h_tallies : Part.tallies ∈ ps) (h_items : Part.items ∈ ps) (h_heldWaits : Part.heldWaits ∈ ps) (h_islands : Part.islands ∈ ps) (h_decks : Part.decks ∈ ps) (h_aabs : Part.aabs ∈ ps) (h_dtbs : Part.dtbs ∈ ps) (h_tellers : Part.tellers ∈ ps) (h_tickets : Part.tickets ∈ ps) (h_peers : Part.peers ∈ ps) (h_dumpDue : Part.dumpDue ∈ ps) (id : Nat) (x : Item) : Touches ps s0 (startUpdate s id x) := by
  unfold startUpdate
  first
  | simp +contextual (maxDischargeDepth := 60) [*]; done
  | ((try dsimp only); (repeat' split) <;> simp +contextual (maxDischargeDepth := 60) [*])

@[simp] theorem touches_startSettle {ps : List Part} {s0 s : State} (hk : Touches ps s0 s) (h_items : Part.items ∈ ps) (id : Nat) (x : Item) : Touches ps s0 (startSettle s id x) := by
  unfold startSettle
  first
  | simp +contextual (maxDischargeDepth := 60) [*]; done
  | ((try dsimp only); (repeat' split) <;> simp +contextual (maxDischargeDepth := 60) [*])

@[simp] theorem touches_startClear {ps : List Part} {s0 s : State} (hk : Touches ps s0 s) (h_out : Part.out ∈ ps) (h_free : Part.free ∈ ps) (h_cmem : Part.cmem ∈ ps) (h_lastWrite : Part.lastWrite ∈ ps) (h_rings : Part.rings ∈ ps) (h_accounts : Part.accounts ∈ ps) (h_tensors : Part.tensors ∈ ps) (h_tallies : Part.tallies ∈ ps) (h_items : Part.items ∈ ps) (h_heldWaits : Part.heldWaits ∈ ps) (h_islands : Part.islands ∈ ps) (h_decks : Part.decks ∈ ps) (h_aabs : Part.aabs ∈ ps) (h_dtbs : Part.dtbs ∈ ps) (h_tellers : Part.tellers ∈ ps) (h_tickets : Part.tickets ∈ ps) (h_offers : Part.offers ∈ ps) (h_peers : Part.peers ∈ ps) (h_dumpDue : Part.dumpDue ∈ ps) (id : Nat) (x : Item) : Touches ps s0 (startClear s id x) := by
  unfold startClear
  first
  | simp +contextual (maxDischargeDepth := 60) [*]; done
  | ((try dsimp only); (repeat' split) <;> simp +contextual (maxDischargeDepth := 60) [*])

@[simp] theorem touches_startStash {ps : List Part} {s0 s : State} (hk : Touches ps s0 s) (h_out : Part.out ∈ ps) (h_free : Part.free ∈ ps) (h_cmem : Part.cmem ∈ ps) (h_lastWrite : Part.lastWrite ∈ ps) (h_rings : Part.rings ∈ ps) (h_accounts : Part.accounts ∈ ps) (h_tensors : Part.tensors ∈ ps) (h_tallies : Part.tallies ∈ ps) (h_items : Part.items ∈ ps) (h_heldWaits : Part.heldWaits ∈ ps) (h_islands : Part.islands ∈ ps) (h_decks : Part.decks ∈ ps) (h_aabs : Part.aabs ∈ ps) (h_dtbs : Part.dtbs ∈ ps) (h_tellers : Part.tellers ∈ ps) (h_tickets : Part.tickets ∈ ps) (h_peers : Part.peers ∈ ps) (id : Nat) (x : Item) : Touches ps s0 (startStash s id x) := by
  unfold startStash
  first
  | simp +contextual (maxDischargeDepth := 60) [*]; done
  | ((try dsimp only); (repeat' split) <;> simp +contextual (maxDischargeDepth := 60) [*])

@[simp] theorem touches_startItem {ps : List Part} {s0 s : State} (hk : Touches ps s0 s) (h_out : Part.out ∈ ps) (h_free : Part.free ∈ ps) (h_cmem : Part.cmem ∈ ps) (h_lastWrite : Part.lastWrite ∈ ps) (h_rings : Part.rings ∈ ps) (h_accounts : Part.accounts ∈ ps) (h_tensors : Part.tensors ∈ ps) (h_tallies : Part.tallies ∈ ps) (h_items : Part.items ∈ ps) (h_heldWaits : Part.heldWaits ∈ ps) (h_islands : Part.islands ∈ ps) (h_decks : Part.decks ∈ ps) (h_aabs : Part.aabs ∈ ps) (h_dtbs : Part.dtbs ∈ ps) (h_tellers : Part.tellers ∈ ps) (h_tickets : Part.tickets ∈ ps) (h_offers : Part.offers ∈ ps) (h_peers : Part.peers ∈ ps) (h_dumpDue : Part.dumpDue ∈ ps) (id : Nat) (x : Item) : Touches ps s0 (startItem s id x) := by
  unfold startItem
  first
  | simp +contextual (maxDischargeDepth := 60) [*]; done
  | ((try dsimp only); (repeat' split) <;> simp +contextual (maxDischargeDepth := 60) [*])

@[simp] theorem touches_startEffect {ps : List Part} {s0 s : State} (hk : Touches ps s0 s) (h_out : Part.out ∈ ps) (h_free : Part.free ∈ ps) (h_cmem : Part.cmem ∈ ps) (h_lastWrite : Part.lastWrite ∈ ps) (h_rings : Part.rings ∈ ps) (h_accounts : Part.accounts ∈ ps) (h_tensors : Part.tensors ∈ ps) (h_tallies : Part.tallies ∈ ps) (h_items : Part.items ∈ ps) (h_heldWaits : Part.heldWaits ∈ ps) (h_islands : Part.islands ∈ ps) (h_decks : Part.decks ∈ ps) (h_aabs : Part.aabs ∈ ps) (h_dtbs : Part.dtbs ∈ ps) (h_tellers : Part.tellers ∈ ps) (h_tickets : Part.tickets ∈ ps) (h_offers : Part.offers ∈ ps) (h_peers : Part.peers ∈ ps) (h_dumpDue : Part.dumpDue ∈ ps) (id : Nat) (x : Item) : Touches ps s0 (startEffect s id x) := by
  unfold startEffect
  first
  | simp +contextual (maxDischargeDepth := 60) [*]; done
  | ((try dsimp only); (repeat' split) <;> simp +contextual (maxDischargeDepth := 60) [*])

@[simp] theorem touches_unitStart {ps : List Part} {s0 s : State} (hk : Touches ps s0 s) (h_flash : Part.flash ∈ ps) (h_items : Part.items ∈ ps) (h_islands : Part.islands ∈ ps) (h_decks : Part.decks ∈ ps) (h_aabs : Part.aabs ∈ ps) (h_dtbs : Part.dtbs ∈ ps) (h_tellers : Part.tellers ∈ ps) (h_banks : Part.banks ∈ ps) (h_recovering : Part.recovering ∈ ps) (h_recoveryQueue : Part.recoveryQueue ∈ ps) (h_dumpDue : Part.dumpDue ∈ ps) (teller n id unit cycle : Nat) (check : BlockCheck) (x : Item) : Touches ps s0 (unitStart teller n id unit cycle check s x) := by
  unfold unitStart
  first
  | simp +contextual (maxDischargeDepth := 60) [*]; done
  | ((try dsimp only); (repeat' split) <;> simp +contextual (maxDischargeDepth := 60) [*])

@[simp] theorem touches_secondPass {ps : List Part} {s0 s : State} (hk : Touches ps s0 s) (h_items : Part.items ∈ ps) (id : Nat) (x : Item) : Touches ps s0 (secondPass id s x) := by
  unfold secondPass
  first
  | simp +contextual (maxDischargeDepth := 60) [*]; done
  | ((try dsimp only); (repeat' split) <;> simp +contextual (maxDischargeDepth := 60) [*])

@[simp] theorem touches_State_endUnit {ps : List Part} {s0 s : State} (hk : Touches ps s0 s) (h_out : Part.out ∈ ps) (h_free : Part.free ∈ ps) (h_cmem : Part.cmem ∈ ps) (h_lastWrite : Part.lastWrite ∈ ps) (h_rings : Part.rings ∈ ps) (h_accounts : Part.accounts ∈ ps) (h_tensors : Part.tensors ∈ ps) (h_tallies : Part.tallies ∈ ps) (h_items : Part.items ∈ ps) (h_heldWaits : Part.heldWaits ∈ ps) (h_islands : Part.islands ∈ ps) (h_decks : Part.decks ∈ ps) (h_aabs : Part.aabs ∈ ps) (h_dtbs : Part.dtbs ∈ ps) (h_tellers : Part.tellers ∈ ps) (h_tickets : Part.tickets ∈ ps) (h_peers : Part.peers ∈ ps) (teller n id : Nat) : Touches ps s0 (State.endUnit s teller n id) := by
  unfold State.endUnit
  first
  | simp +contextual (maxDischargeDepth := 60) [*]; done
  | ((try dsimp only); (repeat' split) <;> simp +contextual (maxDischargeDepth := 60) [*])

@[simp] theorem touches_State_issueState {ps : List Part} {s0 s : State} (hk : Touches ps s0 s) (h_out : Part.out ∈ ps) (h_free : Part.free ∈ ps) (h_cmem : Part.cmem ∈ ps) (h_lastWrite : Part.lastWrite ∈ ps) (h_rings : Part.rings ∈ ps) (h_accounts : Part.accounts ∈ ps) (h_tensors : Part.tensors ∈ ps) (h_tallies : Part.tallies ∈ ps) (h_items : Part.items ∈ ps) (h_heldWaits : Part.heldWaits ∈ ps) (h_islands : Part.islands ∈ ps) (h_decks : Part.decks ∈ ps) (h_aabs : Part.aabs ∈ ps) (h_dtbs : Part.dtbs ∈ ps) (h_tellers : Part.tellers ∈ ps) (h_tickets : Part.tickets ∈ ps) (h_peers : Part.peers ∈ ps) (teller n cycle : Nat) : Touches ps s0 (State.issueState s teller n cycle) := by
  unfold State.issueState
  first
  | simp +contextual (maxDischargeDepth := 60) [*]; done
  | ((try dsimp only); (repeat' split) <;> simp +contextual (maxDischargeDepth := 60) [*])

@[simp] theorem touches_imageToTeller {ps : List Part} {s0 s : State} (hk : Touches ps s0 s) (h_islands : Part.islands ∈ ps) (h_tellers : Part.tellers ∈ ps) (teller slot cycle : Nat) (x : Item) : Touches ps s0 (imageToTeller teller slot cycle s x) := by
  unfold imageToTeller
  first
  | simp +contextual (maxDischargeDepth := 60) [*]; done
  | ((try dsimp only); (repeat' split) <;> simp +contextual (maxDischargeDepth := 60) [*])

@[simp] theorem touches_State_carriesRecovered {ps : List Part} {s0 s : State} (hk : Touches ps s0 s) (h_items : Part.items ∈ ps) (item : Nat) : Touches ps s0 (State.carriesRecovered s item) := by
  unfold State.carriesRecovered
  first
  | simp +contextual (maxDischargeDepth := 60) [*]; done
  | ((try dsimp only); (repeat' split) <;> simp +contextual (maxDischargeDepth := 60) [*])

@[simp] theorem touches_State_readPoison {ps : List Part} {s0 s : State} (hk : Touches ps s0 s) (h_out : Part.out ∈ ps) (h_free : Part.free ∈ ps) (h_cmem : Part.cmem ∈ ps) (h_lastWrite : Part.lastWrite ∈ ps) (h_rings : Part.rings ∈ ps) (h_accounts : Part.accounts ∈ ps) (h_tensors : Part.tensors ∈ ps) (h_tallies : Part.tallies ∈ ps) (h_items : Part.items ∈ ps) (h_heldWaits : Part.heldWaits ∈ ps) (h_islands : Part.islands ∈ ps) (h_decks : Part.decks ∈ ps) (h_aabs : Part.aabs ∈ ps) (h_dtbs : Part.dtbs ∈ ps) (h_tellers : Part.tellers ∈ ps) (h_tickets : Part.tickets ∈ ps) (h_peers : Part.peers ∈ ps) (h_dumpDue : Part.dumpDue ∈ ps) (item : Nat) (poisoned : Bool) (holds : Holds) : Touches ps s0 (State.readPoison s item poisoned holds) := by
  unfold State.readPoison
  first
  | simp +contextual (maxDischargeDepth := 60) [*]; done
  | ((try dsimp only); (repeat' split) <;> simp +contextual (maxDischargeDepth := 60) [*])

@[simp] theorem touches_State_bankPoison {ps : List Part} {s0 s : State} (hk : Touches ps s0 s) (h_islands : Part.islands ∈ ps) (h_dumpDue : Part.dumpDue ∈ ps) (b item : Nat) (bad : List Nat) : Touches ps s0 (State.bankPoison s b item bad) := by
  unfold State.bankPoison
  first
  | simp +contextual (maxDischargeDepth := 60) [*]; done
  | ((try dsimp only); (repeat' split) <;> simp +contextual (maxDischargeDepth := 60) [*])

@[simp] theorem touches_State_checkGranules {ps : List Part} {s0 s : State} (hk : Touches ps s0 s) (h_islands : Part.islands ∈ ps) (h_banks : Part.banks ∈ ps) (h_dumpDue : Part.dumpDue ∈ ps) (b item : Nat) (gs : List Nat) : Touches ps s0 (State.checkGranules s b item gs) := by
  unfold State.checkGranules
  first
  | simp +contextual (maxDischargeDepth := 60) [*]; done
  | ((try dsimp only); (repeat' split) <;> simp +contextual (maxDischargeDepth := 60) [*])

@[simp] theorem touches_State_strikeBank {ps : List Part} {s0 s : State} (hk : Touches ps s0 s) (h_banks : Part.banks ∈ ps) (b : Nat) (upsets : List Upset) : Touches ps s0 (State.strikeBank s b upsets) := by
  unfold State.strikeBank
  first
  | simp +contextual (maxDischargeDepth := 60) [*]; done
  | ((try dsimp only); (repeat' split) <;> simp +contextual (maxDischargeDepth := 60) [*])

@[simp] theorem touches_State_serveWrite {ps : List Part} {s0 s : State} (hk : Touches ps s0 s) (h_islands : Part.islands ∈ ps) (h_banks : Part.banks ∈ ps) (b : Nat) (r : PortRequest) : Touches ps s0 (State.serveWrite s b r) := by
  unfold State.serveWrite
  first
  | simp +contextual (maxDischargeDepth := 60) [*]; done
  | ((try dsimp only); (repeat' split) <;> simp +contextual (maxDischargeDepth := 60) [*])

@[simp] theorem touches_State_serveRead {ps : List Part} {s0 s : State} (hk : Touches ps s0 s) (h_out : Part.out ∈ ps) (h_free : Part.free ∈ ps) (h_cmem : Part.cmem ∈ ps) (h_lastWrite : Part.lastWrite ∈ ps) (h_rings : Part.rings ∈ ps) (h_accounts : Part.accounts ∈ ps) (h_tensors : Part.tensors ∈ ps) (h_tallies : Part.tallies ∈ ps) (h_items : Part.items ∈ ps) (h_heldWaits : Part.heldWaits ∈ ps) (h_islands : Part.islands ∈ ps) (h_decks : Part.decks ∈ ps) (h_aabs : Part.aabs ∈ ps) (h_dtbs : Part.dtbs ∈ ps) (h_tellers : Part.tellers ∈ ps) (h_banks : Part.banks ∈ ps) (h_tickets : Part.tickets ∈ ps) (h_peers : Part.peers ∈ ps) (h_dumpDue : Part.dumpDue ∈ ps) (b : Nat) (r : PortRequest) : Touches ps s0 (State.serveRead s b r) := by
  unfold State.serveRead
  first
  | simp +contextual (maxDischargeDepth := 60) [*]; done
  | ((try dsimp only); (repeat' split) <;> simp +contextual (maxDischargeDepth := 60) [*])

theorem touches_serveWith {ps : List Part} {s0 t : State} (h : Touches ps s0 t) (f : State → PortRequest → State) (hf : ∀ u q, Touches ps s0 u → Touches ps s0 (f u q))
    (served : Option PortRequest) : Touches ps s0 (serveWith f served t) := by
  unfold serveWith
  split
  · exact hf _ _ h
  · exact h

@[simp] theorem touches_bankCycle {ps : List Part} {s0 s : State} (hk : Touches ps s0 s) (h_out : Part.out ∈ ps) (h_free : Part.free ∈ ps) (h_cmem : Part.cmem ∈ ps) (h_lastWrite : Part.lastWrite ∈ ps) (h_rings : Part.rings ∈ ps) (h_accounts : Part.accounts ∈ ps) (h_tensors : Part.tensors ∈ ps) (h_tallies : Part.tallies ∈ ps) (h_items : Part.items ∈ ps) (h_heldWaits : Part.heldWaits ∈ ps) (h_islands : Part.islands ∈ ps) (h_decks : Part.decks ∈ ps) (h_aabs : Part.aabs ∈ ps) (h_dtbs : Part.dtbs ∈ ps) (h_tellers : Part.tellers ∈ ps) (h_banks : Part.banks ∈ ps) (h_tickets : Part.tickets ∈ ps) (h_peers : Part.peers ∈ ps) (h_dumpDue : Part.dumpDue ∈ ps) (b : Nat) (reads writes : List PortRequest) : Touches ps s0 (bankCycle b reads writes s) := by
  unfold bankCycle
  dsimp only
  refine touches_serveWith (touches_serveWith ?_ _ (fun u q hu => touches_State_serveWrite hu (by assumption) (by assumption) _ _) _) _ (fun u q hu => touches_State_serveRead hu (by assumption) (by assumption) (by assumption) (by assumption) (by assumption) (by assumption) (by assumption) (by assumption) (by assumption) (by assumption) (by assumption) (by assumption) (by assumption) (by assumption) (by assumption) (by assumption) (by assumption) (by assumption) (by assumption) _ _) _
  simp +contextual (maxDischargeDepth := 60) [*]

@[simp] theorem touches_State_queueTail {ps : List Part} {s0 s : State} (hk : Touches ps s0 s) (h_banks : Part.banks ∈ ps) (b : Nat) (r : PortRequest) : Touches ps s0 (State.queueTail s b r) := by
  unfold State.queueTail
  first
  | simp +contextual (maxDischargeDepth := 60) [*]; done
  | ((try dsimp only); (repeat' split) <;> simp +contextual (maxDischargeDepth := 60) [*])

@[simp] theorem touches_bankTurn {ps : List Part} {s0 s : State} (hk : Touches ps s0 s) (h_out : Part.out ∈ ps) (h_free : Part.free ∈ ps) (h_cmem : Part.cmem ∈ ps) (h_lastWrite : Part.lastWrite ∈ ps) (h_rings : Part.rings ∈ ps) (h_accounts : Part.accounts ∈ ps) (h_tensors : Part.tensors ∈ ps) (h_tallies : Part.tallies ∈ ps) (h_items : Part.items ∈ ps) (h_heldWaits : Part.heldWaits ∈ ps) (h_islands : Part.islands ∈ ps) (h_decks : Part.decks ∈ ps) (h_aabs : Part.aabs ∈ ps) (h_dtbs : Part.dtbs ∈ ps) (h_tellers : Part.tellers ∈ ps) (h_banks : Part.banks ∈ ps) (h_tickets : Part.tickets ∈ ps) (h_peers : Part.peers ∈ ps) (h_dumpDue : Part.dumpDue ∈ ps) (b : Nat) (reads writes : List PortRequest) : Touches ps s0 (bankTurn b reads writes s) := by
  unfold bankTurn
  first
  | simp +contextual (maxDischargeDepth := 60) [*]; done
  | ((try dsimp only); (repeat' split) <;> simp +contextual (maxDischargeDepth := 60) [*])

@[simp] theorem touches_bankRead {ps : List Part} {s0 s : State} (hk : Touches ps s0 s) (h_out : Part.out ∈ ps) (h_free : Part.free ∈ ps) (h_cmem : Part.cmem ∈ ps) (h_lastWrite : Part.lastWrite ∈ ps) (h_flash : Part.flash ∈ ps) (h_rings : Part.rings ∈ ps) (h_accounts : Part.accounts ∈ ps) (h_tensors : Part.tensors ∈ ps) (h_tallies : Part.tallies ∈ ps) (h_items : Part.items ∈ ps) (h_heldWaits : Part.heldWaits ∈ ps) (h_islands : Part.islands ∈ ps) (h_decks : Part.decks ∈ ps) (h_aabs : Part.aabs ∈ ps) (h_dtbs : Part.dtbs ∈ ps) (h_tellers : Part.tellers ∈ ps) (h_banks : Part.banks ∈ ps) (h_tickets : Part.tickets ∈ ps) (h_peers : Part.peers ∈ ps) (h_recovering : Part.recovering ∈ ps) (h_recoveryQueue : Part.recoveryQueue ∈ ps) (h_dumpDue : Part.dumpDue ∈ ps) (b : Nat) (r : PortRequest) (upsets : List Upset) (check : BlockCheck) : Touches ps s0 (bankRead b r upsets check s) := by
  unfold bankRead
  first
  | simp +contextual (maxDischargeDepth := 60) [*]; done
  | ((try dsimp only); (repeat' split) <;> simp +contextual (maxDischargeDepth := 60) [*])

@[simp] theorem touches_State_hbmPoison {ps : List Part} {s0 s : State} (hk : Touches ps s0 s) (h_islands : Part.islands ∈ ps) (h_dumpDue : Part.dumpDue ∈ ps) (k item : Nat) (bad : List Nat) : Touches ps s0 (State.hbmPoison s k item bad) := by
  unfold State.hbmPoison
  first
  | simp +contextual (maxDischargeDepth := 60) [*]; done
  | ((try dsimp only); (repeat' split) <;> simp +contextual (maxDischargeDepth := 60) [*])

@[simp] theorem touches_State_checkStack {ps : List Part} {s0 s : State} (hk : Touches ps s0 s) (h_islands : Part.islands ∈ ps) (h_hbmStacks : Part.hbmStacks ∈ ps) (h_dumpDue : Part.dumpDue ∈ ps) (k item : Nat) (gs : List Nat) : Touches ps s0 (State.checkStack s k item gs) := by
  unfold State.checkStack
  first
  | simp +contextual (maxDischargeDepth := 60) [*]; done
  | ((try dsimp only); (repeat' split) <;> simp +contextual (maxDischargeDepth := 60) [*])

@[simp] theorem touches_State_strikeStack {ps : List Part} {s0 s : State} (hk : Touches ps s0 s) (h_hbmStacks : Part.hbmStacks ∈ ps) (k : Nat) (upsets : List Upset) : Touches ps s0 (State.strikeStack s k upsets) := by
  unfold State.strikeStack
  first
  | simp +contextual (maxDischargeDepth := 60) [*]; done
  | ((try dsimp only); (repeat' split) <;> simp +contextual (maxDischargeDepth := 60) [*])

@[simp] theorem touches_State_serveStack {ps : List Part} {s0 s : State} (hk : Touches ps s0 s) (h_out : Part.out ∈ ps) (h_free : Part.free ∈ ps) (h_cmem : Part.cmem ∈ ps) (h_lastWrite : Part.lastWrite ∈ ps) (h_rings : Part.rings ∈ ps) (h_accounts : Part.accounts ∈ ps) (h_tensors : Part.tensors ∈ ps) (h_tallies : Part.tallies ∈ ps) (h_items : Part.items ∈ ps) (h_heldWaits : Part.heldWaits ∈ ps) (h_islands : Part.islands ∈ ps) (h_decks : Part.decks ∈ ps) (h_aabs : Part.aabs ∈ ps) (h_dtbs : Part.dtbs ∈ ps) (h_tellers : Part.tellers ∈ ps) (h_hbmStacks : Part.hbmStacks ∈ ps) (h_tickets : Part.tickets ∈ ps) (h_peers : Part.peers ∈ ps) (h_dumpDue : Part.dumpDue ∈ ps) (k item : Nat) (holds : Holds) (bytes : List Byte) (gs : List Nat) : Touches ps s0 (State.serveStack s k item holds bytes gs) := by
  unfold State.serveStack
  first
  | simp +contextual (maxDischargeDepth := 60) [*]; done
  | ((try dsimp only); (repeat' split) <;> simp +contextual (maxDischargeDepth := 60) [*])

@[simp] theorem touches_hbmRead {ps : List Part} {s0 s : State} (hk : Touches ps s0 s) (h_out : Part.out ∈ ps) (h_free : Part.free ∈ ps) (h_cmem : Part.cmem ∈ ps) (h_lastWrite : Part.lastWrite ∈ ps) (h_rings : Part.rings ∈ ps) (h_accounts : Part.accounts ∈ ps) (h_tensors : Part.tensors ∈ ps) (h_tallies : Part.tallies ∈ ps) (h_items : Part.items ∈ ps) (h_heldWaits : Part.heldWaits ∈ ps) (h_islands : Part.islands ∈ ps) (h_decks : Part.decks ∈ ps) (h_aabs : Part.aabs ∈ ps) (h_dtbs : Part.dtbs ∈ ps) (h_tellers : Part.tellers ∈ ps) (h_hbmStacks : Part.hbmStacks ∈ ps) (h_tickets : Part.tickets ∈ ps) (h_peers : Part.peers ∈ ps) (h_dumpDue : Part.dumpDue ∈ ps) (k extent offset length : Nat) (upsets : List Upset) (item : Nat) (holds : Holds) : Touches ps s0 (hbmRead k extent offset length upsets item holds s) := by
  unfold hbmRead
  first
  | simp +contextual (maxDischargeDepth := 60) [*]; done
  | ((try dsimp only); (repeat' split) <;> simp +contextual (maxDischargeDepth := 60) [*])

@[simp] theorem touches_hbmWrite {ps : List Part} {s0 s : State} (hk : Touches ps s0 s) (h_islands : Part.islands ∈ ps) (h_hbmStacks : Part.hbmStacks ∈ ps) (h_dumpDue : Part.dumpDue ∈ ps) (k extent offset : Nat) (bytes : List Byte) : Touches ps s0 (hbmWrite k extent offset bytes s) := by
  unfold hbmWrite
  first
  | simp +contextual (maxDischargeDepth := 60) [*]; done
  | ((try dsimp only); (repeat' split) <;> simp +contextual (maxDischargeDepth := 60) [*])

@[simp] theorem touches_State_setGrant {ps : List Part} {s0 s : State} (hk : Touches ps s0 s) (h_grants : Part.grants ∈ ps) (u : SharedUnit) (g : Grant) : Touches ps s0 (State.setGrant s u g) := by
  unfold State.setGrant
  first
  | simp +contextual (maxDischargeDepth := 60) [*]; done
  | ((try dsimp only); (repeat' split) <;> simp +contextual (maxDischargeDepth := 60) [*])

@[simp] theorem touches_State_setPool {ps : List Part} {s0 s : State} (hk : Touches ps s0 s) (h_pools : Part.pools ∈ ps) (u : SharedUnit) (p : Pool) : Touches ps s0 (State.setPool s u p) := by
  unfold State.setPool
  first
  | simp +contextual (maxDischargeDepth := 60) [*]; done
  | ((try dsimp only); (repeat' split) <;> simp +contextual (maxDischargeDepth := 60) [*])

@[simp] theorem touches_State_endGrant {ps : List Part} {s0 s : State} (hk : Touches ps s0 s) (h_pools : Part.pools ∈ ps) (h_grants : Part.grants ∈ ps) (u : SharedUnit) (t : Nat) : Touches ps s0 (State.endGrant s u t) := by
  unfold State.endGrant
  first
  | simp +contextual (maxDischargeDepth := 60) [*]; done
  | ((try dsimp only); (repeat' split) <;> simp +contextual (maxDischargeDepth := 60) [*])

@[simp] theorem touches_State_switchTo {ps : List Part} {s0 s : State} (hk : Touches ps s0 s) (h_free : Part.free ∈ ps) (h_items : Part.items ∈ ps) (h_islands : Part.islands ∈ ps) (h_dtbs : Part.dtbs ∈ ps) (u : SharedUnit) (account : Nat) : Touches ps s0 (State.switchTo s u account).1 := by
  unfold State.switchTo
  first
  | simp +contextual (maxDischargeDepth := 60) [*]; done
  | ((try dsimp only); (repeat' split) <;> simp +contextual (maxDischargeDepth := 60) [*])

@[simp] theorem touches_State_grantTo {ps : List Part} {s0 s : State} (hk : Touches ps s0 s) (h_free : Part.free ∈ ps) (h_items : Part.items ∈ ps) (h_islands : Part.islands ∈ ps) (h_dtbs : Part.dtbs ∈ ps) (h_pools : Part.pools ∈ ps) (h_grants : Part.grants ∈ ps) (u : SharedUnit) (p : Pool) (r : Ready) (aged : Bool) (t : Nat) : Touches ps s0 (State.grantTo s u p r aged t) := by
  unfold State.grantTo
  first
  | simp +contextual (maxDischargeDepth := 60) [*]; done
  | ((try dsimp only); (repeat' split) <;> simp +contextual (maxDischargeDepth := 60) [*])

@[simp] theorem touches_State_serveOther {ps : List Part} {s0 s : State} (hk : Touches ps s0 s) (h_islands : Part.islands ∈ ps) (u : SharedUnit) (r : Ready) : Touches ps s0 (State.serveOther s u r) := by
  unfold State.serveOther
  first
  | simp +contextual (maxDischargeDepth := 60) [*]; done
  | ((try dsimp only); (repeat' split) <;> simp +contextual (maxDischargeDepth := 60) [*])

@[simp] theorem touches_State_grantNext {ps : List Part} {s0 s : State} (hk : Touches ps s0 s) (h_free : Part.free ∈ ps) (h_items : Part.items ∈ ps) (h_islands : Part.islands ∈ ps) (h_dtbs : Part.dtbs ∈ ps) (h_pools : Part.pools ∈ ps) (h_grants : Part.grants ∈ ps) (u : SharedUnit) (ready : List Ready) (t : Nat) : Touches ps s0 (State.grantNext s u ready t) := by
  unfold State.grantNext
  first
  | simp +contextual (maxDischargeDepth := 60) [*]; done
  | ((try dsimp only); (repeat' split) <;> simp +contextual (maxDischargeDepth := 60) [*])

@[simp] theorem touches_grantPoint {ps : List Part} {s0 s : State} (hk : Touches ps s0 s) (h_free : Part.free ∈ ps) (h_items : Part.items ∈ ps) (h_islands : Part.islands ∈ ps) (h_dtbs : Part.dtbs ∈ ps) (h_pools : Part.pools ∈ ps) (h_grants : Part.grants ∈ ps) (u : SharedUnit) (ready : List Ready) (t : Nat) : Touches ps s0 (grantPoint u ready t s) := by
  unfold grantPoint
  first
  | simp +contextual (maxDischargeDepth := 60) [*]; done
  | ((try dsimp only); (repeat' split) <;> simp +contextual (maxDischargeDepth := 60) [*])

@[simp] theorem touches_State_accepted {ps : List Part} {s0 s : State} (hk : Touches ps s0 s) (h_hub : Part.hub ∈ ps) (command account : Nat) : Touches ps s0 (State.accepted s command account) := by
  unfold State.accepted
  first
  | simp +contextual (maxDischargeDepth := 60) [*]; done
  | ((try dsimp only); (repeat' split) <;> simp +contextual (maxDischargeDepth := 60) [*])

@[simp] theorem touches_State_discardCommand {ps : List Part} {s0 s : State} (hk : Touches ps s0 s) (h_islands : Part.islands ∈ ps) (ep : Half) : Touches ps s0 (State.discardCommand s ep) := by
  unfold State.discardCommand
  first
  | simp +contextual (maxDischargeDepth := 60) [*]; done
  | ((try dsimp only); (repeat' split) <;> simp +contextual (maxDischargeDepth := 60) [*])

@[simp] theorem touches_takeCommand {ps : List Part} {s0 s : State} (hk : Touches ps s0 s) (h_out : Part.out ∈ ps) (h_hub : Part.hub ∈ ps) (h_islands : Part.islands ∈ ps) (ep : Half) (command account : Nat) (act : State → State) (hact : ∀ t, Touches ps s0 t → Touches ps s0 (act t)) : Touches ps s0 (takeCommand ep command account act s) := by
  unfold takeCommand
  first
  | simp +contextual (maxDischargeDepth := 60) [*]; done
  | ((try dsimp only); (repeat' split) <;> simp +contextual (maxDischargeDepth := 60) [*])

@[simp] theorem touches_State_prepareDecks {ps : List Part} {s0 s : State} (hk : Touches ps s0 s) (h_free : Part.free ∈ ps) (h_islands : Part.islands ∈ ps) (h_decks : Part.decks ∈ ps) (h_dumpDue : Part.dumpDue ∈ ps) (n : Nat) (p : Params) : Touches ps s0 (State.prepareDecks s n p) := by
  unfold State.prepareDecks
  first
  | simp +contextual (maxDischargeDepth := 60) [*]; done
  | ((try dsimp only); (repeat' split) <;> simp +contextual (maxDischargeDepth := 60) [*])

@[simp] theorem touches_State_reserveSlots {ps : List Part} {s0 s : State} (hk : Touches ps s0 s) (h_accounts : Part.accounts ∈ ps) (h_hbmStacks : Part.hbmStacks ∈ ps) (n : Nat) : Touches ps s0 (State.reserveSlots s n) := by
  unfold State.reserveSlots
  first
  | simp +contextual (maxDischargeDepth := 60) [*]; done
  | ((try dsimp only); (repeat' split) <;> simp +contextual (maxDischargeDepth := 60) [*])

@[simp] theorem touches_admitEffect {ps : List Part} {s0 s : State} (hk : Touches ps s0 s) (h_free : Part.free ∈ ps) (h_hub : Part.hub ∈ ps) (h_accounts : Part.accounts ∈ ps) (h_islands : Part.islands ∈ ps) (h_decks : Part.decks ∈ ps) (h_hbmStacks : Part.hbmStacks ∈ ps) (h_dumpDue : Part.dumpDue ∈ ps) (n : Nat) : Touches ps s0 (admitEffect n s) := by
  unfold admitEffect
  first
  | simp +contextual (maxDischargeDepth := 60) [*]; done
  | ((try dsimp only); (repeat' split) <;> simp +contextual (maxDischargeDepth := 60) [*])

@[simp] theorem touches_resizeEffect {ps : List Part} {s0 s : State} (hk : Touches ps s0 s) (h_free : Part.free ∈ ps) (h_hub : Part.hub ∈ ps) (h_accounts : Part.accounts ∈ ps) (h_islands : Part.islands ∈ ps) (h_decks : Part.decks ∈ ps) (h_hbmStacks : Part.hbmStacks ∈ ps) (h_dumpDue : Part.dumpDue ∈ ps) (n : Nat) : Touches ps s0 (resizeEffect n s) := by
  unfold resizeEffect
  first
  | simp +contextual (maxDischargeDepth := 60) [*]; done
  | ((try dsimp only); (repeat' split) <;> simp +contextual (maxDischargeDepth := 60) [*])

@[simp] theorem touches_State_stopAccountRings {ps : List Part} {s0 s : State} (hk : Touches ps s0 s) (h_cmem : Part.cmem ∈ ps) (h_lastWrite : Part.lastWrite ∈ ps) (h_rings : Part.rings ∈ ps) (a : Nat) : Touches ps s0 (State.stopAccountRings s a) := by
  unfold State.stopAccountRings
  first
  | simp +contextual (maxDischargeDepth := 60) [*]; done
  | ((try dsimp only); (repeat' split) <;> simp +contextual (maxDischargeDepth := 60) [*])

@[simp] theorem touches_removeEffect {ps : List Part} {s0 s : State} (hk : Touches ps s0 s) (h_out : Part.out ∈ ps) (h_free : Part.free ∈ ps) (h_cmem : Part.cmem ∈ ps) (h_lastWrite : Part.lastWrite ∈ ps) (h_hub : Part.hub ∈ ps) (h_rings : Part.rings ∈ ps) (h_accounts : Part.accounts ∈ ps) (h_tensors : Part.tensors ∈ ps) (h_tallies : Part.tallies ∈ ps) (h_images : Part.images ∈ ps) (h_items : Part.items ∈ ps) (h_heldWaits : Part.heldWaits ∈ ps) (h_islands : Part.islands ∈ ps) (h_decks : Part.decks ∈ ps) (h_aabs : Part.aabs ∈ ps) (h_dtbs : Part.dtbs ∈ ps) (h_tellers : Part.tellers ∈ ps) (h_hbmStacks : Part.hbmStacks ∈ ps) (h_tickets : Part.tickets ∈ ps) (h_offers : Part.offers ∈ ps) (h_peers : Part.peers ∈ ps) (h_pools : Part.pools ∈ ps) (n : Nat) : Touches ps s0 (removeEffect n s) := by
  unfold removeEffect
  first
  | simp +contextual (maxDischargeDepth := 60) [*]; done
  | ((try dsimp only); (repeat' split) <;> simp +contextual (maxDischargeDepth := 60) [*])

@[simp] theorem touches_State_strikeItem {ps : List Part} {s0 s : State} (hk : Touches ps s0 s) (h_out : Part.out ∈ ps) (h_free : Part.free ∈ ps) (h_cmem : Part.cmem ∈ ps) (h_lastWrite : Part.lastWrite ∈ ps) (h_rings : Part.rings ∈ ps) (h_accounts : Part.accounts ∈ ps) (h_tensors : Part.tensors ∈ ps) (h_tallies : Part.tallies ∈ ps) (h_items : Part.items ∈ ps) (h_heldWaits : Part.heldWaits ∈ ps) (h_islands : Part.islands ∈ ps) (h_decks : Part.decks ∈ ps) (h_aabs : Part.aabs ∈ ps) (h_dtbs : Part.dtbs ∈ ps) (h_tellers : Part.tellers ∈ ps) (h_tickets : Part.tickets ∈ ps) (h_peers : Part.peers ∈ ps) (id code : Nat) : Touches ps s0 (State.strikeItem s id code) := by
  unfold State.strikeItem
  first
  | simp +contextual (maxDischargeDepth := 60) [*]; done
  | ((try dsimp only); (repeat' split) <;> simp +contextual (maxDischargeDepth := 60) [*])

@[simp] theorem touches_State_resumeFrom {ps : List Part} {s0 s : State} (hk : Touches ps s0 s) (h_out : Part.out ∈ ps) (h_free : Part.free ∈ ps) (h_cmem : Part.cmem ∈ ps) (h_lastWrite : Part.lastWrite ∈ ps) (h_rings : Part.rings ∈ ps) (h_accounts : Part.accounts ∈ ps) (h_tensors : Part.tensors ∈ ps) (h_tallies : Part.tallies ∈ ps) (h_items : Part.items ∈ ps) (h_heldWaits : Part.heldWaits ∈ ps) (h_islands : Part.islands ∈ ps) (h_decks : Part.decks ∈ ps) (h_aabs : Part.aabs ∈ ps) (h_dtbs : Part.dtbs ∈ ps) (h_tellers : Part.tellers ∈ ps) (h_tickets : Part.tickets ∈ ps) (h_peers : Part.peers ∈ ps) (b code : Nat) : Touches ps s0 (State.resumeFrom s b code) := by
  unfold State.resumeFrom
  first
  | simp +contextual (maxDischargeDepth := 60) [*]; done
  | ((try dsimp only); (repeat' split) <;> simp +contextual (maxDischargeDepth := 60) [*])

@[simp] theorem touches_silentBlock {ps : List Part} {s0 s : State} (hk : Touches ps s0 s) (h_flash : Part.flash ∈ ps) (h_items : Part.items ∈ ps) (h_islands : Part.islands ∈ ps) (h_decks : Part.decks ∈ ps) (h_aabs : Part.aabs ∈ ps) (h_dtbs : Part.dtbs ∈ ps) (h_tellers : Part.tellers ∈ ps) (h_banks : Part.banks ∈ ps) (h_recovering : Part.recovering ∈ ps) (h_recoveryQueue : Part.recoveryQueue ∈ ps) (h_dumpDue : Part.dumpDue ∈ ps) (b : Nat) : Touches ps s0 (silentBlock b s) := by
  unfold silentBlock
  first
  | simp +contextual (maxDischargeDepth := 60) [*]; done
  | ((try dsimp only); (repeat' split) <;> simp +contextual (maxDischargeDepth := 60) [*])

@[simp] theorem touches_State_reboundFault {ps : List Part} {s0 s : State} (hk : Touches ps s0 s) (h_islands : Part.islands ∈ ps) (h_dumpDue : Part.dumpDue ∈ ps) (b region : Nat) (accounts : List Nat) : Touches ps s0 (State.reboundFault s b region accounts) := by
  unfold State.reboundFault
  first
  | simp +contextual (maxDischargeDepth := 60) [*]; done
  | ((try dsimp only); (repeat' split) <;> simp +contextual (maxDischargeDepth := 60) [*])

@[simp] theorem touches_State_cutReservations {ps : List Part} {s0 s : State} (hk : Touches ps s0 s) (h_accounts : Part.accounts ∈ ps)  : Touches ps s0 (State.cutReservations s) := by
  unfold State.cutReservations
  first
  | simp +contextual (maxDischargeDepth := 60) [*]; done
  | ((try dsimp only); (repeat' split) <;> simp +contextual (maxDischargeDepth := 60) [*])

@[simp] theorem touches_State_rebuildTallies {ps : List Part} {s0 s : State} (hk : Touches ps s0 s) (h_free : Part.free ∈ ps) (h_tallies : Part.tallies ∈ ps) (h_heldWaits : Part.heldWaits ∈ ps) (r : Nat) : Touches ps s0 (State.rebuildTallies s r) := by
  unfold State.rebuildTallies
  refine touches_foldl _ _ ?_ hk
  intro t a ht
  (repeat' split) <;> simp +contextual (maxDischargeDepth := 60) [*]

@[simp] theorem touches_State_stripRegion {ps : List Part} {s0 s : State} (hk : Touches ps s0 s) (h_items : Part.items ∈ ps) (h_islands : Part.islands ∈ ps) (h_decks : Part.decks ∈ ps) (h_aabs : Part.aabs ∈ ps) (h_dtbs : Part.dtbs ∈ ps) (h_tellers : Part.tellers ∈ ps) (h_banks : Part.banks ∈ ps) (r : Nat) : Touches ps s0 (State.stripRegion s r) := by
  unfold State.stripRegion
  first
  | simp +contextual (maxDischargeDepth := 60) [*]; done
  | ((try dsimp only); (repeat' split) <;> simp +contextual (maxDischargeDepth := 60) [*])

@[simp] theorem touches_State_recoverRegion {ps : List Part} {s0 s : State} (hk : Touches ps s0 s) (h_out : Part.out ∈ ps) (h_free : Part.free ∈ ps) (h_cmem : Part.cmem ∈ ps) (h_lastWrite : Part.lastWrite ∈ ps) (h_rings : Part.rings ∈ ps) (h_accounts : Part.accounts ∈ ps) (h_tensors : Part.tensors ∈ ps) (h_tallies : Part.tallies ∈ ps) (h_images : Part.images ∈ ps) (h_items : Part.items ∈ ps) (h_heldWaits : Part.heldWaits ∈ ps) (h_islands : Part.islands ∈ ps) (h_decks : Part.decks ∈ ps) (h_aabs : Part.aabs ∈ ps) (h_dtbs : Part.dtbs ∈ ps) (h_tellers : Part.tellers ∈ ps) (h_tickets : Part.tickets ∈ ps) (h_peers : Part.peers ∈ ps) (r words : Nat) : Touches ps s0 (State.recoverRegion s r words) := by
  unfold State.recoverRegion
  first
  | simp +contextual (maxDischargeDepth := 60) [*]; done
  | ((try dsimp only); (repeat' split) <;> simp +contextual (maxDischargeDepth := 60) [*])

@[simp] theorem touches_regionFence {ps : List Part} {s0 s : State} (hk : Touches ps s0 s) (h_out : Part.out ∈ ps) (h_free : Part.free ∈ ps) (h_cmem : Part.cmem ∈ ps) (h_lastWrite : Part.lastWrite ∈ ps) (h_flash : Part.flash ∈ ps) (h_rings : Part.rings ∈ ps) (h_accounts : Part.accounts ∈ ps) (h_tensors : Part.tensors ∈ ps) (h_tallies : Part.tallies ∈ ps) (h_images : Part.images ∈ ps) (h_items : Part.items ∈ ps) (h_heldWaits : Part.heldWaits ∈ ps) (h_islands : Part.islands ∈ ps) (h_decks : Part.decks ∈ ps) (h_aabs : Part.aabs ∈ ps) (h_dtbs : Part.dtbs ∈ ps) (h_tellers : Part.tellers ∈ ps) (h_banks : Part.banks ∈ ps) (h_tickets : Part.tickets ∈ ps) (h_peers : Part.peers ∈ ps) (h_recovering : Part.recovering ∈ ps) (h_recoveryQueue : Part.recoveryQueue ∈ ps) (h_dumpDue : Part.dumpDue ∈ ps) (r failed words : Nat) : Touches ps s0 (regionFence r failed words s) := by
  unfold regionFence
  first
  | simp +contextual (maxDischargeDepth := 60) [*]; done
  | ((try dsimp only); (repeat' split) <;> simp +contextual (maxDischargeDepth := 60) [*])

@[simp] theorem touches_State_assayHomes {ps : List Part} {s0 s : State} (hk : Touches ps s0 s) (h_decks : Part.decks ∈ ps) (hbms : List Nat) : Touches ps s0 (State.assayHomes s hbms) := by
  unfold State.assayHomes
  first
  | simp +contextual (maxDischargeDepth := 60) [*]; done
  | ((try dsimp only); (repeat' split) <;> simp +contextual (maxDischargeDepth := 60) [*])

@[simp] theorem touches_State_dropImages {ps : List Part} {s0 s : State} (hk : Touches ps s0 s) (h_free : Part.free ∈ ps) (h_items : Part.items ∈ ps)  : Touches ps s0 (State.dropImages s) := by
  unfold State.dropImages
  first
  | simp +contextual (maxDischargeDepth := 60) [*]; done
  | ((try dsimp only); (repeat' split) <;> simp +contextual (maxDischargeDepth := 60) [*])

@[simp] theorem touches_State_recoverStacks {ps : List Part} {s0 s : State} (hk : Touches ps s0 s) (h_out : Part.out ∈ ps) (h_free : Part.free ∈ ps) (h_cmem : Part.cmem ∈ ps) (h_lastWrite : Part.lastWrite ∈ ps) (h_rings : Part.rings ∈ ps) (h_accounts : Part.accounts ∈ ps) (h_tensors : Part.tensors ∈ ps) (h_tallies : Part.tallies ∈ ps) (h_images : Part.images ∈ ps) (h_items : Part.items ∈ ps) (h_heldWaits : Part.heldWaits ∈ ps) (h_islands : Part.islands ∈ ps) (h_decks : Part.decks ∈ ps) (h_aabs : Part.aabs ∈ ps) (h_dtbs : Part.dtbs ∈ ps) (h_tellers : Part.tellers ∈ ps) (h_tickets : Part.tickets ∈ ps) (h_peers : Part.peers ∈ ps) (hbms : List Nat) (code : Nat) : Touches ps s0 (State.recoverStacks s hbms code) := by
  unfold State.recoverStacks
  first
  | simp +contextual (maxDischargeDepth := 60) [*]; done
  | ((try dsimp only); (repeat' split) <;> simp +contextual (maxDischargeDepth := 60) [*])

@[simp] theorem touches_hbmFence {ps : List Part} {s0 s : State} (hk : Touches ps s0 s) (h_out : Part.out ∈ ps) (h_free : Part.free ∈ ps) (h_cmem : Part.cmem ∈ ps) (h_lastWrite : Part.lastWrite ∈ ps) (h_flash : Part.flash ∈ ps) (h_rings : Part.rings ∈ ps) (h_accounts : Part.accounts ∈ ps) (h_tensors : Part.tensors ∈ ps) (h_tallies : Part.tallies ∈ ps) (h_images : Part.images ∈ ps) (h_items : Part.items ∈ ps) (h_heldWaits : Part.heldWaits ∈ ps) (h_islands : Part.islands ∈ ps) (h_decks : Part.decks ∈ ps) (h_aabs : Part.aabs ∈ ps) (h_dtbs : Part.dtbs ∈ ps) (h_tellers : Part.tellers ∈ ps) (h_hbmStacks : Part.hbmStacks ∈ ps) (h_tickets : Part.tickets ∈ ps) (h_peers : Part.peers ∈ ps) (h_recovering : Part.recovering ∈ ps) (h_recoveryQueue : Part.recoveryQueue ∈ ps) (h_dumpDue : Part.dumpDue ∈ ps) (k : Nat) : Touches ps s0 (hbmFence k s) := by
  unfold hbmFence
  dsimp only
  have h1 := touches_State_recordBy hk (by assumption) (by assumption) (hubBlock (if k < 4 then .west else .east)) { code := 0x4007, source := hbmBlock k, sub := k, action := 3, detail0 := stackExtents s k }
  generalize s.recordBy (hubBlock (if k < 4 then .west else .east)) { code := 0x4007, source := hbmBlock k, sub := k, action := 3, detail0 := stackExtents s k } = s1 at h1 ⊢
  have h2 := touches_State_setStack (touches_State_fenceBlock h1 (by assumption) (by assumption) (hbmBlock k)) (by assumption) k { s1.stack k with fenced := true, bytes := [], zeroTags := [], upsets := [], poisoned := [], data := none }
  generalize (s1.fenceBlock (hbmBlock k)).setStack k { s1.stack k with fenced := true, bytes := [], zeroTags := [], upsets := [], poisoned := [], data := none } = s2 at h2 ⊢
  split <;> simp +contextual (maxDischargeDepth := 60) [*]

@[simp] theorem touches_State_fenceHalf {ps : List Part} {s0 s : State} (hk : Touches ps s0 s) (h_flash : Part.flash ∈ ps) (h_stewards : Part.stewards ∈ ps) (h_halfFenced : Part.halfFenced ∈ ps) (h_items : Part.items ∈ ps) (h_islands : Part.islands ∈ ps) (h_decks : Part.decks ∈ ps) (h_aabs : Part.aabs ∈ ps) (h_dtbs : Part.dtbs ∈ ps) (h_tellers : Part.tellers ∈ ps) (h_banks : Part.banks ∈ ps) (h_hbmStacks : Part.hbmStacks ∈ ps) (h_recovering : Part.recovering ∈ ps) (h_recoveryQueue : Part.recoveryQueue ∈ ps) (h : Half) : Touches ps s0 (State.fenceHalf s h) := by
  unfold State.fenceHalf
  first
  | simp +contextual (maxDischargeDepth := 60) [*]; done
  | ((try dsimp only); (repeat' split) <;> simp +contextual (maxDischargeDepth := 60) [*])

@[simp] theorem touches_State_recoverHalf {ps : List Part} {s0 s : State} (hk : Touches ps s0 s) (h_out : Part.out ∈ ps) (h_free : Part.free ∈ ps) (h_cmem : Part.cmem ∈ ps) (h_lastWrite : Part.lastWrite ∈ ps) (h_rings : Part.rings ∈ ps) (h_accounts : Part.accounts ∈ ps) (h_tensors : Part.tensors ∈ ps) (h_tallies : Part.tallies ∈ ps) (h_images : Part.images ∈ ps) (h_items : Part.items ∈ ps) (h_heldWaits : Part.heldWaits ∈ ps) (h_islands : Part.islands ∈ ps) (h_decks : Part.decks ∈ ps) (h_aabs : Part.aabs ∈ ps) (h_dtbs : Part.dtbs ∈ ps) (h_tellers : Part.tellers ∈ ps) (h_tickets : Part.tickets ∈ ps) (h_peers : Part.peers ∈ ps) (h : Half) (code : Nat) : Touches ps s0 (State.recoverHalf s h code) := by
  unfold State.recoverHalf
  first
  | simp +contextual (maxDischargeDepth := 60) [*]; done
  | ((try dsimp only); (repeat' split) <;> simp +contextual (maxDischargeDepth := 60) [*])

@[simp] theorem touches_State_bridgeFault {ps : List Part} {s0 s : State} (hk : Touches ps s0 s) (h_islands : Part.islands ∈ ps) (h_dumpDue : Part.dumpDue ∈ ps) (h : Half) : Touches ps s0 (State.bridgeFault s h) := by
  unfold State.bridgeFault
  first
  | simp +contextual (maxDischargeDepth := 60) [*]; done
  | ((try dsimp only); (repeat' split) <;> simp +contextual (maxDischargeDepth := 60) [*])

@[simp] theorem touches_loseBridge {ps : List Part} {s0 s : State} (hk : Touches ps s0 s) (h_out : Part.out ∈ ps) (h_free : Part.free ∈ ps) (h_cmem : Part.cmem ∈ ps) (h_lastWrite : Part.lastWrite ∈ ps) (h_flash : Part.flash ∈ ps) (h_stewards : Part.stewards ∈ ps) (h_halfFenced : Part.halfFenced ∈ ps) (h_bridgeUp : Part.bridgeUp ∈ ps) (h_rings : Part.rings ∈ ps) (h_accounts : Part.accounts ∈ ps) (h_tensors : Part.tensors ∈ ps) (h_tallies : Part.tallies ∈ ps) (h_images : Part.images ∈ ps) (h_items : Part.items ∈ ps) (h_heldWaits : Part.heldWaits ∈ ps) (h_islands : Part.islands ∈ ps) (h_decks : Part.decks ∈ ps) (h_aabs : Part.aabs ∈ ps) (h_dtbs : Part.dtbs ∈ ps) (h_tellers : Part.tellers ∈ ps) (h_banks : Part.banks ∈ ps) (h_hbmStacks : Part.hbmStacks ∈ ps) (h_tickets : Part.tickets ∈ ps) (h_peers : Part.peers ∈ ps) (h_recovering : Part.recovering ∈ ps) (h_recoveryQueue : Part.recoveryQueue ∈ ps) (h_dumpDue : Part.dumpDue ∈ ps)  : Touches ps s0 (loseBridge s) := by
  unfold loseBridge
  first
  | simp +contextual (maxDischargeDepth := 60) [*]; done
  | ((try dsimp only); (repeat' split) <;> simp +contextual (maxDischargeDepth := 60) [*])

@[simp] theorem touches_selfTestSteward {ps : List Part} {s0 s : State} (hk : Touches ps s0 s) (h_stewards : Part.stewards ∈ ps) (h : Half) (passes : Bool) (t : Nat) : Touches ps s0 (selfTestSteward h passes t s) := by
  unfold selfTestSteward
  first
  | simp +contextual (maxDischargeDepth := 60) [*]; done
  | ((try dsimp only); (repeat' split) <;> simp +contextual (maxDischargeDepth := 60) [*])

@[simp] theorem touches_selfTestBlock {ps : List Part} {s0 s : State} (hk : Touches ps s0 s) (h_islands : Part.islands ∈ ps) (h_hbmStacks : Part.hbmStacks ∈ ps) (b : Nat) (passes : Bool) (t : Nat) : Touches ps s0 (selfTestBlock b passes t s) := by
  unfold selfTestBlock
  first
  | simp +contextual (maxDischargeDepth := 60) [*]; done
  | ((try dsimp only); (repeat' split) <;> simp +contextual (maxDischargeDepth := 60) [*])

@[simp] theorem touches_State_runRecovery {ps : List Part} {s0 s : State} (hk : Touches ps s0 s) (h_out : Part.out ∈ ps) (h_free : Part.free ∈ ps) (h_cmem : Part.cmem ∈ ps) (h_lastWrite : Part.lastWrite ∈ ps) (h_rings : Part.rings ∈ ps) (h_accounts : Part.accounts ∈ ps) (h_tensors : Part.tensors ∈ ps) (h_tallies : Part.tallies ∈ ps) (h_images : Part.images ∈ ps) (h_items : Part.items ∈ ps) (h_heldWaits : Part.heldWaits ∈ ps) (h_islands : Part.islands ∈ ps) (h_decks : Part.decks ∈ ps) (h_aabs : Part.aabs ∈ ps) (h_dtbs : Part.dtbs ∈ ps) (h_tellers : Part.tellers ∈ ps) (h_tickets : Part.tickets ∈ ps) (h_peers : Part.peers ∈ ps) (h_recovering : Part.recovering ∈ ps) (r : Recovery) : Touches ps s0 (State.runRecovery s r) := by
  unfold State.runRecovery
  first
  | simp +contextual (maxDischargeDepth := 60) [*]; done
  | ((try dsimp only); (repeat' split) <;> simp +contextual (maxDischargeDepth := 60) [*])

@[simp] theorem touches_State_setReady {ps : List Part} {s0 s : State} (hk : Touches ps s0 s) (h_out : Part.out ∈ ps) (h_power : Part.power ∈ ps) (level : Bool) : Touches ps s0 (State.setReady s level) := by
  unfold State.setReady
  first
  | simp +contextual (maxDischargeDepth := 60) [*]; done
  | ((try dsimp only); (repeat' split) <;> simp +contextual (maxDischargeDepth := 60) [*])

@[simp] theorem touches_State_mirrorRecord {ps : List Part} {s0 s : State} (hk : Touches ps s0 s) (h_islands : Part.islands ∈ ps)  : Touches ps s0 (State.mirrorRecord s) := by
  unfold State.mirrorRecord
  first
  | simp +contextual (maxDischargeDepth := 60) [*]; done
  | ((try dsimp only); (repeat' split) <;> simp +contextual (maxDischargeDepth := 60) [*])

@[simp] theorem touches_State_bothLost {ps : List Part} {s0 s : State} (hk : Touches ps s0 s) (h_out : Part.out ∈ ps) (h_power : Part.power ∈ ps) (h_stopped : Part.stopped ∈ ps) (h_islands : Part.islands ∈ ps) (h_dumpDue : Part.dumpDue ∈ ps)  : Touches ps s0 (State.bothLost s) := by
  unfold State.bothLost
  first
  | simp +contextual (maxDischargeDepth := 60) [*]; done
  | ((try dsimp only); (repeat' split) <;> simp +contextual (maxDischargeDepth := 60) [*])

@[simp] theorem touches_State_fenceSteward {ps : List Part} {s0 s : State} (hk : Touches ps s0 s) (h_out : Part.out ∈ ps) (h_flash : Part.flash ∈ ps) (h_stewards : Part.stewards ∈ ps) (h : Half) : Touches ps s0 (State.fenceSteward s h) := by
  unfold State.fenceSteward
  first
  | simp +contextual (maxDischargeDepth := 60) [*]; done
  | ((try dsimp only); (repeat' split) <;> simp +contextual (maxDischargeDepth := 60) [*])

@[simp] theorem touches_State_loseCharter {ps : List Part} {s0 s : State} (hk : Touches ps s0 s) (h_moving : Part.moving ∈ ps) (h_recovering : Part.recovering ∈ ps) (h : Half) : Touches ps s0 (State.loseCharter s h) := by
  unfold State.loseCharter
  first
  | simp +contextual (maxDischargeDepth := 60) [*]; done
  | ((try dsimp only); (repeat' split) <;> simp +contextual (maxDischargeDepth := 60) [*])

@[simp] theorem touches_loseSteward {ps : List Part} {s0 s : State} (hk : Touches ps s0 s) (h_out : Part.out ∈ ps) (h_power : Part.power ∈ ps) (h_flash : Part.flash ∈ ps) (h_stewards : Part.stewards ∈ ps) (h_moving : Part.moving ∈ ps) (h_stopped : Part.stopped ∈ ps) (h_islands : Part.islands ∈ ps) (h_recovering : Part.recovering ∈ ps) (h_dumpDue : Part.dumpDue ∈ ps) (h : Half) : Touches ps s0 (loseSteward h s) := by
  unfold loseSteward
  first
  | simp +contextual (maxDischargeDepth := 60) [*]; done
  | ((try dsimp only); (repeat' split) <;> simp +contextual (maxDischargeDepth := 60) [*])

@[simp] theorem touches_State_corruptRecord {ps : List Part} {s0 s : State} (hk : Touches ps s0 s) (h_stewards : Part.stewards ∈ ps) (h_islands : Part.islands ∈ ps) (h_dumpDue : Part.dumpDue ∈ ps) (h : Half) (t : Nat) : Touches ps s0 (State.corruptRecord s h t) := by
  unfold State.corruptRecord
  first
  | simp +contextual (maxDischargeDepth := 60) [*]; done
  | ((try dsimp only); (repeat' split) <;> simp +contextual (maxDischargeDepth := 60) [*])

@[simp] theorem touches_State_witnessLost {ps : List Part} {s0 s : State} (hk : Touches ps s0 s) (h_stewards : Part.stewards ∈ ps) (h_islands : Part.islands ∈ ps) (h_dumpDue : Part.dumpDue ∈ ps) (h : Half) : Touches ps s0 (State.witnessLost s h) := by
  unfold State.witnessLost
  first
  | simp +contextual (maxDischargeDepth := 60) [*]; done
  | ((try dsimp only); (repeat' split) <;> simp +contextual (maxDischargeDepth := 60) [*])

@[simp] theorem touches_State_stepDown {ps : List Part} {s0 s : State} (hk : Touches ps s0 s) (h_stewards : Part.stewards ∈ ps) (h_islands : Part.islands ∈ ps) (h_dumpDue : Part.dumpDue ∈ ps) (h : Half) (winning : Nat) : Touches ps s0 (State.stepDown s h winning) := by
  unfold State.stepDown
  first
  | simp +contextual (maxDischargeDepth := 60) [*]; done
  | ((try dsimp only); (repeat' split) <;> simp +contextual (maxDischargeDepth := 60) [*])

@[simp] theorem touches_State_renew {ps : List Part} {s0 s : State} (hk : Touches ps s0 s) (h_out : Part.out ∈ ps) (h_cmem : Part.cmem ∈ ps) (h_lastWrite : Part.lastWrite ∈ ps) (h_stewards : Part.stewards ∈ ps) (h : Half) (t : Nat) : Touches ps s0 (State.renew s h t) := by
  unfold State.renew
  first
  | simp +contextual (maxDischargeDepth := 60) [*]; done
  | ((try dsimp only); (repeat' split) <;> simp +contextual (maxDischargeDepth := 60) [*])

@[simp] theorem touches_renewalEffect {ps : List Part} {s0 s : State} (hk : Touches ps s0 s) (h_out : Part.out ∈ ps) (h_cmem : Part.cmem ∈ ps) (h_lastWrite : Part.lastWrite ∈ ps) (h_stewards : Part.stewards ∈ ps) (h_islands : Part.islands ∈ ps) (h_dumpDue : Part.dumpDue ∈ ps) (h : Half) (reachable : Bool) (t : Nat) : Touches ps s0 (renewalEffect h reachable t s) := by
  unfold renewalEffect
  first
  | simp +contextual (maxDischargeDepth := 60) [*]; done
  | ((try dsimp only); (repeat' split) <;> simp +contextual (maxDischargeDepth := 60) [*])

@[simp] theorem touches_State_broadcastEpoch {ps : List Part} {s0 s : State} (hk : Touches ps s0 s) (h_out : Part.out ∈ ps) (h_islands : Part.islands ∈ ps) (e : Nat) : Touches ps s0 (State.broadcastEpoch s e) := by
  unfold State.broadcastEpoch
  first
  | simp +contextual (maxDischargeDepth := 60) [*]; done
  | ((try dsimp only); (repeat' split) <;> simp +contextual (maxDischargeDepth := 60) [*])

@[simp] theorem touches_State_takeCharter {ps : List Part} {s0 s : State} (hk : Touches ps s0 s) (h_out : Part.out ∈ ps) (h_cmem : Part.cmem ∈ ps) (h_lastWrite : Part.lastWrite ∈ ps) (h_stewards : Part.stewards ∈ ps) (h_islands : Part.islands ∈ ps) (h : Half) (w t : Nat) : Touches ps s0 (State.takeCharter s h w t) := by
  unfold State.takeCharter
  first
  | simp +contextual (maxDischargeDepth := 60) [*]; done
  | ((try dsimp only); (repeat' split) <;> simp +contextual (maxDischargeDepth := 60) [*])

@[simp] theorem touches_handOver {ps : List Part} {s0 s : State} (hk : Touches ps s0 s) (h_hub : Part.hub ∈ ps) (h_stewards : Part.stewards ∈ ps) (h : Half) : Touches ps s0 (handOver h s) := by
  unfold handOver
  first
  | simp +contextual (maxDischargeDepth := 60) [*]; done
  | ((try dsimp only); (repeat' split) <;> simp +contextual (maxDischargeDepth := 60) [*])

@[simp] theorem touches_State_resumeService {ps : List Part} {s0 s : State} (hk : Touches ps s0 s) (h_out : Part.out ∈ ps) (h_power : Part.power ∈ ps) (h_moving : Part.moving ∈ ps) (h_stopped : Part.stopped ∈ ps) (h_recovering : Part.recovering ∈ ps)  : Touches ps s0 (State.resumeService s) := by
  unfold State.resumeService
  first
  | simp +contextual (maxDischargeDepth := 60) [*]; done
  | ((try dsimp only); (repeat' split) <;> simp +contextual (maxDischargeDepth := 60) [*])

@[simp] theorem touches_State_afterTaking {ps : List Part} {s0 s : State} (hk : Touches ps s0 s) (h_out : Part.out ∈ ps) (h_power : Part.power ∈ ps) (h_hub : Part.hub ∈ ps) (h_stewards : Part.stewards ∈ ps) (h_moving : Part.moving ∈ ps) (h_stopped : Part.stopped ∈ ps) (h_recovering : Part.recovering ∈ ps) (h : Half) : Touches ps s0 (State.afterTaking s h) := by
  unfold State.afterTaking
  first
  | simp +contextual (maxDischargeDepth := 60) [*]; done
  | ((try dsimp only); (repeat' split) <;> simp +contextual (maxDischargeDepth := 60) [*])

@[simp] theorem touches_witnessEffect {ps : List Part} {s0 s : State} (hk : Touches ps s0 s) (h_out : Part.out ∈ ps) (h_cmem : Part.cmem ∈ ps) (h_lastWrite : Part.lastWrite ∈ ps) (h_power : Part.power ∈ ps) (h_hub : Part.hub ∈ ps) (h_stewards : Part.stewards ∈ ps) (h_moving : Part.moving ∈ ps) (h_stopped : Part.stopped ∈ ps) (h_islands : Part.islands ∈ ps) (h_recovering : Part.recovering ∈ ps) (h_dumpDue : Part.dumpDue ∈ ps) (h : Half) (t : Nat) : Touches ps s0 (witnessEffect h t s) := by
  unfold witnessEffect
  first
  | simp +contextual (maxDischargeDepth := 60) [*]; done
  | ((try dsimp only); (repeat' split) <;> simp +contextual (maxDischargeDepth := 60) [*])

@[simp] theorem touches_restartOne {ps : List Part} {s0 s : State} (hk : Touches ps s0 s) (h_stewards : Part.stewards ∈ ps) (v : Nat) (h : Half) : Touches ps s0 (restartOne v s h) := by
  unfold restartOne
  first
  | simp +contextual (maxDischargeDepth := 60) [*]; done
  | ((try dsimp only); (repeat' split) <;> simp +contextual (maxDischargeDepth := 60) [*])

@[simp] theorem touches_State_runSlot {ps : List Part} {s0 s : State} (hk : Touches ps s0 s) (h_stewards : Part.stewards ∈ ps) (h : Half) (b : Bool) : Touches ps s0 (State.runSlot s h b) := by
  unfold State.runSlot
  first
  | simp +contextual (maxDischargeDepth := 60) [*]; done
  | ((try dsimp only); (repeat' split) <;> simp +contextual (maxDischargeDepth := 60) [*])

@[simp] theorem touches_fwStart {ps : List Part} {s0 s : State} (hk : Touches ps s0 s) (h_hub : Part.hub ∈ ps) (h_stewards : Part.stewards ∈ ps) (v : Verdict) : Touches ps s0 (fwStart v s) := by
  unfold fwStart
  first
  | simp +contextual (maxDischargeDepth := 60) [*]; done
  | ((try dsimp only); (repeat' split) <;> simp +contextual (maxDischargeDepth := 60) [*])

@[simp] theorem touches_State_stewardBack {ps : List Part} {s0 s : State} (hk : Touches ps s0 s) (h_stewards : Part.stewards ∈ ps) (h : Half) (t : Nat) : Touches ps s0 (State.stewardBack s h t) := by
  unfold State.stewardBack
  first
  | simp +contextual (maxDischargeDepth := 60) [*]; done
  | ((try dsimp only); (repeat' split) <;> simp +contextual (maxDischargeDepth := 60) [*])

@[simp] theorem touches_updateFails {ps : List Part} {s0 s : State} (hk : Touches ps s0 s) (h_hub : Part.hub ∈ ps) (h_stewards : Part.stewards ∈ ps) (h : Half) (t : Nat) : Touches ps s0 (updateFails h t s) := by
  unfold updateFails
  first
  | simp +contextual (maxDischargeDepth := 60) [*]; done
  | ((try dsimp only); (repeat' split) <;> simp +contextual (maxDischargeDepth := 60) [*])

@[simp] theorem touches_restartDone {ps : List Part} {s0 s : State} (hk : Touches ps s0 s) (h_stewards : Part.stewards ∈ ps) (h : Half) (passes : Bool) (t : Nat) : Touches ps s0 (restartDone h passes t s) := by
  unfold restartDone
  first
  | simp +contextual (maxDischargeDepth := 60) [*]; done
  | ((try dsimp only); (repeat' split) <;> simp +contextual (maxDischargeDepth := 60) [*])

@[simp] theorem touches_updateDone {ps : List Part} {s0 s : State} (hk : Touches ps s0 s) (h_hub : Part.hub ∈ ps) (h_stewards : Part.stewards ∈ ps) (h_moving : Part.moving ∈ ps) (h : Half) (passes : Bool) (v : Verdict) (t : Nat) : Touches ps s0 (updateDone h passes v t s) := by
  unfold updateDone
  first
  | simp +contextual (maxDischargeDepth := 60) [*]; done
  | ((try dsimp only); (repeat' split) <;> simp +contextual (maxDischargeDepth := 60) [*])

@[simp] theorem touches_State_setRate {ps : List Part} {s0 s : State} (hk : Touches ps s0 s) (h_rates : Part.rates ∈ ps) (h : Half) (b : Nat) (e : RateEntry) : Touches ps s0 (State.setRate s h b e) := by
  unfold State.setRate
  first
  | simp +contextual (maxDischargeDepth := 60) [*]; done
  | ((try dsimp only); (repeat' split) <;> simp +contextual (maxDischargeDepth := 60) [*])

@[simp] theorem touches_State_enterTime {ps : List Part} {s0 s : State} (hk : Touches ps s0 s) (h_rates : Part.rates ∈ ps) (ep h : Half) (ns : Nat) : Touches ps s0 (State.enterTime s ep h ns) := by
  unfold State.enterTime
  first
  | simp +contextual (maxDischargeDepth := 60) [*]; done
  | ((try dsimp only); (repeat' split) <;> simp +contextual (maxDischargeDepth := 60) [*])

@[simp] theorem touches_exportTelemetry {ps : List Part} {s0 s : State} (hk : Touches ps s0 s) (h_free : Part.free ∈ ps) (h_cmem : Part.cmem ∈ ps) (h_lastWrite : Part.lastWrite ∈ ps) (h_islands : Part.islands ∈ ps) (h_telemetry : Part.telemetry ∈ ps) (t : Nat) : Touches ps s0 (exportTelemetry t s) := by
  unfold exportTelemetry
  first
  | simp +contextual (maxDischargeDepth := 60) [*]; done
  | ((try dsimp only); (repeat' split) <;> simp +contextual (maxDischargeDepth := 60) [*])

@[simp] theorem touches_State_takeDump {ps : List Part} {s0 s : State} (hk : Touches ps s0 s) (h_dumps : Part.dumps ∈ ps) (h_dumpCount : Part.dumpCount ∈ ps) (reason trigger : Nat) : Touches ps s0 (State.takeDump s reason trigger) := by
  unfold State.takeDump
  first
  | simp +contextual (maxDischargeDepth := 60) [*]; done
  | ((try dsimp only); (repeat' split) <;> simp +contextual (maxDischargeDepth := 60) [*])

@[simp] theorem touches_State_writeDumpControl {ps : List Part} {s0 s : State} (hk : Touches ps s0 s) (h_hub : Part.hub ∈ ps) (v : Nat) : Touches ps s0 (State.writeDumpControl s v) := by
  unfold State.writeDumpControl
  first
  | simp +contextual (maxDischargeDepth := 60) [*]; done
  | ((try dsimp only); (repeat' split) <;> simp +contextual (maxDischargeDepth := 60) [*])

@[simp] theorem touches_dumpControl {ps : List Part} {s0 s : State} (hk : Touches ps s0 s) (h_out : Part.out ∈ ps) (h_hub : Part.hub ∈ ps) (ep : Half) (value : Word64) : Touches ps s0 (dumpControl ep value s) := by
  unfold dumpControl
  first
  | simp +contextual (maxDischargeDepth := 60) [*]; done
  | ((try dsimp only); (repeat' split) <;> simp +contextual (maxDischargeDepth := 60) [*])

@[simp] theorem touches_State_storeHub {ps : List Part} {s0 s : State} (hk : Touches ps s0 s) (h_hub : Part.hub ∈ ps) (h_telemetry : Part.telemetry ∈ ps) (h : HubRegs) : Touches ps s0 (State.storeHub s h) := by
  unfold State.storeHub
  first
  | simp +contextual (maxDischargeDepth := 60) [*]; done
  | ((try dsimp only); (repeat' split) <;> simp +contextual (maxDischargeDepth := 60) [*])

@[simp] theorem touches_State_writeBuffer {ps : List Part} {s0 s : State} (hk : Touches ps s0 s) (h_mail : Part.mail ∈ ps) (offset v : Nat) : Touches ps s0 (State.writeBuffer s offset v) := by
  unfold State.writeBuffer
  first
  | simp +contextual (maxDischargeDepth := 60) [*]; done
  | ((try dsimp only); (repeat' split) <;> simp +contextual (maxDischargeDepth := 60) [*])

@[simp] theorem touches_State_writeHubRegister {ps : List Part} {s0 s : State} (hk : Touches ps s0 s) (h_mail : Part.mail ∈ ps) (offset v : Nat) : Touches ps s0 (State.writeHubRegister s offset v) := by
  unfold State.writeHubRegister
  first
  | simp +contextual (maxDischargeDepth := 60) [*]; done
  | ((try dsimp only); (repeat' split) <;> simp +contextual (maxDischargeDepth := 60) [*])

@[simp] theorem touches_registerWrite {ps : List Part} {s0 s : State} (hk : Touches ps s0 s) (h_out : Part.out ∈ ps) (h_hub : Part.hub ∈ ps) (h_islands : Part.islands ∈ ps) (h_mail : Part.mail ∈ ps) (h_telemetry : Part.telemetry ∈ ps) (ep : Half) (offset v : Nat) : Touches ps s0 (registerWrite ep offset v s) := by
  unfold registerWrite
  first
  | simp +contextual (maxDischargeDepth := 60) [*]; done
  | ((try dsimp only); (repeat' split) <;> simp +contextual (maxDischargeDepth := 60) [*])

@[simp] theorem touches_State_writeSlot {ps : List Part} {s0 s : State} (hk : Touches ps s0 s) (h_flash : Part.flash ∈ ps) (offset : Nat) (bytes : List Byte) : Touches ps s0 (State.writeSlot s offset bytes) := by
  unfold State.writeSlot
  first
  | simp +contextual (maxDischargeDepth := 60) [*]; done
  | ((try dsimp only); (repeat' split) <;> simp +contextual (maxDischargeDepth := 60) [*])

@[simp] theorem touches_State_changeLink {ps : List Part} {s0 s : State} (hk : Touches ps s0 s) (h_islands : Part.islands ∈ ps) (h_links : Part.links ∈ ps) (ep : Half) (l : Link) : Touches ps s0 (State.changeLink s ep l) := by
  unfold State.changeLink
  first
  | simp +contextual (maxDischargeDepth := 60) [*]; done
  | ((try dsimp only); (repeat' split) <;> simp +contextual (maxDischargeDepth := 60) [*])

@[simp] theorem touches_writePort {ps : List Part} {s0 s : State} (hk : Touches ps s0 s) (h_out : Part.out ∈ ps) (h_islands : Part.islands ∈ ps) (h_ports : Part.ports ∈ ps) (ep : Half) (port v : Nat) : Touches ps s0 (writePort ep port v s) := by
  unfold writePort
  first
  | simp +contextual (maxDischargeDepth := 60) [*]; done
  | ((try dsimp only); (repeat' split) <;> simp +contextual (maxDischargeDepth := 60) [*])

@[simp] theorem touches_State_i3cSend {ps : List Part} {s0 s : State} (hk : Touches ps s0 s) (h_out : Part.out ∈ ps) (bytes : List Byte) : Touches ps s0 (State.i3cSend s bytes) := by
  unfold State.i3cSend
  first
  | simp +contextual (maxDischargeDepth := 60) [*]; done
  | ((try dsimp only); (repeat' split) <;> simp +contextual (maxDischargeDepth := 60) [*])

@[simp] theorem touches_State_dark {ps : List Part} {s0 s : State} (hk : Touches ps s0 s) (h_lastWrite : Part.lastWrite ∈ ps) (h_power : Part.power ∈ ps) (h_hub : Part.hub ∈ ps) (h_stewards : Part.stewards ∈ ps) (h_halfFenced : Part.halfFenced ∈ ps) (h_bridgeUp : Part.bridgeUp ∈ ps) (h_moving : Part.moving ∈ ps) (h_stopped : Part.stopped ∈ ps) (h_rings : Part.rings ∈ ps) (h_accounts : Part.accounts ∈ ps) (h_tensors : Part.tensors ∈ ps) (h_tallies : Part.tallies ∈ ps) (h_images : Part.images ∈ ps) (h_items : Part.items ∈ ps) (h_nextItem : Part.nextItem ∈ ps) (h_heldWaits : Part.heldWaits ∈ ps) (h_islands : Part.islands ∈ ps) (h_decks : Part.decks ∈ ps) (h_aabs : Part.aabs ∈ ps) (h_dtbs : Part.dtbs ∈ ps) (h_tellers : Part.tellers ∈ ps) (h_banks : Part.banks ∈ ps) (h_hbmStacks : Part.hbmStacks ∈ ps) (h_tickets : Part.tickets ∈ ps) (h_offers : Part.offers ∈ ps) (h_peers : Part.peers ∈ ps) (h_lostPeers : Part.lostPeers ∈ ps) (h_ports : Part.ports ∈ ps) (h_pools : Part.pools ∈ ps) (h_grants : Part.grants ∈ ps) (h_recovering : Part.recovering ∈ ps) (h_recoveryQueue : Part.recoveryQueue ∈ ps) (h_links : Part.links ∈ ps) (h_mail : Part.mail ∈ ps) (h_rates : Part.rates ∈ ps) (h_dumps : Part.dumps ∈ ps) (h_dumpCount : Part.dumpCount ∈ ps) (h_dumpDue : Part.dumpDue ∈ ps) (h_telemetry : Part.telemetry ∈ ps)  : Touches ps s0 (State.dark s) := by
  unfold State.dark
  first
  | simp +contextual (maxDischargeDepth := 60) [*]; done
  | ((try dsimp only); (repeat' split) <;> simp +contextual (maxDischargeDepth := 60) [*])

@[simp] theorem touches_State_railsOff {ps : List Part} {s0 s : State} (hk : Touches ps s0 s) (h_out : Part.out ∈ ps) (h_lastWrite : Part.lastWrite ∈ ps) (h_power : Part.power ∈ ps) (h_hub : Part.hub ∈ ps) (h_stewards : Part.stewards ∈ ps) (h_halfFenced : Part.halfFenced ∈ ps) (h_bridgeUp : Part.bridgeUp ∈ ps) (h_moving : Part.moving ∈ ps) (h_stopped : Part.stopped ∈ ps) (h_rings : Part.rings ∈ ps) (h_accounts : Part.accounts ∈ ps) (h_tensors : Part.tensors ∈ ps) (h_tallies : Part.tallies ∈ ps) (h_images : Part.images ∈ ps) (h_items : Part.items ∈ ps) (h_nextItem : Part.nextItem ∈ ps) (h_heldWaits : Part.heldWaits ∈ ps) (h_islands : Part.islands ∈ ps) (h_decks : Part.decks ∈ ps) (h_aabs : Part.aabs ∈ ps) (h_dtbs : Part.dtbs ∈ ps) (h_tellers : Part.tellers ∈ ps) (h_banks : Part.banks ∈ ps) (h_hbmStacks : Part.hbmStacks ∈ ps) (h_tickets : Part.tickets ∈ ps) (h_offers : Part.offers ∈ ps) (h_peers : Part.peers ∈ ps) (h_lostPeers : Part.lostPeers ∈ ps) (h_ports : Part.ports ∈ ps) (h_pools : Part.pools ∈ ps) (h_grants : Part.grants ∈ ps) (h_recovering : Part.recovering ∈ ps) (h_recoveryQueue : Part.recoveryQueue ∈ ps) (h_links : Part.links ∈ ps) (h_mail : Part.mail ∈ ps) (h_rates : Part.rates ∈ ps) (h_dumps : Part.dumps ∈ ps) (h_dumpCount : Part.dumpCount ∈ ps) (h_dumpDue : Part.dumpDue ∈ ps) (h_telemetry : Part.telemetry ∈ ps) (inOrder : Bool) : Touches ps s0 (State.railsOff s inOrder) := by
  unfold State.railsOff
  first
  | simp +contextual (maxDischargeDepth := 60) [*]; done
  | ((try dsimp only); (repeat' split) <;> simp +contextual (maxDischargeDepth := 60) [*])

@[simp] theorem touches_State_powerUp {ps : List Part} {s0 s : State} (hk : Touches ps s0 s) (h_lastWrite : Part.lastWrite ∈ ps) (h_power : Part.power ∈ ps) (h_hub : Part.hub ∈ ps) (h_stewards : Part.stewards ∈ ps) (h_halfFenced : Part.halfFenced ∈ ps) (h_bridgeUp : Part.bridgeUp ∈ ps) (h_moving : Part.moving ∈ ps) (h_stopped : Part.stopped ∈ ps) (h_rings : Part.rings ∈ ps) (h_accounts : Part.accounts ∈ ps) (h_tensors : Part.tensors ∈ ps) (h_tallies : Part.tallies ∈ ps) (h_images : Part.images ∈ ps) (h_items : Part.items ∈ ps) (h_nextItem : Part.nextItem ∈ ps) (h_heldWaits : Part.heldWaits ∈ ps) (h_islands : Part.islands ∈ ps) (h_decks : Part.decks ∈ ps) (h_aabs : Part.aabs ∈ ps) (h_dtbs : Part.dtbs ∈ ps) (h_tellers : Part.tellers ∈ ps) (h_banks : Part.banks ∈ ps) (h_hbmStacks : Part.hbmStacks ∈ ps) (h_tickets : Part.tickets ∈ ps) (h_offers : Part.offers ∈ ps) (h_peers : Part.peers ∈ ps) (h_lostPeers : Part.lostPeers ∈ ps) (h_ports : Part.ports ∈ ps) (h_pools : Part.pools ∈ ps) (h_grants : Part.grants ∈ ps) (h_recovering : Part.recovering ∈ ps) (h_recoveryQueue : Part.recoveryQueue ∈ ps) (h_links : Part.links ∈ ps) (h_mail : Part.mail ∈ ps) (h_rates : Part.rates ∈ ps) (h_dumps : Part.dumps ∈ ps) (h_dumpCount : Part.dumpCount ∈ ps) (h_dumpDue : Part.dumpDue ∈ ps) (h_telemetry : Part.telemetry ∈ ps) (t : Nat) : Touches ps s0 (State.powerUp s t) := by
  unfold State.powerUp
  first
  | simp +contextual (maxDischargeDepth := 60) [*]; done
  | ((try dsimp only); (repeat' split) <;> simp +contextual (maxDischargeDepth := 60) [*])

@[simp] theorem touches_stopAt {ps : List Part} {s0 s : State} (hk : Touches ps s0 s) (h_power : Part.power ∈ ps) (h_links : Part.links ∈ ps) (stage : Nat) : Touches ps s0 (stopAt stage s) := by
  unfold stopAt
  first
  | simp +contextual (maxDischargeDepth := 60) [*]; done
  | ((try dsimp only); (repeat' split) <;> simp +contextual (maxDischargeDepth := 60) [*])

@[simp] theorem touches_leaveHalf {ps : List Part} {s0 s : State} (hk : Touches ps s0 s) (h_power : Part.power ∈ ps) (h_flash : Part.flash ∈ ps) (h_stewards : Part.stewards ∈ ps) (h_halfFenced : Part.halfFenced ∈ ps) (h_bridgeUp : Part.bridgeUp ∈ ps) (h_items : Part.items ∈ ps) (h_islands : Part.islands ∈ ps) (h_decks : Part.decks ∈ ps) (h_aabs : Part.aabs ∈ ps) (h_dtbs : Part.dtbs ∈ ps) (h_tellers : Part.tellers ∈ ps) (h_banks : Part.banks ∈ ps) (h_hbmStacks : Part.hbmStacks ∈ ps) (h_recovering : Part.recovering ∈ ps) (h_recoveryQueue : Part.recoveryQueue ∈ ps) (h_dumpDue : Part.dumpDue ∈ ps) (h : Half) : Touches ps s0 (leaveHalf h s) := by
  unfold leaveHalf
  first
  | simp +contextual (maxDischargeDepth := 60) [*]; done
  | ((try dsimp only); (repeat' split) <;> simp +contextual (maxDischargeDepth := 60) [*])

@[simp] theorem touches_bootVerify {ps : List Part} {s0 s : State} (hk : Touches ps s0 s) (h_power : Part.power ∈ ps) (h_flash : Part.flash ∈ ps) (h_stewards : Part.stewards ∈ ps) (h_halfFenced : Part.halfFenced ∈ ps) (h_bridgeUp : Part.bridgeUp ∈ ps) (h_items : Part.items ∈ ps) (h_islands : Part.islands ∈ ps) (h_decks : Part.decks ∈ ps) (h_aabs : Part.aabs ∈ ps) (h_dtbs : Part.dtbs ∈ ps) (h_tellers : Part.tellers ∈ ps) (h_banks : Part.banks ∈ ps) (h_hbmStacks : Part.hbmStacks ∈ ps) (h_recovering : Part.recovering ∈ ps) (h_recoveryQueue : Part.recoveryQueue ∈ ps) (h_links : Part.links ∈ ps) (h_dumpDue : Part.dumpDue ∈ ps) (loaders slots record : Both Verdict) (keyMatches : Both Bool) (t : Nat) : Touches ps s0 (bootVerify loaders slots record keyMatches t s) := by
  unfold bootVerify
  first
  | simp +contextual (maxDischargeDepth := 60) [*]; done
  | ((try dsimp only); (repeat' split) <;> simp +contextual (maxDischargeDepth := 60) [*])

@[simp] theorem touches_State_startFenced {ps : List Part} {s0 s : State} (hk : Touches ps s0 s) (h_out : Part.out ∈ ps) (h_flash : Part.flash ∈ ps) (h_stewards : Part.stewards ∈ ps) (h_islands : Part.islands ∈ ps) (h_hbmStacks : Part.hbmStacks ∈ ps) (b : Nat) : Touches ps s0 (State.startFenced s b) := by
  unfold State.startFenced
  first
  | simp +contextual (maxDischargeDepth := 60) [*]; done
  | ((try dsimp only); (repeat' split) <;> simp +contextual (maxDischargeDepth := 60) [*])

@[simp] theorem touches_failPart {ps : List Part} {s0 s : State} (hk : Touches ps s0 s) (h_out : Part.out ∈ ps) (h_flash : Part.flash ∈ ps) (h_stewards : Part.stewards ∈ ps) (h_islands : Part.islands ∈ ps) (h_hbmStacks : Part.hbmStacks ∈ ps) (h_dumpDue : Part.dumpDue ∈ ps) (f : SelfTestFault) : Touches ps s0 (failPart f s) := by
  unfold failPart
  first
  | simp +contextual (maxDischargeDepth := 60) [*]; done
  | ((try dsimp only); (repeat' split) <;> simp +contextual (maxDischargeDepth := 60) [*])

@[simp] theorem touches_honour {ps : List Part} {s0 s : State} (hk : Touches ps s0 s) (h_stewards : Part.stewards ∈ ps) (h_islands : Part.islands ∈ ps) (h_hbmStacks : Part.hbmStacks ∈ ps) (b : Nat) : Touches ps s0 (honour b s) := by
  unfold honour
  first
  | simp +contextual (maxDischargeDepth := 60) [*]; done
  | ((try dsimp only); (repeat' split) <;> simp +contextual (maxDischargeDepth := 60) [*])

@[simp] theorem touches_trainStack {ps : List Part} {s0 s : State} (hk : Touches ps s0 s) (h_hbmStacks : Part.hbmStacks ∈ ps) (fitted : List Nat) (slow : List (Fin 8)) (k : Nat) : Touches ps s0 (trainStack fitted slow s k) := by
  unfold trainStack
  first
  | simp +contextual (maxDischargeDepth := 60) [*]; done
  | ((try dsimp only); (repeat' split) <;> simp +contextual (maxDischargeDepth := 60) [*])

@[simp] theorem touches_selfTest {ps : List Part} {s0 s : State} (hk : Touches ps s0 s) (h_out : Part.out ∈ ps) (h_power : Part.power ∈ ps) (h_flash : Part.flash ∈ ps) (h_stewards : Part.stewards ∈ ps) (h_islands : Part.islands ∈ ps) (h_hbmStacks : Part.hbmStacks ∈ ps) (h_links : Part.links ∈ ps) (h_dumpDue : Part.dumpDue ∈ ps) (failures : List SelfTestFault) (fitted : List Nat) (slow : List (Fin 8)) : Touches ps s0 (selfTest failures fitted slow s) := by
  unfold selfTest
  first
  | simp +contextual (maxDischargeDepth := 60) [*]; done
  | ((try dsimp only); (repeat' split) <;> simp +contextual (maxDischargeDepth := 60) [*])

@[simp] theorem touches_State_wakeDeck {ps : List Part} {s0 s : State} (hk : Touches ps s0 s) (h_free : Part.free ∈ ps) (h_islands : Part.islands ∈ ps) (h_decks : Part.decks ∈ ps) (h_dumpDue : Part.dumpDue ∈ ps) (images : Table (Table Wear)) (tj : Int) (t : Nat) (dn : Nat) : Touches ps s0 (State.wakeDeck images tj t s dn) := by
  unfold State.wakeDeck
  first
  | simp +contextual (maxDischargeDepth := 60) [*]; done
  | ((try dsimp only); (repeat' split) <;> simp +contextual (maxDischargeDepth := 60) [*])

@[simp] theorem touches_startupAssay {ps : List Part} {s0 s : State} (hk : Touches ps s0 s) (h_free : Part.free ∈ ps) (h_power : Part.power ∈ ps) (h_islands : Part.islands ∈ ps) (h_decks : Part.decks ∈ ps) (h_dumpDue : Part.dumpDue ∈ ps) (tj : Int) (t : Nat) : Touches ps s0 (startupAssay tj t s) := by
  unfold startupAssay
  first
  | simp +contextual (maxDischargeDepth := 60) [*]; done
  | ((try dsimp only); (repeat' split) <;> simp +contextual (maxDischargeDepth := 60) [*])

@[simp] theorem touches_State_cancelAll {ps : List Part} {s0 s : State} (hk : Touches ps s0 s) (h_out : Part.out ∈ ps) (h_free : Part.free ∈ ps) (h_cmem : Part.cmem ∈ ps) (h_lastWrite : Part.lastWrite ∈ ps) (h_rings : Part.rings ∈ ps) (h_accounts : Part.accounts ∈ ps) (h_tensors : Part.tensors ∈ ps) (h_tallies : Part.tallies ∈ ps) (h_items : Part.items ∈ ps) (h_heldWaits : Part.heldWaits ∈ ps) (h_islands : Part.islands ∈ ps) (h_decks : Part.decks ∈ ps) (h_aabs : Part.aabs ∈ ps) (h_dtbs : Part.dtbs ∈ ps) (h_tellers : Part.tellers ∈ ps) (h_tickets : Part.tickets ∈ ps) (h_peers : Part.peers ∈ ps) (h_dumpDue : Part.dumpDue ∈ ps)  : Touches ps s0 (State.cancelAll s) := by
  unfold State.cancelAll
  refine touches_foldl _ _ ?_ hk
  intro t a ht
  (repeat' split) <;> simp +contextual (maxDischargeDepth := 60) [*]

theorem touches_State_flushReceipts {ps : List Part} {s0 : State} (h_out : Part.out ∈ ps) (h_cmem : Part.cmem ∈ ps) (h_lastWrite : Part.lastWrite ∈ ps) (h_hub : Part.hub ∈ ps) (h_rings : Part.rings ∈ ps) (h_accounts : Part.accounts ∈ ps) (h_tensors : Part.tensors ∈ ps) (h_tallies : Part.tallies ∈ ps) (h_images : Part.images ∈ ps) (h_items : Part.items ∈ ps) (h_islands : Part.islands ∈ ps) (h_decks : Part.decks ∈ ps) (h_tellers : Part.tellers ∈ ps) (h_hbmStacks : Part.hbmStacks ∈ ps) (h_offers : Part.offers ∈ ps) (h_pools : Part.pools ∈ ps) (n k : Nat) {s : State} (h : Touches ps s0 s) : Touches ps s0 (State.flushReceipts n k s) := by
  induction k generalizing s with
  | zero => exact h
  | succ k ih => exact ih (by simp +contextual (maxDischargeDepth := 60) [*])

@[simp] theorem touches_State_endEveryItem {ps : List Part} {s0 s : State} (hk : Touches ps s0 s) (h_out : Part.out ∈ ps) (h_free : Part.free ∈ ps) (h_cmem : Part.cmem ∈ ps) (h_lastWrite : Part.lastWrite ∈ ps) (h_hub : Part.hub ∈ ps) (h_rings : Part.rings ∈ ps) (h_accounts : Part.accounts ∈ ps) (h_tensors : Part.tensors ∈ ps) (h_tallies : Part.tallies ∈ ps) (h_images : Part.images ∈ ps) (h_items : Part.items ∈ ps) (h_heldWaits : Part.heldWaits ∈ ps) (h_islands : Part.islands ∈ ps) (h_decks : Part.decks ∈ ps) (h_aabs : Part.aabs ∈ ps) (h_dtbs : Part.dtbs ∈ ps) (h_tellers : Part.tellers ∈ ps) (h_hbmStacks : Part.hbmStacks ∈ ps) (h_tickets : Part.tickets ∈ ps) (h_offers : Part.offers ∈ ps) (h_peers : Part.peers ∈ ps) (h_pools : Part.pools ∈ ps) (h_dumpDue : Part.dumpDue ∈ ps)  : Touches ps s0 (State.endEveryItem s) := by
  unfold State.endEveryItem
  dsimp only
  refine touches_foldl _ _ (fun t a ht => by simp +contextual (maxDischargeDepth := 60) [*]) (touches_foldl _ _ ?_ (by simp +contextual (maxDischargeDepth := 60) [*]))
  intro t a ht
  exact touches_State_flushReceipts (by assumption) (by assumption) (by assumption) (by assumption) (by assumption) (by assumption) (by assumption) (by assumption) (by assumption) (by assumption) (by assumption) (by assumption) (by assumption) (by assumption) (by assumption) (by assumption) _ _ ht

@[simp] theorem touches_State_writeBindings {ps : List Part} {s0 s : State} (hk : Touches ps s0 s) (h_decks : Part.decks ∈ ps)  : Touches ps s0 (State.writeBindings s) := by
  unfold State.writeBindings
  first
  | simp +contextual (maxDischargeDepth := 60) [*]; done
  | ((try dsimp only); (repeat' split) <;> simp +contextual (maxDischargeDepth := 60) [*])

@[simp] theorem touches_shutdown {ps : List Part} {s0 s : State} (hk : Touches ps s0 s) (h_out : Part.out ∈ ps) (h_free : Part.free ∈ ps) (h_cmem : Part.cmem ∈ ps) (h_lastWrite : Part.lastWrite ∈ ps) (h_power : Part.power ∈ ps) (h_flash : Part.flash ∈ ps) (h_hub : Part.hub ∈ ps) (h_stewards : Part.stewards ∈ ps) (h_halfFenced : Part.halfFenced ∈ ps) (h_bridgeUp : Part.bridgeUp ∈ ps) (h_moving : Part.moving ∈ ps) (h_stopped : Part.stopped ∈ ps) (h_rings : Part.rings ∈ ps) (h_accounts : Part.accounts ∈ ps) (h_tensors : Part.tensors ∈ ps) (h_tallies : Part.tallies ∈ ps) (h_images : Part.images ∈ ps) (h_items : Part.items ∈ ps) (h_nextItem : Part.nextItem ∈ ps) (h_heldWaits : Part.heldWaits ∈ ps) (h_islands : Part.islands ∈ ps) (h_decks : Part.decks ∈ ps) (h_aabs : Part.aabs ∈ ps) (h_dtbs : Part.dtbs ∈ ps) (h_tellers : Part.tellers ∈ ps) (h_banks : Part.banks ∈ ps) (h_hbmStacks : Part.hbmStacks ∈ ps) (h_tickets : Part.tickets ∈ ps) (h_offers : Part.offers ∈ ps) (h_peers : Part.peers ∈ ps) (h_lostPeers : Part.lostPeers ∈ ps) (h_ports : Part.ports ∈ ps) (h_pools : Part.pools ∈ ps) (h_grants : Part.grants ∈ ps) (h_recovering : Part.recovering ∈ ps) (h_recoveryQueue : Part.recoveryQueue ∈ ps) (h_links : Part.links ∈ ps) (h_mail : Part.mail ∈ ps) (h_rates : Part.rates ∈ ps) (h_dumps : Part.dumps ∈ ps) (h_dumpCount : Part.dumpCount ∈ ps) (h_dumpDue : Part.dumpDue ∈ ps) (h_telemetry : Part.telemetry ∈ ps) (t : Nat) : Touches ps s0 (shutdown t s) := by
  unfold shutdown
  first
  | simp +contextual (maxDischargeDepth := 60) [*]; done
  | ((try dsimp only); (repeat' split) <;> simp +contextual (maxDischargeDepth := 60) [*])

@[simp] theorem touches_State_interruptBoard {ps : List Part} {s0 s : State} (hk : Touches ps s0 s) (h_out : Part.out ∈ ps) (byte : Nat) : Touches ps s0 (State.interruptBoard s byte) := by
  unfold State.interruptBoard
  first
  | simp +contextual (maxDischargeDepth := 60) [*]; done
  | ((try dsimp only); (repeat' split) <;> simp +contextual (maxDischargeDepth := 60) [*])

@[simp] theorem touches_State_inputGone {ps : List Part} {s0 s : State} (hk : Touches ps s0 s) (h_power : Part.power ∈ ps) (h_i3c : Part.i3c ∈ ps)  : Touches ps s0 (State.inputGone s) := by
  unfold State.inputGone
  first
  | simp +contextual (maxDischargeDepth := 60) [*]; done
  | ((try dsimp only); (repeat' split) <;> simp +contextual (maxDischargeDepth := 60) [*])

@[simp] theorem touches_State_setSteps {ps : List Part} {s0 s : State} (hk : Touches ps s0 s) (h_islands : Part.islands ∈ ps) (b : Nat) (f : Island → Island) : Touches ps s0 (State.setSteps s b f) := by
  unfold State.setSteps
  first
  | simp +contextual (maxDischargeDepth := 60) [*]; done
  | ((try dsimp only); (repeat' split) <;> simp +contextual (maxDischargeDepth := 60) [*])

end Sys2Proof.Machine
end

