-- ==== Sys2Proof/Laws/Effects.lean ====
section
/-! SUPPORT. What the plain updates of the state do, in the words that claims are stated in: bytes stored in companion memory, one
entry of a table changed, one telemetry slot counted. -/

namespace Sys2Proof.Machine

open Sys2Proof

theorem stored_writeBytes (m : Memory) (a : Nat) (l : List Byte) : Stored m (writeBytes m a l) a l :=
  ⟨readBytes_writeBytes m a l, fun _ h => readByte_writeBytes_outside m a l h⟩

theorem stored_poke (s : State) (a : Nat) (l : List Byte) : Stored s.cmem (s.poke a l).cmem a l := stored_writeBytes _ _ _

@[simp] theorem beside_rfl {α : Type} (get : State → Nat → α) (n : Nat) (s : State) : Beside get n s s := fun _ _ => rfl

theorem beside_trans {α : Type} {get : State → Nat → α} {n : Nat} {s t u : State} (h : Beside get n s t) (k : Beside get n t u) :
    Beside get n s u := fun m hm => (k m hm).trans (h m hm)

@[simp] theorem beside_setRing (s : State) (n : Nat) (x : Ring) : Beside State.ring n s (s.setRing n x) := fun _ h => s.setRing_other x h
@[simp] theorem beside_setDeck (s : State) (n : Nat) (x : Deck) : Beside State.deck n s (s.setDeck n x) := fun _ h => lookup_put_other _ _ _ h
@[simp] theorem beside_setIsland (s : State) (n : Nat) (x : Island) : Beside State.island n s (s.setIsland n x) :=
  fun _ h => lookup_put_other _ _ _ h
@[simp] theorem beside_setBank (s : State) (n : Nat) (x : Bank) : Beside State.bank n s (s.setBank n x) := fun _ h => lookup_put_other _ _ _ h
@[simp] theorem beside_setStack (s : State) (n : Nat) (x : Stack) : Beside State.stack n s (s.setStack n x) :=
  fun _ h => lookup_put_other _ _ _ h
@[simp] theorem beside_setPort (s : State) (n : Nat) (x : Port) : Beside State.port n s (s.setPort n x) := fun _ h => lookup_put_other _ _ _ h
@[simp] theorem beside_setTeller (s : State) (n : Nat) (x : Teller) : Beside State.teller n s (s.setTeller n x) :=
  fun _ h => lookup_put_other _ _ _ h
@[simp] theorem beside_setDtb (s : State) (n : Nat) (x : Dtb) : Beside State.dtb n s (s.setDtb n x) := fun _ h => lookup_put_other _ _ _ h
@[simp] theorem beside_setAab (s : State) (n : Nat) (x : Aab) : Beside State.aab n s (s.setAab n x) := fun _ h => lookup_put_other _ _ _ h

theorem modify_same {α : Type} [DecidableEq α] (d : α) (t : Table α) (i : Nat) (f : α → α) : lookup d (modify d t i f) i = f (lookup d t i) := by
  simp [modify]

theorem modify_other {α : Type} [DecidableEq α] (d : α) (t : Table α) {i j : Nat} (f : α → α) (h : j ≠ i) :
    lookup d (modify d t i f) j = lookup d t j := by simp [modify, lookup_put_other _ _ _ h]

theorem counts_bump (s : State) (b slot k : Nat) : Counts b slot k s (s.bump b slot k) := by
  refine ⟨fun m h => s.bump_other slot k h, ?_, ?_, fun j h => ?_⟩
  · rw [State.bump_island]
  · rw [State.bump_island]; dsimp only; exact modify_same _ _ _ _
  · rw [State.bump_island]; dsimp only; exact modify_other _ _ _ h

end Sys2Proof.Machine
end

