-- ==== Sys2Proof/Laws/Ends.lean ====
section
/-! SUPPORT. What the end of an item does to the journal: the item that ends, every other entry, and the rings. -/

namespace Sys2Proof.Machine

open Sys2Proof

/-- What wakes and news of the slip before may change of a journal entry: everything else of it is kept. -/
def Item.SameWork (x y : Item) : Prop :=
  y = { x with aux0 := y.aux0, prevStatus := y.prevStatus, readyAt := y.readyAt, preWaitDone := y.preWaitDone, waitDone := y.waitDone }

theorem Item.SameWork.refl (x : Item) : x.SameWork x := rfl
theorem Item.SameWork.trans {x y z : Item} (h : x.SameWork y) (k : y.SameWork z) : x.SameWork z := by
  unfold Item.SameWork at *; rw [h] at k; exact k

/-- Every journal entry but the item's keeps its work. -/
def OthersFollow (id : Nat) (s t : State) : Prop :=
  ∀ i x, i ≠ id → find s.items i = some x → ∃ y, find t.items i = some y ∧ x.SameWork y

/-- Every journal entry keeps its work. -/
def ItemsFollow (s t : State) : Prop := ∀ i x, find s.items i = some x → ∃ y, find t.items i = some y ∧ x.SameWork y

theorem ItemsFollow.of_eq {s t : State} (h : t.items = s.items) : ItemsFollow s t := fun _ x hx => ⟨x, h ▸ hx, rfl⟩
theorem ItemsFollow.trans {s t u : State} (h : ItemsFollow s t) (k : ItemsFollow t u) : ItemsFollow s u := fun i x hx =>
  let ⟨y, hy, e⟩ := h i x hx
  let ⟨z, hz, f⟩ := k i y hy
  ⟨z, hz, e.trans f⟩
theorem ItemsFollow.others {s t : State} (h : ItemsFollow s t) (id : Nat) : OthersFollow id s t := fun _ x _ hx => h _ x hx
theorem OthersFollow.trans {id : Nat} {s t u : State} (h : OthersFollow id s t) (k : OthersFollow id t u) : OthersFollow id s u := fun i x hi hx =>
  let ⟨y, hy, e⟩ := h i x hi hx
  let ⟨z, hz, f⟩ := k i y hi hy
  ⟨z, hz, e.trans f⟩

theorem othersFollow_setItem (s : State) (id : Nat) (x : Item) : OthersFollow id s (s.setItem id x) :=
  fun _ y hi hy => ⟨y, by rw [State.setItem_other s x hi, hy], rfl⟩

theorem itemsFollow_wake (s : State) (p : Waiter × Nat) : ItemsFollow s (s.wake p) := by
  intro i x hx
  by_cases h : i = p.1.item
  · subst h
    refine ⟨x.woken p.1.waitSlip p.2 s.now, ?_, ?_⟩
    · simp [State.wake, find_adjust_same, hx]
    · unfold Item.woken Item.SameWork; split <;> rfl
  · exact ⟨x, by simp [State.wake, find_adjust_other _ _ h, hx], rfl⟩

theorem itemsFollow_foldl {α : Type} (l : List α) (g : State → α → State) (hg : ∀ t a, ItemsFollow t (g t a)) (s : State) :
    ItemsFollow s (l.foldl g s) := by
  induction l generalizing s with
  | nil => exact .of_eq rfl
  | cons a rest ih => exact (hg s a).trans (ih _)

theorem itemsFollow_settleTally {s u : State} (hu : u.items = s.items) (h : Nat) (t : Tally) : ItemsFollow s (u.settleTally h t) :=
  (ItemsFollow.of_eq (by simpa [State.setTally] using hu)).trans (itemsFollow_foldl _ _ itemsFollow_wake _)

theorem itemsFollow_leaveQueue (s : State) (h item : Nat) : ItemsFollow s (s.leaveQueue h item) := by
  unfold State.leaveQueue
  split
  · exact .of_eq rfl
  · rename_i t _
    dsimp only
    split
    · exact itemsFollow_settleTally (u := { s with heldWaits := put [] s.heldWaits t.region ((heldOf s t.region).filter fun p => decide (p.2.item ≠ item)) }) rfl _ _
    · exact .of_eq rfl

theorem itemsFollow_leaveQueues (s : State) (x : Item) (item : Nat) : ItemsFollow s (s.leaveQueues x item) := by
  unfold State.leaveQueues
  dsimp only
  split <;> split
  · exact (itemsFollow_leaveQueue _ _ _).trans (itemsFollow_leaveQueue _ _ _)
  · exact itemsFollow_leaveQueue _ _ _
  · exact itemsFollow_leaveQueue _ _ _
  · exact .of_eq rfl

/-- The parts that hold no journal entry and no ring. -/
def Kept2 (s t : State) : Prop := t.items = s.items ∧ t.rings = s.rings

theorem kept2_of_touches {ps : List Part} {s t : State} (h : Touches ps s t) (h1 : Part.items ∉ ps) (h2 : Part.rings ∉ ps) : Kept2 s t :=
  ⟨h _ h1, h _ h2⟩

theorem kept2_abortPeers (s : State) (t : Ticket) (f : Nat) : Kept2 s (s.abortPeers t f) :=
  kept2_of_touches (ps := [.out, .free, .islands, .peers]) (touches_State_abortPeers .rfl (by decide) (by decide) (by decide) (by decide) t f)
    (by decide) (by decide)

theorem kept2_dropOutputs (s : State) (x : Item) (n : Nat) : Kept2 s (s.dropOutputs x n) :=
  kept2_of_touches (ps := [.free, .cmem, .lastWrite, .accounts, .tensors, .tallies])
    (touches_State_dropOutputs .rfl (by decide) (by decide) (by decide) (by decide) (by decide) (by decide) x n) (by decide) (by decide)

theorem kept2_release (s : State) (id : Nat) : Kept2 s (s.release id) := ⟨rfl, rfl⟩

theorem rings_leaveQueues (s : State) (x : Item) (item : Nat) : (s.leaveQueues x item).rings = s.rings :=
  (touches_State_leaveQueues (ps := [.tallies, .items, .heldWaits, .islands]) .rfl (by decide) (by decide) (by decide) (by decide) x item :
    Touches _ s _) .rings (by decide)


/-- The rings are as before but for the end that each keeps of its last item. -/
def RingsFollow (s t : State) : Prop := ∀ n, t.ring n = { s.ring n with lastStatus := (t.ring n).lastStatus }

theorem RingsFollow.of_eq {s t : State} (h : t.rings = s.rings) : RingsFollow s t := fun n => by rw [State.ring, State.ring, h]
theorem RingsFollow.trans {s t u : State} (h : RingsFollow s t) (k : RingsFollow t u) : RingsFollow s u := fun n => by
  rw [k n, h n]

theorem ringsFollow_tellSuccessor (s : State) (x : Item) (id status : Nat) : RingsFollow s (s.tellSuccessor x id status) := by
  intro n
  unfold State.tellSuccessor
  dsimp only
  split
  · by_cases h : n = x.ring
    · subst h; simp
    · rw [State.setRing_other _ _ h]; rfl
  · rfl

theorem tellSuccessor_items (s : State) (x : Item) (id status : Nat) : ∃ f : Item → Item,
    (∀ y : Item, f y = { y with prevStatus := (f y).prevStatus, readyAt := (f y).readyAt }) ∧
    (s.tellSuccessor x id status).items = mapValues (fun _ => f) s.items := by
  refine ⟨fun y => if y.prev = some id then { y with prevStatus := some status, readyAt := if slipAfterPrevious y.slip then s.now else y.readyAt } else y, ?_, ?_⟩
  · intro y; dsimp only; split <;> rfl
  · unfold State.tellSuccessor; dsimp only; split <;> rfl

theorem itemsFollow_tellSuccessor (s : State) (x : Item) (id status : Nat) : ItemsFollow s (s.tellSuccessor x id status) := by
  obtain ⟨f, hf, e⟩ := tellSuccessor_items s x id status
  intro i y hy
  refine ⟨f y, by rw [e, find_mapValues, hy]; rfl, ?_⟩
  unfold Item.SameWork
  rw [hf y]

theorem rings_leaveItem (s : State) (id status fault : Nat) (x : Item) : (s.leaveItem id status fault x).rings = s.rings := by
  unfold State.leaveItem
  have h1 : ((s.leaveQueues x id).abortTicket id fault).rings = s.rings := by
    unfold State.abortTicket
    split
    · exact (kept2_abortPeers _ _ _).2.trans (rings_leaveQueues s x id)
    · exact rings_leaveQueues s x id
  dsimp only
  generalize (s.leaveQueues x id).abortTicket id fault = u at h1 ⊢
  split
  · exact h1
  · exact (kept2_dropOutputs u x status).2.trans h1

theorem itemsFollow_leaveItem (s : State) (id status fault : Nat) (x : Item) : ItemsFollow s (s.leaveItem id status fault x) := by
  unfold State.leaveItem
  have h1 : ItemsFollow s ((s.leaveQueues x id).abortTicket id fault) := by
    refine (itemsFollow_leaveQueues s x id).trans (.of_eq ?_)
    unfold State.abortTicket
    split
    · exact (kept2_abortPeers _ _ _).1
    · rfl
  dsimp only
  generalize (s.leaveQueues x id).abortTicket id fault = u at h1 ⊢
  refine h1.trans (.of_eq ?_)
  split
  · rfl
  · exact (kept2_dropOutputs u x status).1

/-- The item to end, as its block-time leaves it. -/
def timedFor (s : State) (x : Item) : State × Item := if x.stage = 2 ∨ x.stage = 3 then s.timed x false else (s, x)

theorem endItem_live {s : State} {id : Nat} {x : Item} (hx : find s.items id = some x) (hl : x.live = true) (status fault : Nat) :
    s.endItem id status fault = ((timedFor s x).1.leaveItem id status fault (timedFor s x).2).markEnded id status fault (timedFor s x).2 := by
  unfold State.endItem
  rw [hx]
  dsimp only
  rw [if_neg (by simp [hl])]
  rfl

theorem endItem_dead {s : State} {id : Nat} {x : Item} (hx : find s.items id = some x) (hl : x.live = false) (status fault : Nat) :
    s.endItem id status fault = s := by
  unfold State.endItem
  rw [hx]
  dsimp only
  rw [if_pos (by simp [hl])]

theorem endItem_none {s : State} {id : Nat} (hx : find s.items id = none) (status fault : Nat) : s.endItem id status fault = s := by
  unfold State.endItem
  rw [hx]

theorem timedFor_item (s : State) (x : Item) : (timedFor s x).2 = { x with blockTime := (timedFor s x).2.blockTime } := by
  unfold timedFor State.timed
  split
  · split <;> rfl
  · rfl

theorem timedFor_kept (s : State) (x : Item) : Kept2 s (timedFor s x).1 := by
  unfold timedFor State.timed
  split
  · split <;> exact ⟨rfl, rfl⟩
  · exact ⟨rfl, rfl⟩

theorem stashAux_item (s : State) (x : Item) : s.stashAux x = { x with aux0 := (s.stashAux x).aux0 } := by
  unfold State.stashAux
  split <;> rfl

/-- A live item that ends is at stage 6 with its status and fault; its slip, ring and place in the ring stay (R77, R80). -/
theorem endItem_ends {s : State} {id : Nat} {x : Item} (hx : find s.items id = some x) (hl : x.live = true) (status fault : Nat) :
    ∃ y, find (s.endItem id status fault).items id = some y ∧ y.stage = 6 ∧ y.status = status ∧ y.fault = fault ∧
      y.flags = x.recovered.flags ∧ y = { x with stage := 6, status := status, fault := fault, flags := y.flags, aux0 := y.aux0, blockTime := y.blockTime, epoch := y.epoch, prevStatus := y.prevStatus, readyAt := y.readyAt, preWaitDone := y.preWaitDone, waitDone := y.waitDone } := by
  rw [endItem_live hx hl]
  unfold State.markEnded
  obtain ⟨y, hy, e⟩ := itemsFollow_tellSuccessor _ (timedFor s x).2 id status id _ (State.setItem_same ((timedFor s x).1.leaveItem id status fault (timedFor s x).2) id _)
  refine ⟨y, hy, ?_⟩
  unfold Item.SameWork at e
  rw [stashAux_item, timedFor_item] at e
  rw [e]
  simp [Item.recovered, Item.flagIf]

theorem endItem_others (s : State) (id status fault : Nat) : OthersFollow id s (s.endItem id status fault) := by
  cases hx : find s.items id with
  | none => rw [endItem_none hx]; exact (ItemsFollow.of_eq rfl).others id
  | some x =>
    cases hl : x.live with
    | false => rw [endItem_dead hx hl]; exact (ItemsFollow.of_eq rfl).others id
    | true =>
      rw [endItem_live hx hl]
      exact ((((ItemsFollow.of_eq (timedFor_kept s x).1).trans (itemsFollow_leaveItem _ _ _ _ _)).others id).trans
        (othersFollow_setItem _ _ _)).trans ((itemsFollow_tellSuccessor _ _ _ _).others id)

theorem endItem_rings (s : State) (id status fault : Nat) : RingsFollow s (s.endItem id status fault) := by
  cases hx : find s.items id with
  | none => rw [endItem_none hx]; exact .of_eq rfl
  | some x =>
    cases hl : x.live with
    | false => rw [endItem_dead hx hl]; exact .of_eq rfl
    | true =>
      rw [endItem_live hx hl]
      exact (RingsFollow.of_eq (t := ((timedFor s x).1.leaveItem id status fault (timedFor s x).2).setItem id _)
        ((rings_leaveItem _ _ _ _ _).trans (timedFor_kept s x).2)).trans (ringsFollow_tellSuccessor _ _ _ _)

/-- What success leaves alone beside the journal and the rings. -/
theorem succeed_touches (s : State) (id : Nat) (x : Item) :
    Touches [.free, .rings, .tensors, .items, .decks, .aabs, .dtbs, .tellers, .tickets] s (s.succeed id x) :=
  touches_State_succeed .rfl (by decide) (by decide) (by decide) (by decide) (by decide) (by decide) (by decide) (by decide) (by decide) id x

/-- The item with which success goes on: its block-time is counted, RECOVERED noted, a STASH's AUX0 filled. -/
def succeeded (s : State) (x : Item) : State × Item :=
  (if x.work.staged then s.landUpdate x else s).timed (s.stashAux x).recovered true

theorem timed_item (s : State) (x : Item) (whole : Bool) : (s.timed x whole).2 = { x with blockTime := (s.timed x whole).2.blockTime } := by
  unfold State.timed
  split <;> rfl

theorem succeeded_item (s : State) (x : Item) : (succeeded s x).2 = { x with
    blockTime := (succeeded s x).2.blockTime, flags := x.recovered.flags, aux0 := (s.stashAux x).aux0 } := by
  have e : ∀ b, ({ (s.stashAux x).recovered with blockTime := b } : Item) =
      { x with blockTime := b, flags := x.recovered.flags, aux0 := (s.stashAux x).aux0 } := by
    intro b
    unfold State.stashAux
    split <;> rfl
  exact (timed_item _ _ _).trans (e _)

theorem succeeded_kept (s : State) (x : Item) : Kept2 s (succeeded s x).1 := by
  have h : Touches [.free, .tensors] s (succeeded s x).1 := by
    unfold succeeded State.timed
    have h1 : Touches [.free, .tensors] s (if x.work.staged = true then s.landUpdate x else s) := by
      split
      · exact touches_State_landUpdate .rfl (by decide) (by decide) x
      · exact .rfl
    generalize (if x.work.staged = true then s.landUpdate x else s) = u at h1 ⊢
    split
    · exact h1.trans (touches_mk .rfl (by simp) (by simp) (by simp) (by simp) (by simp) (by simp) (by simp) (by simp) (by simp) (by simp) (by simp) (by simp)
        (by simp) (by simp) (by simp) (by simp) (by simp) (by simp) (by simp) (by simp) (by simp) (by simp) (by simp) (by simp) (by simp) (by simp) (by simp)
        (by simp) (by simp) (by simp) (by simp) (by simp) (by simp) (by simp) (by simp) (by simp) (by simp) (by simp) (by simp) (by simp) (by simp) (by simp)
        (by simp) (by simp) (by simp))
    · exact h1
  exact kept2_of_touches h (by decide) (by decide)

theorem succeed_eq (s : State) (id : Nat) (x : Item) : s.succeed id x =
    (((((succeeded s x).1.release id).dropTicket id).setItem id { (succeeded s x).2 with stage := 4, status := successStatus (succeeded s x).2.flags }).tellSuccessor
      (succeeded s x).2 id (successStatus (succeeded s x).2.flags)) := rfl

/-- An item that succeeds is at stage 4, its status follows from its flags, and the rest of it that a receipt shows stays (R82). -/
theorem succeed_ends (s : State) (id : Nat) (x : Item) :
    ∃ y, find (s.succeed id x).items id = some y ∧ y.stage = 4 ∧ y.status = successStatus x.recovered.flags ∧ y.flags = x.recovered.flags ∧
      y.slip = x.slip ∧ y.slipIndex = x.slipIndex ∧ y.ring = x.ring ∧ y.account = x.account ∧ y.aux1 = x.aux1 ∧ y.aux0 = (s.stashAux x).aux0 ∧
      y.fault = x.fault ∧ y.work = x.work := by
  rw [succeed_eq]
  have e0 := succeeded_item s x
  generalize succeeded s x = q at e0 ⊢
  obtain ⟨f, hf, e⟩ := tellSuccessor_items (((q.1.release id).dropTicket id).setItem id { q.2 with stage := 4, status := successStatus q.2.flags }) q.2 id
    (successStatus q.2.flags)
  refine ⟨_, by rw [e, find_mapValues, State.setItem_same]; rfl, ?_⟩
  rw [hf]
  dsimp only
  rw [e0]
  simp

theorem succeed_rings (s : State) (id : Nat) (x : Item) : RingsFollow s (s.succeed id x) := by
  rw [succeed_eq]
  have k := (succeeded_kept s x).2
  generalize succeeded s x = q at k ⊢
  exact (RingsFollow.of_eq (t := ((q.1.release id).dropTicket id).setItem id _) k).trans (ringsFollow_tellSuccessor _ _ _ _)

theorem succeed_others (s : State) (id : Nat) (x : Item) : OthersFollow id s (s.succeed id x) := by
  rw [succeed_eq]
  have k := (succeeded_kept s x).1
  generalize succeeded s x = q at k ⊢
  exact (((ItemsFollow.of_eq (t := (q.1.release id).dropTicket id) k).others id).trans (othersFollow_setItem _ _ _)).trans
    ((itemsFollow_tellSuccessor _ _ _ _).others id)

end Sys2Proof.Machine
end

