-- ==== Sys2Proof/Laws/Keeps.lean ====
section
/-! SUPPORT. What every operation of the model keeps: the queue of waiting commands, and the canonical form of the byte memories.
`Keeps s0 t` says that `t` follows from `s0` so; one lemma per operation says that the operation preserves it. -/

namespace Sys2Proof.Machine

open Sys2Proof

/-- The kept part of a state, by its components. -/
def KeepsV (s0 : State) (pending : List Instr) (cmem : Memory) (banks : Table Bank) (hbmStacks : Table Stack)
    (lw le sa sb mw me : Memory) : Prop :=
  pending = s0.pending ∧ (MemoriesCanonical s0 →
    cmem.wf = true ∧ (∀ p ∈ banks, p.2.bytes.wf = true) ∧ (∀ p ∈ hbmStacks, p.2.bytes.wf = true) ∧
    lw.wf = true ∧ le.wf = true ∧ sa.wf = true ∧ sb.wf = true ∧ mw.wf = true ∧ me.wf = true)

def Keeps (s0 t : State) : Prop :=
  KeepsV s0 t.pending t.cmem t.banks t.hbmStacks t.flash.loaderW t.flash.loaderE t.flash.slotA t.flash.slotB t.mail.west.request
    t.mail.east.request

theorem Keeps.pending {s0 t : State} (h : Keeps s0 t) : t.pending = s0.pending := h.1
theorem Keeps.canonical {s0 t : State} (h : Keeps s0 t) (hs : MemoriesCanonical s0) : MemoriesCanonical t := h.2 hs

@[simp] theorem Keeps.rfl {s : State} : Keeps s s := ⟨by rfl, fun h => h⟩

theorem Keeps.trans {s t u : State} (h : Keeps s t) (k : Keeps t u) : Keeps s u :=
  ⟨k.1.trans h.1, fun hs => k.2 (h.2 hs)⟩

/-- A state written out is kept when its kept components are. -/
@[simp] theorem keeps_mk {s0 : State} {p : List Instr} {o fr nw} {c : Memory} {lwr pw fl hb st hf br mv sp rg ac te ta im it ni hw is de aa dt tl}
    {ba : Table Bank} {sk : Table Stack} {ti of pe lp po pl gr re rq lk} {ma : Both Mailbox} {rt du dc dd tm ic} :
    Keeps s0 (State.mk p o fr nw c lwr pw fl hb st hf br mv sp rg ac te ta im it ni hw is de aa dt tl ba sk ti of pe lp po pl gr re rq lk ma rt du dc dd tm ic)
      ↔ KeepsV s0 p c ba sk fl.loaderW fl.loaderE fl.slotA fl.slotB ma.west.request ma.east.request := Iff.rfl

@[simp] theorem keepsV_fold {s0 t : State} :
    KeepsV s0 t.pending t.cmem t.banks t.hbmStacks t.flash.loaderW t.flash.loaderE t.flash.slotA t.flash.slotB t.mail.west.request
      t.mail.east.request ↔ Keeps s0 t := Iff.rfl

@[simp] theorem keeps_ite {s0 a b : State} {c : Prop} [Decidable c] (ha : Keeps s0 a) (hb : Keeps s0 b) :
    Keeps s0 (if c then a else b) := by split <;> assumption

@[simp] theorem keeps_foldl {α : Type} {s0 : State} (l : List α) (g : State → α → State) (hg : ∀ t a, Keeps s0 t → Keeps s0 (g t a)) {t : State}
    (h : Keeps s0 t) : Keeps s0 (l.foldl g t) := by
  induction l generalizing t with
  | nil => exact h
  | cons a rest ih => exact ih (hg t a h)

@[simp] theorem keeps_poke {s0 t : State} (h : Keeps s0 t) (a : Nat) (l : List Byte) : Keeps s0 (t.poke a l) :=
  ⟨h.1, fun hs => let k := h.2 hs; ⟨wf_writeBytes k.1 a l, k.2⟩⟩
@[simp] theorem keeps_companion {s0 t : State} (h : Keeps s0 t) (cw : List CWrite) : Keeps s0 (t.companion cw) :=
  ⟨h.1, fun hs => let k := h.2 hs; ⟨wf_applyStores k.1 cw, k.2⟩⟩

theorem lookup_bytes_wf {t : Table Bank} (h : ∀ p ∈ t, p.2.bytes.wf = true) (i : Nat) : (lookup {} t i).bytes.wf = true := by
  unfold lookup
  cases hf : find t i with
  | none => rfl
  | some a => exact h _ (mem_of_find hf)

theorem lookup_stack_wf {t : Table Stack} (h : ∀ p ∈ t, p.2.bytes.wf = true) (i : Nat) : (lookup {} t i).bytes.wf = true := by
  unfold lookup
  cases hf : find t i with
  | none => rfl
  | some a => exact h _ (mem_of_find hf)

/-- A bank's update keeps when its bytes stay canonical. -/
@[simp] theorem keeps_setBank {s0 t : State} (h : Keeps s0 t) (b : Nat) (x : Bank)
    (hx : MemoriesCanonical t → x.bytes.wf = true) : Keeps s0 (t.setBank b x) :=
  ⟨h.1, fun hs => by
    obtain ⟨k1, k2, k3⟩ := h.2 hs
    refine ⟨k1, fun p hp => ?_, k3⟩
    rcases mem_put hp with e | hp
    · exact e ▸ hx ⟨k1, k2, k3⟩
    · exact k2 p hp⟩

@[simp] theorem keeps_setStack {s0 t : State} (h : Keeps s0 t) (b : Nat) (x : Stack)
    (hx : MemoriesCanonical t → x.bytes.wf = true) : Keeps s0 (t.setStack b x) :=
  ⟨h.1, fun hs => by
    obtain ⟨k1, k2, k3, k4⟩ := h.2 hs
    refine ⟨k1, k2, fun p hp => ?_, k4⟩
    rcases mem_put hp with e | hp
    · exact e ▸ hx ⟨k1, k2, k3, k4⟩
    · exact k3 p hp⟩

@[simp] theorem bank_wf {t : State} (h : MemoriesCanonical t) (b : Nat) : (t.bank b).bytes.wf = true := lookup_bytes_wf h.2.1 b
@[simp] theorem stack_wf {t : State} (h : MemoriesCanonical t) (k : Nat) : (t.stack k).bytes.wf = true := lookup_stack_wf h.2.2.1 k

theorem keeps_foldl_fst {α β : Type} {s0 : State} (l : List α) (g : State × β → α → State × β)
    (hg : ∀ q a, Keeps s0 q.1 → Keeps s0 (g q a).1) {q : State × β} (h : Keeps s0 q.1) : Keeps s0 (l.foldl g q).1 := by
  induction l generalizing q with
  | nil => exact h
  | cons a rest ih => exact ih (hg q a h)

@[simp] theorem keepsV_cmem {s0 : State} {p c b k lw le sa sb mw me} (h : KeepsV s0 p c b k lw le sa sb mw me) (a : Nat) (l : List Byte) :
    KeepsV s0 p (writeBytes c a l) b k lw le sa sb mw me := ⟨h.1, fun hs => ⟨wf_writeBytes (h.2 hs).1 a l, (h.2 hs).2⟩⟩

@[simp] theorem writeBack_bytes (k : Bank) : k.writeBack.bytes = k.bytes := by unfold Bank.writeBack; split <;> rfl
@[simp] theorem turned_bytes (k : Bank) (r w : PortTurn) : (k.turned r w).bytes = k.bytes := by
  unfold Bank.turned
  split
  · exact writeBack_bytes k
  · rfl

@[simp] theorem keeps_serveWith {s0 t : State} (h : Keeps s0 t) (f : State → PortRequest → State) (hf : ∀ u q, Keeps s0 u → Keeps s0 (f u q))
    (served : Option PortRequest) : Keeps s0 (serveWith f served t) := by
  unfold serveWith
  split
  · exact hf _ _ h
  · exact h

/-- Banks changed in place keep when their bytes stay as they were. -/
theorem keeps_banks {s0 t : State} (h : Keeps s0 t) (f : Nat → Bank → Bank) (hf : ∀ i x, (f i x).bytes = x.bytes) :
    Keeps s0 { t with banks := tidy {} (mapValues f t.banks) } :=
  ⟨h.1, fun hs => by
    obtain ⟨k1, k2, k3⟩ := h.2 hs
    refine ⟨k1, fun p hp => ?_, k3⟩
    obtain ⟨q, hq, e⟩ := mem_mapValues (mem_tidy hp)
    rw [e, hf]
    exact k2 q hq⟩

theorem keeps_getD_state {s0 s : State} (hk : Keeps s0 s) (o : Option State) (h : ∀ t, o = some t → Keeps s0 t) : Keeps s0 (o.getD s) := by
  cases o with
  | none => exact hk
  | some t => exact h t rfl

end Sys2Proof.Machine
end

