-- ==== Sys2Proof/Laws/Operations.lean ====
section
/-! SUPPORT. One lemma for every shared operation of the model: it keeps the queue of waiting commands and the canonical form of the
byte memories (`Keeps`). In the order of the model's files. -/

namespace Sys2Proof.Machine

open Sys2Proof

set_option linter.all false
set_option Elab.async false

@[simp] theorem keeps_State_setRing {s0 s : State} (hk : Keeps s0 s) (n : Nat) (r : Ring) : Keeps s0 (State.setRing s n r) := by
  unfold State.setRing
  first
  | simp +contextual (maxDischargeDepth := 60) [hk]; done
  | ((try dsimp only); (repeat' split) <;> simp +contextual (maxDischargeDepth := 60) [*])

@[simp] theorem keeps_State_dropItem {s0 s : State} (hk : Keeps s0 s) (i : Nat) : Keeps s0 (State.dropItem s i) := by
  unfold State.dropItem
  first
  | simp +contextual (maxDischargeDepth := 60) [hk]; done
  | ((try dsimp only); (repeat' split) <;> simp +contextual (maxDischargeDepth := 60) [*])

@[simp] theorem keeps_State_setAccount {s0 s : State} (hk : Keeps s0 s) (a : Nat) (x : Account) : Keeps s0 (State.setAccount s a x) := by
  unfold State.setAccount
  first
  | simp +contextual (maxDischargeDepth := 60) [hk]; done
  | ((try dsimp only); (repeat' split) <;> simp +contextual (maxDischargeDepth := 60) [*])

@[simp] theorem keeps_State_setTensor {s0 s : State} (hk : Keeps s0 s) (h : Nat) (x : Tensor) : Keeps s0 (State.setTensor s h x) := by
  unfold State.setTensor
  first
  | simp +contextual (maxDischargeDepth := 60) [hk]; done
  | ((try dsimp only); (repeat' split) <;> simp +contextual (maxDischargeDepth := 60) [*])

@[simp] theorem keeps_State_setTally {s0 s : State} (hk : Keeps s0 s) (h : Nat) (x : Tally) : Keeps s0 (State.setTally s h x) := by
  unfold State.setTally
  first
  | simp +contextual (maxDischargeDepth := 60) [hk]; done
  | ((try dsimp only); (repeat' split) <;> simp +contextual (maxDischargeDepth := 60) [*])

@[simp] theorem keeps_State_setImage {s0 s : State} (hk : Keeps s0 s) (h : Nat) (x : Image) : Keeps s0 (State.setImage s h x) := by
  unfold State.setImage
  first
  | simp +contextual (maxDischargeDepth := 60) [hk]; done
  | ((try dsimp only); (repeat' split) <;> simp +contextual (maxDischargeDepth := 60) [*])

@[simp] theorem keeps_State_setIsland {s0 s : State} (hk : Keeps s0 s) (b : Nat) (x : Island) : Keeps s0 (State.setIsland s b x) := by
  unfold State.setIsland
  first
  | simp +contextual (maxDischargeDepth := 60) [hk]; done
  | ((try dsimp only); (repeat' split) <;> simp +contextual (maxDischargeDepth := 60) [*])

@[simp] theorem keeps_State_setItem {s0 s : State} (hk : Keeps s0 s) (i : Nat) (x : Item) : Keeps s0 (State.setItem s i x) := by
  unfold State.setItem
  first
  | simp +contextual (maxDischargeDepth := 60) [hk]; done
  | ((try dsimp only); (repeat' split) <;> simp +contextual (maxDischargeDepth := 60) [*])

@[simp] theorem keeps_State_setDeck {s0 s : State} (hk : Keeps s0 s) (d : Nat) (x : Deck) : Keeps s0 (State.setDeck s d x) := by
  unfold State.setDeck
  first
  | simp +contextual (maxDischargeDepth := 60) [hk]; done
  | ((try dsimp only); (repeat' split) <;> simp +contextual (maxDischargeDepth := 60) [*])

@[simp] theorem keeps_State_setAab {s0 s : State} (hk : Keeps s0 s) (a : Nat) (x : Aab) : Keeps s0 (State.setAab s a x) := by
  unfold State.setAab
  first
  | simp +contextual (maxDischargeDepth := 60) [hk]; done
  | ((try dsimp only); (repeat' split) <;> simp +contextual (maxDischargeDepth := 60) [*])

@[simp] theorem keeps_State_setDtb {s0 s : State} (hk : Keeps s0 s) (d : Nat) (x : Dtb) : Keeps s0 (State.setDtb s d x) := by
  unfold State.setDtb
  first
  | simp +contextual (maxDischargeDepth := 60) [hk]; done
  | ((try dsimp only); (repeat' split) <;> simp +contextual (maxDischargeDepth := 60) [*])

@[simp] theorem keeps_State_setTeller {s0 s : State} (hk : Keeps s0 s) (f : Nat) (x : Teller) : Keeps s0 (State.setTeller s f x) := by
  unfold State.setTeller
  first
  | simp +contextual (maxDischargeDepth := 60) [hk]; done
  | ((try dsimp only); (repeat' split) <;> simp +contextual (maxDischargeDepth := 60) [*])

@[simp] theorem keeps_State_setTicket {s0 s : State} (hk : Keeps s0 s) (i : Nat) (x : Ticket) : Keeps s0 (State.setTicket s i x) := by
  unfold State.setTicket
  first
  | simp +contextual (maxDischargeDepth := 60) [hk]; done
  | ((try dsimp only); (repeat' split) <;> simp +contextual (maxDischargeDepth := 60) [*])

@[simp] theorem keeps_State_dropTicket {s0 s : State} (hk : Keeps s0 s) (i : Nat) : Keeps s0 (State.dropTicket s i) := by
  unfold State.dropTicket
  first
  | simp +contextual (maxDischargeDepth := 60) [hk]; done
  | ((try dsimp only); (repeat' split) <;> simp +contextual (maxDischargeDepth := 60) [*])

@[simp] theorem keeps_State_setPeer {s0 s : State} (hk : Keeps s0 s) (h : Half) (p : Nat) (x : PeerContext) : Keeps s0 (State.setPeer s h p x) := by
  unfold State.setPeer
  first
  | simp +contextual (maxDischargeDepth := 60) [hk]; done
  | ((try dsimp only); (repeat' split) <;> simp +contextual (maxDischargeDepth := 60) [*])

@[simp] theorem keeps_State_setPort {s0 s : State} (hk : Keeps s0 s) (p : Nat) (x : Port) : Keeps s0 (State.setPort s p x) := by
  unfold State.setPort
  first
  | simp +contextual (maxDischargeDepth := 60) [hk]; done
  | ((try dsimp only); (repeat' split) <;> simp +contextual (maxDischargeDepth := 60) [*])

@[simp] theorem keeps_State_setSteward {s0 s : State} (hk : Keeps s0 s) (h : Half) (x : Steward) : Keeps s0 (State.setSteward s h x) := by
  unfold State.setSteward
  first
  | simp +contextual (maxDischargeDepth := 60) [hk]; done
  | ((try dsimp only); (repeat' split) <;> simp +contextual (maxDischargeDepth := 60) [*])

@[simp] theorem keeps_State_setHub {s0 s : State} (hk : Keeps s0 s) (x : HubRegs) : Keeps s0 (State.setHub s x) := by
  unfold State.setHub
  first
  | simp +contextual (maxDischargeDepth := 60) [hk]; done
  | ((try dsimp only); (repeat' split) <;> simp +contextual (maxDischargeDepth := 60) [*])

@[simp] theorem keeps_State_setPower {s0 s : State} (hk : Keeps s0 s) (x : Power) : Keeps s0 (State.setPower s x) := by
  unfold State.setPower
  first
  | simp +contextual (maxDischargeDepth := 60) [hk]; done
  | ((try dsimp only); (repeat' split) <;> simp +contextual (maxDischargeDepth := 60) [*])

@[simp] theorem keeps_State_setLink {s0 s : State} (hk : Keeps s0 s) (h : Half) (x : Link) : Keeps s0 (State.setLink s h x) := by
  unfold State.setLink
  first
  | simp +contextual (maxDischargeDepth := 60) [hk]; done
  | ((try dsimp only); (repeat' split) <;> simp +contextual (maxDischargeDepth := 60) [*])

@[simp] theorem keeps_State_emit {s0 s : State} (hk : Keeps s0 s) (o : Output) : Keeps s0 (State.emit s o) := by
  unfold State.emit
  first
  | simp +contextual (maxDischargeDepth := 60) [hk]; done
  | ((try dsimp only); (repeat' split) <;> simp +contextual (maxDischargeDepth := 60) [*])

@[simp] theorem keeps_State_at {s0 s : State} (hk : Keeps s0 s) (t : Nat) : Keeps s0 (State.at s t) := by
  unfold State.at
  first
  | simp +contextual (maxDischargeDepth := 60) [hk]; done
  | ((try dsimp only); (repeat' split) <;> simp +contextual (maxDischargeDepth := 60) [*])

@[simp] theorem keeps_State_tick {s0 s : State} (hk : Keeps s0 s)  : Keeps s0 (State.tick s) := by
  unfold State.tick
  first
  | simp +contextual (maxDischargeDepth := 60) [hk]; done
  | ((try dsimp only); (repeat' split) <;> simp +contextual (maxDischargeDepth := 60) [*])

@[simp] theorem keeps_State_bump {s0 s : State} (hk : Keeps s0 s) (b slot n : Nat) : Keeps s0 (State.bump s b slot n) := by
  unfold State.bump
  first
  | simp +contextual (maxDischargeDepth := 60) [hk]; done
  | ((try dsimp only); (repeat' split) <;> simp +contextual (maxDischargeDepth := 60) [*])

@[simp] theorem keeps_State_countIgnoredBell {s0 s : State} (hk : Keeps s0 s) (ep : Half) : Keeps s0 (State.countIgnoredBell s ep) := by
  unfold State.countIgnoredBell
  first
  | simp +contextual (maxDischargeDepth := 60) [hk]; done
  | ((try dsimp only); (repeat' split) <;> simp +contextual (maxDischargeDepth := 60) [*])

@[simp] theorem keeps_State_countIgnoredWrite {s0 s : State} (hk : Keeps s0 s) (ep : Half) : Keeps s0 (State.countIgnoredWrite s ep) := by
  unfold State.countIgnoredWrite
  first
  | simp +contextual (maxDischargeDepth := 60) [hk]; done
  | ((try dsimp only); (repeat' split) <;> simp +contextual (maxDischargeDepth := 60) [*])

@[simp] theorem keeps_State_recordBy {s0 s : State} (hk : Keeps s0 s) (unit : Nat) (r : FaultRecord) : Keeps s0 (State.recordBy s unit r) := by
  unfold State.recordBy
  first
  | simp +contextual (maxDischargeDepth := 60) [hk]; done
  | ((try dsimp only); (repeat' split) <;> simp +contextual (maxDischargeDepth := 60) [*])

@[simp] theorem keeps_State_recordFault {s0 s : State} (hk : Keeps s0 s) (r : FaultRecord) : Keeps s0 (State.recordFault s r) := by
  unfold State.recordFault
  first
  | simp +contextual (maxDischargeDepth := 60) [hk]; done
  | ((try dsimp only); (repeat' split) <;> simp +contextual (maxDischargeDepth := 60) [*])

@[simp] theorem keeps_State_complementFault {s0 s : State} (hk : Keeps s0 s) (source kind account item action : Nat) : Keeps s0 (State.complementFault s source kind account item action) := by
  unfold State.complementFault
  first
  | simp +contextual (maxDischargeDepth := 60) [hk]; done
  | ((try dsimp only); (repeat' split) <;> simp +contextual (maxDischargeDepth := 60) [*])

@[simp] theorem keeps_State_fenceBlock {s0 s : State} (hk : Keeps s0 s) (b : Nat) : Keeps s0 (State.fenceBlock s b) := by
  unfold State.fenceBlock
  first
  | simp +contextual (maxDischargeDepth := 60) [hk]; done
  | ((try dsimp only); (repeat' split) <;> simp +contextual (maxDischargeDepth := 60) [*])

@[simp] theorem keeps_State_recoverFrom {s0 s : State} (hk : Keeps s0 s) (r : Recovery) : Keeps s0 (State.recoverFrom s r) := by
  unfold State.recoverFrom
  first
  | simp +contextual (maxDischargeDepth := 60) [hk]; done
  | ((try dsimp only); (repeat' split) <;> simp +contextual (maxDischargeDepth := 60) [*])

@[simp] theorem keeps_State_abandon {s0 s : State} (hk : Keeps s0 s) (covered : Recovery → Bool) : Keeps s0 (State.abandon s covered) := by
  unfold State.abandon
  first
  | simp +contextual (maxDischargeDepth := 60) [hk]; done
  | ((try dsimp only); (repeat' split) <;> simp +contextual (maxDischargeDepth := 60) [*])

@[simp] theorem keeps_State_queueRecovery {s0 s : State} (hk : Keeps s0 s) (r : Recovery) : Keeps s0 (State.queueRecovery s r) := by
  unfold State.queueRecovery
  first
  | simp +contextual (maxDischargeDepth := 60) [hk]; done
  | ((try dsimp only); (repeat' split) <;> simp +contextual (maxDischargeDepth := 60) [*])

@[simp] theorem keeps_State_endRecovery {s0 s : State} (hk : Keeps s0 s) (d : Domain) : Keeps s0 (State.endRecovery s d) := by
  unfold State.endRecovery
  first
  | simp +contextual (maxDischargeDepth := 60) [hk]; done
  | ((try dsimp only); (repeat' split) <;> simp +contextual (maxDischargeDepth := 60) [*])

@[simp] theorem keeps_State_undefineTensor {s0 s : State} (hk : Keeps s0 s) (h : Nat) : Keeps s0 (State.undefineTensor s h) := by
  unfold State.undefineTensor
  first
  | simp +contextual (maxDischargeDepth := 60) [hk]; done
  | ((try dsimp only); (repeat' split) <;> simp +contextual (maxDischargeDepth := 60) [*])

@[simp] theorem keeps_State_undefineOutputs {s0 s : State} (hk : Keeps s0 s) (w : Nat) : Keeps s0 (State.undefineOutputs s w) := by
  unfold State.undefineOutputs
  first
  | simp +contextual (maxDischargeDepth := 60) [hk]; done
  | ((try dsimp only); (repeat' split) <;> simp +contextual (maxDischargeDepth := 60) [*])

@[simp] theorem keeps_State_kernelOutput {s0 s : State} (hk : Keeps s0 s) (x : Item) (digest k : Nat) (mine : Nat → Bool) : Keeps s0 (State.kernelOutput s x digest k mine).1 := by
  unfold State.kernelOutput
  first
  | simp +contextual (maxDischargeDepth := 60) [hk]; done
  | ((try dsimp only); (repeat' split) <;> simp +contextual (maxDischargeDepth := 60) [*])

@[simp] theorem keeps_State_kernelOutputs {s0 s : State} (hk : Keeps s0 s) (x : Item) (digest : Nat) (g : Image) : Keeps s0 (State.kernelOutputs s x digest g).1 := by
  unfold State.kernelOutputs
  refine keeps_foldl_fst _ _ ?_ hk
  intro q a hq
  split <;> simp +contextual (maxDischargeDepth := 60) [hq]

@[simp] theorem keeps_State_unitOutputs {s0 s : State} (hk : Keeps s0 s) (x : Item) (digest unit : Nat) (g : Image) : Keeps s0 (State.unitOutputs s x digest unit g).1 := by
  unfold State.unitOutputs
  refine keeps_foldl_fst _ _ ?_ hk
  intro q a hq
  split <;> simp +contextual (maxDischargeDepth := 60) [hq]

@[simp] theorem keeps_State_landUpdate {s0 s : State} (hk : Keeps s0 s) (x : Item) : Keeps s0 (State.landUpdate s x) := by
  unfold State.landUpdate
  first
  | simp +contextual (maxDischargeDepth := 60) [hk]; done
  | ((try dsimp only); (repeat' split) <;> simp +contextual (maxDischargeDepth := 60) [*])

@[simp] theorem keeps_State_wake {s0 s : State} (hk : Keeps s0 s) (p : Waiter × Nat) : Keeps s0 (State.wake s p) := by
  unfold State.wake
  first
  | simp +contextual (maxDischargeDepth := 60) [hk]; done
  | ((try dsimp only); (repeat' split) <;> simp +contextual (maxDischargeDepth := 60) [*])

@[simp] theorem keeps_State_settleTally {s0 s : State} (hk : Keeps s0 s) (h : Nat) (t : Tally) : Keeps s0 (State.settleTally s h t) := by
  unfold State.settleTally
  first
  | simp +contextual (maxDischargeDepth := 60) [hk]; done
  | ((try dsimp only); (repeat' split) <;> simp +contextual (maxDischargeDepth := 60) [*])

@[simp] theorem keeps_State_tallyFault {s0 s : State} (hk : Keeps s0 s) (h code item : Nat) : Keeps s0 (State.tallyFault s h code item) := by
  unfold State.tallyFault
  first
  | simp +contextual (maxDischargeDepth := 60) [hk]; done
  | ((try dsimp only); (repeat' split) <;> simp +contextual (maxDischargeDepth := 60) [*])

@[simp] theorem keeps_State_signalTally {s0 s : State} (hk : Keeps s0 s) (h n source item : Nat) : Keeps s0 (State.signalTally s h n source item).1 := by
  unfold State.signalTally
  first
  | simp +contextual (maxDischargeDepth := 60) [hk]; done
  | ((try dsimp only); (repeat' split) <;> simp +contextual (maxDischargeDepth := 60) [*])

@[simp] theorem keeps_State_takeTally {s0 s : State} (hk : Keeps s0 s) (h m item : Nat) : Keeps s0 (State.takeTally s h m item).1 := by
  unfold State.takeTally
  first
  | simp +contextual (maxDischargeDepth := 60) [hk]; done
  | ((try dsimp only); (repeat' split) <;> simp +contextual (maxDischargeDepth := 60) [*])

@[simp] theorem keeps_State_waitTally {s0 s : State} (hk : Keeps s0 s) (h : Nat) (w : Waiter) : Keeps s0 (State.waitTally s h w) := by
  unfold State.waitTally
  first
  | simp +contextual (maxDischargeDepth := 60) [hk]; done
  | ((try dsimp only); (repeat' split) <;> simp +contextual (maxDischargeDepth := 60) [*])

@[simp] theorem keeps_State_leaveQueue {s0 s : State} (hk : Keeps s0 s) (h item : Nat) : Keeps s0 (State.leaveQueue s h item) := by
  unfold State.leaveQueue
  first
  | simp +contextual (maxDischargeDepth := 60) [hk]; done
  | ((try dsimp only); (repeat' split) <;> simp +contextual (maxDischargeDepth := 60) [*])

@[simp] theorem keeps_State_leaveQueues {s0 s : State} (hk : Keeps s0 s) (x : Item) (item : Nat) : Keeps s0 (State.leaveQueues s x item) := by
  unfold State.leaveQueues
  first
  | simp +contextual (maxDischargeDepth := 60) [hk]; done
  | ((try dsimp only); (repeat' split) <;> simp +contextual (maxDischargeDepth := 60) [*])

@[simp] theorem keeps_State_transmit {s0 s : State} (hk : Keeps s0 s) (port : Nat) (f : VfFrame) : Keeps s0 (State.transmit s port f) := by
  unfold State.transmit
  first
  | simp +contextual (maxDischargeDepth := 60) [hk]; done
  | ((try dsimp only); (repeat' split) <;> simp +contextual (maxDischargeDepth := 60) [*])

@[simp] theorem keeps_State_openSend {s0 s : State} (hk : Keeps s0 s) (h : Half) (peer : Nat) : Keeps s0 (State.openSend s h peer) := by
  unfold State.openSend
  first
  | simp +contextual (maxDischargeDepth := 60) [hk]; done
  | ((try dsimp only); (repeat' split) <;> simp +contextual (maxDischargeDepth := 60) [*])

@[simp] theorem keeps_State_launch {s0 s : State} (hk : Keeps s0 s) (h : Half) (peer : Nat) (f : VfFrame) : Keeps s0 (State.launch s h peer f) := by
  unfold State.launch
  first
  | simp +contextual (maxDischargeDepth := 60) [hk]; done
  | ((try dsimp only); (repeat' split) <;> simp +contextual (maxDischargeDepth := 60) [*])

@[simp] theorem keeps_State_send {s0 s : State} (hk : Keeps s0 s) (h : Half) (peer : Nat) (f : VfFrame) : Keeps s0 (State.send s h peer f) := by
  unfold State.send
  first
  | simp +contextual (maxDischargeDepth := 60) [hk]; done
  | ((try dsimp only); (repeat' split) <;> simp +contextual (maxDischargeDepth := 60) [*])

theorem keeps_flushQueue {s0 : State} (hf : Half) (peer : Nat) (n : Nat) {s : State} (h : Keeps s0 s) : Keeps s0 (flushQueue hf peer n s) := by
  induction n generalizing s with
  | zero => exact h
  | succ n ih =>
    unfold flushQueue
    dsimp only
    split
    · simp +contextual (maxDischargeDepth := 60) [h]
    · split
      · exact ih (by simp +contextual (maxDischargeDepth := 60) [h])
      · simp +contextual (maxDischargeDepth := 60) [h]

@[simp] theorem keeps_State_flush {s0 s : State} (hk : Keeps s0 s) (h : Half) (peer : Nat) : Keeps s0 (State.flush s h peer) := keeps_flushQueue _ _ _ hk

@[simp] theorem keeps_State_sendAck {s0 s : State} (hk : Keeps s0 s) (port : Nat) (f : VfFrame) : Keeps s0 (State.sendAck s port f) := by
  unfold State.sendAck
  first
  | simp +contextual (maxDischargeDepth := 60) [hk]; done
  | ((try dsimp only); (repeat' split) <;> simp +contextual (maxDischargeDepth := 60) [*])

@[simp] theorem keeps_State_abortPeers {s0 s : State} (hk : Keeps s0 s) (t : Ticket) (fault : Nat) : Keeps s0 (State.abortPeers s t fault) := by
  unfold State.abortPeers
  first
  | simp +contextual (maxDischargeDepth := 60) [hk]; done
  | ((try dsimp only); (repeat' split) <;> simp +contextual (maxDischargeDepth := 60) [*])

@[simp] theorem keeps_State_tellSuccessor {s0 s : State} (hk : Keeps s0 s) (x : Item) (id status : Nat) : Keeps s0 (State.tellSuccessor s x id status) := by
  unfold State.tellSuccessor
  first
  | simp +contextual (maxDischargeDepth := 60) [hk]; done
  | ((try dsimp only); (repeat' split) <;> simp +contextual (maxDischargeDepth := 60) [*])

@[simp] theorem keeps_State_release {s0 s : State} (hk : Keeps s0 s) (id : Nat) : Keeps s0 (State.release s id) := by
  unfold State.release
  first
  | simp +contextual (maxDischargeDepth := 60) [hk]; done
  | ((try dsimp only); (repeat' split) <;> simp +contextual (maxDischargeDepth := 60) [*])

@[simp] theorem keeps_State_dropOutputs {s0 s : State} (hk : Keeps s0 s) (x : Item) (status : Nat) : Keeps s0 (State.dropOutputs s x status) := by
  unfold State.dropOutputs
  first
  | simp +contextual (maxDischargeDepth := 60) [hk]; done
  | ((try dsimp only); (repeat' split) <;> simp +contextual (maxDischargeDepth := 60) [*])

@[simp] theorem keeps_State_forgetImages {s0 s : State} (hk : Keeps s0 s) (gone : Nat → Bool) : Keeps s0 (State.forgetImages s gone) := by
  unfold State.forgetImages
  first
  | simp +contextual (maxDischargeDepth := 60) [hk]; done
  | ((try dsimp only); (repeat' split) <;> simp +contextual (maxDischargeDepth := 60) [*])

@[simp] theorem keeps_State_timed {s0 s : State} (hk : Keeps s0 s) (x : Item) (whole : Bool) : Keeps s0 (State.timed s x whole).1 := by
  unfold State.timed
  first
  | simp +contextual (maxDischargeDepth := 60) [hk]; done
  | ((try dsimp only); (repeat' split) <;> simp +contextual (maxDischargeDepth := 60) [*])

@[simp] theorem keeps_State_abortTicket {s0 s : State} (hk : Keeps s0 s) (id fault : Nat) : Keeps s0 (State.abortTicket s id fault) := by
  unfold State.abortTicket
  first
  | simp +contextual (maxDischargeDepth := 60) [hk]; done
  | ((try dsimp only); (repeat' split) <;> simp +contextual (maxDischargeDepth := 60) [*])

@[simp] theorem keeps_State_leaveItem {s0 s : State} (hk : Keeps s0 s) (id status fault : Nat) (x : Item) : Keeps s0 (State.leaveItem s id status fault x) := by
  unfold State.leaveItem
  first
  | simp +contextual (maxDischargeDepth := 60) [hk]; done
  | ((try dsimp only); (repeat' split) <;> simp +contextual (maxDischargeDepth := 60) [*])

@[simp] theorem keeps_State_markEnded {s0 s : State} (hk : Keeps s0 s) (id status fault : Nat) (x : Item) : Keeps s0 (State.markEnded s id status fault x) := by
  unfold State.markEnded
  first
  | simp +contextual (maxDischargeDepth := 60) [hk]; done
  | ((try dsimp only); (repeat' split) <;> simp +contextual (maxDischargeDepth := 60) [*])

@[simp] theorem keeps_State_endItem {s0 s : State} (hk : Keeps s0 s) (id status fault : Nat) : Keeps s0 (State.endItem s id status fault) := by
  unfold State.endItem
  first
  | simp +contextual (maxDischargeDepth := 60) [hk]; done
  | ((try dsimp only); (repeat' split) <;> simp +contextual (maxDischargeDepth := 60) [*])

@[simp] theorem keeps_State_finishItem {s0 s : State} (hk : Keeps s0 s) (id : Nat) (x : Item) : Keeps s0 (State.finishItem s id x) := by
  unfold State.finishItem
  first
  | simp +contextual (maxDischargeDepth := 60) [hk]; done
  | ((try dsimp only); (repeat' split) <;> simp +contextual (maxDischargeDepth := 60) [*])

@[simp] theorem keeps_State_writeShadow {s0 s : State} (hk : Keeps s0 s) (n : Nat) : Keeps s0 (State.writeShadow s n) := by
  unfold State.writeShadow
  first
  | simp +contextual (maxDischargeDepth := 60) [hk]; done
  | ((try dsimp only); (repeat' split) <;> simp +contextual (maxDischargeDepth := 60) [*])

@[simp] theorem keeps_State_putReceipt {s0 s : State} (hk : Keeps s0 s) (id : Nat) (x : Item) : Keeps s0 (State.putReceipt s id x) := by
  unfold State.putReceipt
  first
  | simp +contextual (maxDischargeDepth := 60) [hk]; done
  | ((try dsimp only); (repeat' split) <;> simp +contextual (maxDischargeDepth := 60) [*])

@[simp] theorem keeps_State_ringMismatch {s0 s : State} (hk : Keeps s0 s) (n : Nat) : Keeps s0 (State.ringMismatch s n) := by
  unfold State.ringMismatch
  first
  | simp +contextual (maxDischargeDepth := 60) [hk]; done
  | ((try dsimp only); (repeat' split) <;> simp +contextual (maxDischargeDepth := 60) [*])

@[simp] theorem keeps_State_writeReceipt {s0 s : State} (hk : Keeps s0 s) (id : Nat) : Keeps s0 (State.writeReceipt s id) := by
  unfold State.writeReceipt
  first
  | simp +contextual (maxDischargeDepth := 60) [hk]; done
  | ((try dsimp only); (repeat' split) <;> simp +contextual (maxDischargeDepth := 60) [*])

@[simp] theorem keeps_State_postSignal {s0 s : State} (hk : Keeps s0 s) (id : Nat) (x : Item) : Keeps s0 (State.postSignal s id x).1 := by
  unfold State.postSignal
  first
  | simp +contextual (maxDischargeDepth := 60) [hk]; done
  | ((try dsimp only); (repeat' split) <;> simp +contextual (maxDischargeDepth := 60) [*])

@[simp] theorem keeps_State_succeed {s0 s : State} (hk : Keeps s0 s) (id : Nat) (x : Item) : Keeps s0 (State.succeed s id x) := by
  unfold State.succeed
  first
  | simp +contextual (maxDischargeDepth := 60) [hk]; done
  | ((try dsimp only); (repeat' split) <;> simp +contextual (maxDischargeDepth := 60) [*])

@[simp] theorem keeps_State_completeItem {s0 s : State} (hk : Keeps s0 s) (id : Nat) (x : Item) : Keeps s0 (State.completeItem s id x) := by
  unfold State.completeItem
  first
  | simp +contextual (maxDischargeDepth := 60) [hk]; done
  | ((try dsimp only); (repeat' split) <;> simp +contextual (maxDischargeDepth := 60) [*])

@[simp] theorem keeps_State_takeSlot {s0 s : State} (hk : Keeps s0 s) (dn : Nat) : Keeps s0 (State.takeSlot s dn) := by
  unfold State.takeSlot
  first
  | simp +contextual (maxDischargeDepth := 60) [hk]; done
  | ((try dsimp only); (repeat' split) <;> simp +contextual (maxDischargeDepth := 60) [*])

@[simp] theorem keeps_State_releaseExtents {s0 s : State} (hk : Keeps s0 s) (l : List (Nat × Nat)) : Keeps s0 (State.releaseExtents s l) := by
  unfold State.releaseExtents
  first
  | simp +contextual (maxDischargeDepth := 60) [hk]; done
  | ((try dsimp only); (repeat' split) <;> simp +contextual (maxDischargeDepth := 60) [*])

@[simp] theorem keeps_State_loseAccount {s0 s : State} (hk : Keeps s0 s) (code : Nat) (l : Loss) (readable : Bool) (a : Nat) : Keeps s0 (State.loseAccount s code l readable a) := by
  unfold State.loseAccount
  first
  | simp +contextual (maxDischargeDepth := 60) [hk]; done
  | ((try dsimp only); (repeat' split) <;> simp +contextual (maxDischargeDepth := 60) [*])

@[simp] theorem keeps_State_poisonLost {s0 s : State} (hk : Keeps s0 s) (code : Nat) (l : Loss) (readable : Bool) : Keeps s0 (State.poisonLost s code l readable) := by
  unfold State.poisonLost
  have h1 : Keeps s0 ((s.tensors.map Prod.fst).foldl (fun s h => match find s.tensors h with
      | some t => s.setTensor h (lostTensor s code l readable h t)
      | none => s) s) := keeps_foldl _ _ (by intro u a hu; split <;> simp +contextual (maxDischargeDepth := 60) [hu]) hk
  dsimp only
  generalize (s.tensors.map Prod.fst).foldl _ s = s1 at h1 ⊢
  have h2 : Keeps s0 ((s1.images.map Prod.fst).foldl
      (fun s h => { s with images := adjust s.images h (lostImage s code l readable h) }) s1) :=
    keeps_foldl _ _ (by intro u a hu; simp +contextual (maxDischargeDepth := 60) [hu]) h1
  generalize (s1.images.map Prod.fst).foldl _ s1 = s2 at h2 ⊢
  have h3 : Keeps s0 ((s2.accounts.map Prod.fst).foldl (fun s a => s.loseAccount code l readable a) s2) :=
    keeps_foldl _ _ (by intro u a hu; simp +contextual (maxDischargeDepth := 60) [hu]) h2
  simp +contextual (maxDischargeDepth := 60) [h3]

@[simp] theorem keeps_State_decideStash {s0 s : State} (hk : Keeps s0 s) (x : Item) (bytes : Nat) : Keeps s0 (State.decideStash s x bytes).1 := by
  unfold State.decideStash
  first
  | simp +contextual (maxDischargeDepth := 60) [hk]; done
  | ((try dsimp only); (repeat' split) <;> simp +contextual (maxDischargeDepth := 60) [*])

@[simp] theorem keeps_State_mismatch {s0 s : State} (hk : Keeps s0 s) (id : Nat) (x : Item) : Keeps s0 (State.mismatch s id x) := by
  unfold State.mismatch
  first
  | simp +contextual (maxDischargeDepth := 60) [hk]; done
  | ((try dsimp only); (repeat' split) <;> simp +contextual (maxDischargeDepth := 60) [*])

@[simp] theorem keeps_stashEffect {s0 s : State} (hk : Keeps s0 s) (id : Nat) (x : Item) : Keeps s0 (stashEffect s id x) := by
  unfold stashEffect
  first
  | simp +contextual (maxDischargeDepth := 60) [hk]; done
  | ((try dsimp only); (repeat' split) <;> simp +contextual (maxDischargeDepth := 60) [*])

@[simp] theorem keeps_recallEffect {s0 s : State} (hk : Keeps s0 s) (id : Nat) (x : Item) : Keeps s0 (recallEffect s id x) := by
  unfold recallEffect
  first
  | simp +contextual (maxDischargeDepth := 60) [hk]; done
  | ((try dsimp only); (repeat' split) <;> simp +contextual (maxDischargeDepth := 60) [*])

@[simp] theorem keeps_State_atEndpoint {s0 s : State} (hk : Keeps s0 s) (ep : Half) (f : State → State) (hf : ∀ t, Keeps s0 t → Keeps s0 (f t)) : Keeps s0 (State.atEndpoint s ep f) := by
  unfold State.atEndpoint
  first
  | simp +contextual (maxDischargeDepth := 60) [hk]; done
  | ((try dsimp only); (repeat' split) <;> simp +contextual (maxDischargeDepth := 60) [*])

@[simp] theorem keeps_State_ringError {s0 s : State} (hk : Keeps s0 s) (n code : Nat) : Keeps s0 (State.ringError s n code) := by
  unfold State.ringError
  first
  | simp +contextual (maxDischargeDepth := 60) [hk]; done
  | ((try dsimp only); (repeat' split) <;> simp +contextual (maxDischargeDepth := 60) [*])

@[simp] theorem keeps_State_badComplement {s0 s : State} (hk : Keeps s0 s) (ep : Half) (n : Nat) : Keeps s0 (State.badComplement s ep n) := by
  unfold State.badComplement
  first
  | simp +contextual (maxDischargeDepth := 60) [hk]; done
  | ((try dsimp only); (repeat' split) <;> simp +contextual (maxDischargeDepth := 60) [*])

@[simp] theorem keeps_State_acceptBell {s0 s : State} (hk : Keeps s0 s) (ep : Half) (n index : Nat) : Keeps s0 (State.acceptBell s ep n index) := by
  unfold State.acceptBell
  first
  | simp +contextual (maxDischargeDepth := 60) [hk]; done
  | ((try dsimp only); (repeat' split) <;> simp +contextual (maxDischargeDepth := 60) [*])

@[simp] theorem keeps_bellEffect {s0 s : State} (hk : Keeps s0 s) (ep : Half) (n w : Nat) : Keeps s0 (bellEffect ep n w s) := by
  unfold bellEffect
  first
  | simp +contextual (maxDischargeDepth := 60) [hk]; done
  | ((try dsimp only); (repeat' split) <;> simp +contextual (maxDischargeDepth := 60) [*])

@[simp] theorem keeps_controlEffect {s0 s : State} (hk : Keeps s0 s) (ep : Half) (n w : Nat) (act : State → State) (hact : ∀ t, Keeps s0 t → Keeps s0 (act t)) : Keeps s0 (controlEffect ep n w act s) := by
  unfold controlEffect
  first
  | simp +contextual (maxDischargeDepth := 60) [hk]; done
  | ((try dsimp only); (repeat' split) <;> simp +contextual (maxDischargeDepth := 60) [*])

@[simp] theorem keeps_State_loadFails {s0 s : State} (hk : Keeps s0 s) (n entry : Nat) : Keeps s0 (State.loadFails s n entry) := by
  unfold State.loadFails
  first
  | simp +contextual (maxDischargeDepth := 60) [hk]; done
  | ((try dsimp only); (repeat' split) <;> simp +contextual (maxDischargeDepth := 60) [*])

@[simp] theorem keeps_loadEffect {s0 s : State} (hk : Keeps s0 s) (n : Nat) : Keeps s0 (loadEffect n s) := by
  unfold loadEffect
  first
  | simp +contextual (maxDischargeDepth := 60) [hk]; done
  | ((try dsimp only); (repeat' split) <;> simp +contextual (maxDischargeDepth := 60) [*])

@[simp] theorem keeps_State_stopRing {s0 s : State} (hk : Keeps s0 s) (n : Nat) : Keeps s0 (State.stopRing s n) := by
  unfold State.stopRing
  first
  | simp +contextual (maxDischargeDepth := 60) [hk]; done
  | ((try dsimp only); (repeat' split) <;> simp +contextual (maxDischargeDepth := 60) [*])

@[simp] theorem keeps_stopOr {s0 s : State} (hk : Keeps s0 s) (ep : Half) (n : Nat) (act : State → State) (hact : ∀ t, Keeps s0 t → Keeps s0 (act t)) : Keeps s0 (stopOr ep n act s) := by
  unfold stopOr
  first
  | simp +contextual (maxDischargeDepth := 60) [hk]; done
  | ((try dsimp only); (repeat' split) <;> simp +contextual (maxDischargeDepth := 60) [*])

@[simp] theorem keeps_State_stopItem {s0 s : State} (hk : Keeps s0 s) (id : Nat) (x : Item) : Keeps s0 (State.stopItem s id x) := by
  unfold State.stopItem
  first
  | simp +contextual (maxDischargeDepth := 60) [hk]; done
  | ((try dsimp only); (repeat' split) <;> simp +contextual (maxDischargeDepth := 60) [*])

@[simp] theorem keeps_State_cancelWhere {s0 s : State} (hk : Keeps s0 s) (p : Nat × Item → Bool) : Keeps s0 (State.cancelWhere s p) := by
  unfold State.cancelWhere
  refine keeps_foldl _ _ ?_ hk
  intro t a ht
  (repeat' split) <;> simp +contextual (maxDischargeDepth := 60) [*]

@[simp] theorem keeps_State_reachStop {s0 s : State} (hk : Keeps s0 s) (id : Nat) (boundary : Bool) : Keeps s0 (State.reachStop s id boundary) := by
  unfold State.reachStop
  first
  | simp +contextual (maxDischargeDepth := 60) [hk]; done
  | ((try dsimp only); (repeat' split) <;> simp +contextual (maxDischargeDepth := 60) [*])

@[simp] theorem keeps_stopEffect {s0 s : State} (hk : Keeps s0 s) (ep : Half) (n : Nat) : Keeps s0 (stopEffect ep n s) := by
  unfold stopEffect
  first
  | simp +contextual (maxDischargeDepth := 60) [hk]; done
  | ((try dsimp only); (repeat' split) <;> simp +contextual (maxDischargeDepth := 60) [*])

@[simp] theorem keeps_drainEffect {s0 s : State} (hk : Keeps s0 s) (ep : Half) (n : Nat) : Keeps s0 (drainEffect ep n s) := by
  unfold drainEffect
  first
  | simp +contextual (maxDischargeDepth := 60) [hk]; done
  | ((try dsimp only); (repeat' split) <;> simp +contextual (maxDischargeDepth := 60) [*])

@[simp] theorem keeps_State_clearAccount {s0 s : State} (hk : Keeps s0 s) (a : Nat) : Keeps s0 (State.clearAccount s a) := by
  unfold State.clearAccount
  first
  | simp +contextual (maxDischargeDepth := 60) [hk]; done
  | ((try dsimp only); (repeat' split) <;> simp +contextual (maxDischargeDepth := 60) [*])

@[simp] theorem keeps_State_idleRings {s0 s : State} (hk : Keeps s0 s) (a : Nat) : Keeps s0 (State.idleRings s a) := by
  unfold State.idleRings
  first
  | simp +contextual (maxDischargeDepth := 60) [hk]; done
  | ((try dsimp only); (repeat' split) <;> simp +contextual (maxDischargeDepth := 60) [*])

@[simp] theorem keeps_State_accountDone {s0 s : State} (hk : Keeps s0 s) (result : Nat) : Keeps s0 (State.accountDone s result) := by
  unfold State.accountDone
  first
  | simp +contextual (maxDischargeDepth := 60) [hk]; done
  | ((try dsimp only); (repeat' split) <;> simp +contextual (maxDischargeDepth := 60) [*])

@[simp] theorem keeps_State_finishRemove {s0 s : State} (hk : Keeps s0 s) (a : Nat) : Keeps s0 (State.finishRemove s a) := by
  unfold State.finishRemove
  first
  | simp +contextual (maxDischargeDepth := 60) [hk]; done
  | ((try dsimp only); (repeat' split) <;> simp +contextual (maxDischargeDepth := 60) [*])

@[simp] theorem keeps_State_deferredReceipt {s0 s : State} (hk : Keeps s0 s) (n : Nat) : Keeps s0 (State.deferredReceipt s n) := by
  unfold State.deferredReceipt
  first
  | simp +contextual (maxDischargeDepth := 60) [hk]; done
  | ((try dsimp only); (repeat' split) <;> simp +contextual (maxDischargeDepth := 60) [*])

@[simp] theorem keeps_State_checkSlip {s0 s : State} (hk : Keeps s0 s) (x : Item) : Keeps s0 (State.checkSlip s x).1 := by
  unfold State.checkSlip
  first
  | simp +contextual (maxDischargeDepth := 60) [hk]; done
  | ((try dsimp only); (repeat' split) <;> simp +contextual (maxDischargeDepth := 60) [*])

@[simp] theorem keeps_State_consumeOne {s0 s : State} (hk : Keeps s0 s) (n : Nat) : Keeps s0 (State.consumeOne s n) := by
  unfold State.consumeOne
  first
  | simp +contextual (maxDischargeDepth := 60) [hk]; done
  | ((try dsimp only); (repeat' split) <;> simp +contextual (maxDischargeDepth := 60) [*])

@[simp] theorem keeps_State_holdFallback {s0 s : State} (hk : Keeps s0 s) (h : Nat) (f : Fmt) : Keeps s0 (State.holdFallback s h f) := by
  unfold State.holdFallback
  first
  | simp +contextual (maxDischargeDepth := 60) [hk]; done
  | ((try dsimp only); (repeat' split) <;> simp +contextual (maxDischargeDepth := 60) [*])

@[simp] theorem keeps_digitalEffect {s0 s : State} (hk : Keeps s0 s) (id : Nat) (x : Item) : Keeps s0 (digitalEffect s id x) := by
  unfold digitalEffect
  first
  | simp +contextual (maxDischargeDepth := 60) [hk]; done
  | ((try dsimp only); (repeat' split) <;> simp +contextual (maxDischargeDepth := 60) [*])

@[simp] theorem keeps_State_convertTile {s0 s : State} (hk : Keeps s0 s) (id : Nat) (x : Item) (tile : Nat) : Keeps s0 (State.convertTile s id x tile) := by
  unfold State.convertTile
  first
  | simp +contextual (maxDischargeDepth := 60) [hk]; done
  | ((try dsimp only); (repeat' split) <;> simp +contextual (maxDischargeDepth := 60) [*])

@[simp] theorem keeps_dtbTileEffect {s0 s : State} (hk : Keeps s0 s) (id tile : Nat) (x : Item) : Keeps s0 (dtbTileEffect s id tile x) := by
  unfold dtbTileEffect
  first
  | simp +contextual (maxDischargeDepth := 60) [hk]; done
  | ((try dsimp only); (repeat' split) <;> simp +contextual (maxDischargeDepth := 60) [*])

@[simp] theorem keeps_State_dropWork {s0 s : State} (hk : Keeps s0 s) (b : Nat) : Keeps s0 (State.dropWork s b) := by
  unfold State.dropWork
  dsimp only
  split
  · have h1 : Keeps s0 ((itemsOn s b).foldl (fun t id => { t with items := adjust t.items id (Item.redoTiles s) }) s) :=
      keeps_foldl _ _ (by intro u a hu; simp +contextual (maxDischargeDepth := 60) [hu]) hk
    generalize (itemsOn s b).foldl _ s = s1 at h1 ⊢
    simp +contextual (maxDischargeDepth := 60) [h1]
  · simp +contextual (maxDischargeDepth := 60) [hk]
  · simp +contextual (maxDischargeDepth := 60) [hk]
  · exact keeps_banks hk _ fun _ _ => by split <;> rfl
  · exact hk

@[simp] theorem keeps_State_strip {s0 s : State} (hk : Keeps s0 s) (b : Nat) (ids : List Nat) : Keeps s0 (State.strip s b ids) := by
  unfold State.strip
  first
  | simp +contextual (maxDischargeDepth := 60) [hk]; done
  | ((try dsimp only); (repeat' split) <;> simp +contextual (maxDischargeDepth := 60) [*])

@[simp] theorem keeps_State_fenceFor {s0 s : State} (hk : Keeps s0 s) (b code : Nat) (ids : List Nat) : Keeps s0 (State.fenceFor s b code ids) := by
  unfold State.fenceFor
  first
  | simp +contextual (maxDischargeDepth := 60) [hk]; done
  | ((try dsimp only); (repeat' split) <;> simp +contextual (maxDischargeDepth := 60) [*])

@[simp] theorem keeps_State_blockCheck {s0 s : State} (hk : Keeps s0 s) (block account item : Nat) (c : BlockCheck) : Keeps s0 (State.blockCheck s block account item c) := by
  unfold State.blockCheck
  first
  | simp +contextual (maxDischargeDepth := 60) [hk]; done
  | ((try dsimp only); (repeat' split) <;> simp +contextual (maxDischargeDepth := 60) [*])

@[simp] theorem keeps_State_endGroup {s0 s : State} (hk : Keeps s0 s) (dtb item row col : Nat) (x : Item) (p : Product) (d : Dtb) : Keeps s0 (State.endGroup s dtb item row col x p d) := by
  unfold State.endGroup
  first
  | simp +contextual (maxDischargeDepth := 60) [hk]; done
  | ((try dsimp only); (repeat' split) <;> simp +contextual (maxDischargeDepth := 60) [*])

@[simp] theorem keeps_tileInstruction {s0 s : State} (hk : Keeps s0 s) (dtb item row col start n group cycle : Nat) (check : BlockCheck) (x : Item) : Keeps s0 (tileInstruction dtb item row col start n group cycle check s x) := by
  unfold tileInstruction
  first
  | simp +contextual (maxDischargeDepth := 60) [hk]; done
  | ((try dsimp only); (repeat' split) <;> simp +contextual (maxDischargeDepth := 60) [*])

@[simp] theorem keeps_State_saveContext {s0 s : State} (hk : Keeps s0 s) (dtb : Nat) : Keeps s0 (State.saveContext s dtb) := by
  unfold State.saveContext
  first
  | simp +contextual (maxDischargeDepth := 60) [hk]; done
  | ((try dsimp only); (repeat' split) <;> simp +contextual (maxDischargeDepth := 60) [*])

@[simp] theorem keeps_restoreEffect {s0 s : State} (hk : Keeps s0 s) (dtb item row col : Nat) (x : Item) : Keeps s0 (restoreEffect dtb item row col s x) := by
  unfold restoreEffect
  first
  | simp +contextual (maxDischargeDepth := 60) [hk]; done
  | ((try dsimp only); (repeat' split) <;> simp +contextual (maxDischargeDepth := 60) [*])

@[simp] theorem keeps_State_countEvaluation {s0 s : State} (hk : Keeps s0 s) (aab phases spilled clipped : Nat) : Keeps s0 (State.countEvaluation s aab phases spilled clipped) := by
  unfold State.countEvaluation
  first
  | simp +contextual (maxDischargeDepth := 60) [hk]; done
  | ((try dsimp only); (repeat' split) <;> simp +contextual (maxDischargeDepth := 60) [*])

@[simp] theorem keeps_State_evaluate {s0 s : State} (hk : Keeps s0 s) (x : Item) (b c : Tensor) (m : Nat) (p : TilePart) : Keeps s0 (State.evaluate s x b c m p).1 := by
  unfold State.evaluate
  first
  | simp +contextual (maxDischargeDepth := 60) [hk]; done
  | ((try dsimp only); (repeat' split) <;> simp +contextual (maxDischargeDepth := 60) [*])

@[simp] theorem keeps_State_occupy {s0 s : State} (hk : Keeps s0 s) (p : TilePart) (f : Fmt) (cycle planes phases : Nat) : Keeps s0 (State.occupy s p f cycle planes phases) := by
  unfold State.occupy
  first
  | simp +contextual (maxDischargeDepth := 60) [hk]; done
  | ((try dsimp only); (repeat' split) <;> simp +contextual (maxDischargeDepth := 60) [*])

@[simp] theorem keeps_State_sequence {s0 s : State} (hk : Keeps s0 s) (aab array cycle : Nat) : Keeps s0 (State.sequence s aab array cycle) := by
  unfold State.sequence
  first
  | simp +contextual (maxDischargeDepth := 60) [hk]; done
  | ((try dsimp only); (repeat' split) <;> simp +contextual (maxDischargeDepth := 60) [*])

theorem keeps_takeCopy {s0 s t : State} (hk : Keeps s0 s) {dn : Nat} {idle : Nat → Bool} (h : s.takeCopy dn idle = some t) : Keeps s0 t := by
  unfold State.takeCopy at h
  dsimp only at h
  split at h
  · rw [← Option.some.inj h]; simp +contextual (maxDischargeDepth := 60) [hk]
  · split at h
    · rw [← Option.some.inj h]; simp +contextual (maxDischargeDepth := 60) [hk]
    · exact absurd h (by simp)

@[simp] theorem keeps_State_evaluateNext {s0 s : State} (hk : Keeps s0 s) (x : Item) (b c : Tensor) (m : Nat) (p : TilePart) : Keeps s0 (State.evaluateNext s x b c m p).1 := by
  unfold State.evaluateNext
  dsimp only
  have h1 : Keeps s0 (if referenceDue (lookup {} (s.aab (deckAab p.deck)).arrays (deckArray p.deck)) then
      s.sequence (deckAab p.deck) (deckArray p.deck) (nextStart (s.aab (deckAab p.deck)) (deckArray p.deck)) else s) := by
    split <;> simp +contextual (maxDischargeDepth := 60) [hk]
  generalize (if referenceDue (lookup {} (s.aab (deckAab p.deck)).arrays (deckArray p.deck)) then
      s.sequence (deckAab p.deck) (deckArray p.deck) (nextStart (s.aab (deckAab p.deck)) (deckArray p.deck)) else s) = s1 at h1 ⊢
  have h2 := keeps_State_setAab h1 (deckAab p.deck) (rampDown (nextStart (s1.aab (deckAab p.deck)) (deckArray p.deck)) (s1.aab (deckAab p.deck)))
  generalize s1.setAab (deckAab p.deck) (rampDown (nextStart (s1.aab (deckAab p.deck)) (deckArray p.deck)) (s1.aab (deckAab p.deck))) = s2 at h2 ⊢
  have h3 := keeps_getD_state h2 (s2.takeCopy p.deck fun _ => true) fun t ht => keeps_takeCopy h2 ht
  simp +contextual (maxDischargeDepth := 60) [h3]

@[simp] theorem keeps_evaluateAll {s0 s : State} (hk : Keeps s0 s) (b c : Tensor) (parts : List TilePart) (x : Item) : Keeps s0 (evaluateAll b c parts s x).1 := by
  unfold evaluateAll
  refine keeps_foldl_fst _ _ ?_ hk
  intro q m hq
  refine keeps_foldl_fst _ _ ?_ hq
  intro r a hr
  split <;> simp +contextual (maxDischargeDepth := 60) [hr]

@[simp] theorem keeps_State_forwardValues {s0 s : State} (hk : Keeps s0 s) (id : Nat) (x : Item) (b c out : Tensor) (homeless : Bool) : Keeps s0 (State.forwardValues s id x b c out homeless) := by
  unfold State.forwardValues
  first
  | simp +contextual (maxDischargeDepth := 60) [hk]; done
  | ((try dsimp only); (repeat' split) <;> simp +contextual (maxDischargeDepth := 60) [*])

@[simp] theorem keeps_forwardEffect {s0 s : State} (hk : Keeps s0 s) (id : Nat) (x : Item) : Keeps s0 (forwardEffect s id x) := by
  unfold forwardEffect
  first
  | simp +contextual (maxDischargeDepth := 60) [hk]; done
  | ((try dsimp only); (repeat' split) <;> simp +contextual (maxDischargeDepth := 60) [*])

@[simp] theorem keeps_outputTile {s0 s : State} (hk : Keeps s0 s) (id tile : Nat) (x : Item) : Keeps s0 (outputTile s id tile x) := by
  unfold outputTile
  first
  | simp +contextual (maxDischargeDepth := 60) [hk]; done
  | ((try dsimp only); (repeat' split) <;> simp +contextual (maxDischargeDepth := 60) [*])

@[simp] theorem keeps_State_evaluateIssued {s0 s : State} (hk : Keeps s0 s) (aab w vector cycle : Nat) (check : BlockCheck) (x : Item) (b c : Tensor) (p : TilePart) : Keeps s0 (State.evaluateIssued s aab w vector cycle check x b c p) := by
  unfold State.evaluateIssued
  dsimp only
  have h1 := keeps_State_setAab hk aab ((s.drained cycle (rampDown cycle (s.aab aab))))
  split
  · exact h1
  · exact h1
  · rename_i t _ ht _
    have h2 := keeps_takeCopy h1 ht
    split
    · simp +contextual (maxDischargeDepth := 60) [h2]
    · simp +contextual (maxDischargeDepth := 60) [h2]

@[simp] theorem keeps_issueEffect {s0 s : State} (hk : Keeps s0 s) (aab w vector cycle : Nat) (check : BlockCheck) : Keeps s0 (issueEffect aab w vector cycle check s) := by
  unfold issueEffect
  first
  | simp +contextual (maxDischargeDepth := 60) [hk]; done
  | ((try dsimp only); (repeat' split) <;> simp +contextual (maxDischargeDepth := 60) [*])

@[simp] theorem keeps_State_debasedFault {s0 s : State} (hk : Keeps s0 s) (dn row pulses : Nat) : Keeps s0 (State.debasedFault s dn row pulses) := by
  unfold State.debasedFault
  first
  | simp +contextual (maxDischargeDepth := 60) [hk]; done
  | ((try dsimp only); (repeat' split) <;> simp +contextual (maxDischargeDepth := 60) [*])

@[simp] theorem keeps_State_wearRow {s0 s : State} (hk : Keeps s0 s) (dn row : Nat) (w w' : Wear) : Keeps s0 (State.wearRow s dn row w w') := by
  unfold State.wearRow
  first
  | simp +contextual (maxDischargeDepth := 60) [hk]; done
  | ((try dsimp only); (repeat' split) <;> simp +contextual (maxDischargeDepth := 60) [*])

@[simp] theorem keeps_State_programCodes {s0 s : State} (hk : Keeps s0 s) (dn row n : Nat) (f : Fmt) (codes : List (Nat × Int)) (spend : Bool) : Keeps s0 (State.programCodes s dn row n f codes spend) := by
  unfold State.programCodes
  first
  | simp +contextual (maxDischargeDepth := 60) [hk]; done
  | ((try dsimp only); (repeat' split) <;> simp +contextual (maxDischargeDepth := 60) [*])

@[simp] theorem keeps_State_newStruck {s0 s : State} (hk : Keeps s0 s) (dn : Nat) : Keeps s0 (State.newStruck s dn) := by
  unfold State.newStruck
  first
  | simp +contextual (maxDischargeDepth := 60) [hk]; done
  | ((try dsimp only); (repeat' split) <;> simp +contextual (maxDischargeDepth := 60) [*])

@[simp] theorem keeps_State_applyMeasured {s0 s : State} (hk : Keeps s0 s) (dn : Nat) : Keeps s0 (State.applyMeasured s dn) := by
  unfold State.applyMeasured
  first
  | simp +contextual (maxDischargeDepth := 60) [hk]; done
  | ((try dsimp only); (repeat' split) <;> simp +contextual (maxDischargeDepth := 60) [*])

@[simp] theorem keeps_State_bindDeck {s0 s : State} (hk : Keeps s0 s) (h : Nat) (t : Tensor) (tile : Nat) (p : TilePart) : Keeps s0 (State.bindDeck s h t tile p) := by
  unfold State.bindDeck
  first
  | simp +contextual (maxDischargeDepth := 60) [hk]; done
  | ((try dsimp only); (repeat' split) <;> simp +contextual (maxDischargeDepth := 60) [*])

theorem keeps_placeRows {s0 : State} (hd : Nat) (t : Tensor) (tile c0 cs n : Nat) : ∀ {first rows : Nat} {s : State} (_ : Keeps s0 s)
    {r : State × List TilePart} (_ : placeRows hd t tile c0 cs n first rows s = some r), Keeps s0 r.1 := by
  induction n with
  | zero =>
    intro first rows s h r hr
    rw [placeRows] at hr
    split at hr
    · rw [← Option.some.inj hr]; exact h
    · exact absurd hr (by simp)
  | succ n ih =>
    intro first rows s h r hr
    rw [placeRows] at hr
    split at hr
    · rw [← Option.some.inj hr]; exact h
    · split at hr
      · exact absurd hr (by simp)
      · dsimp only at hr
        split at hr
        · exact absurd hr (by simp)
        · rename_i q hq
          rw [← Option.some.inj hr]
          have hq2 := ih (keeps_State_bindDeck (keeps_State_tick h) _ _ _ _) hq
          exact hq2

theorem keeps_getD {s0 s : State} (hk : Keeps s0 s) (o : Option (State × List TilePart)) (h : ∀ r, o = some r → Keeps s0 r.1) :
    Keeps s0 (o.getD (s, [])).1 := by
  cases o with
  | none => exact hk
  | some r => exact h r rfl

@[simp] theorem keeps_State_placeTile {s0 s : State} (hk : Keeps s0 s) (h : Nat) (t : Tensor) (tile : Nat) : Keeps s0 (State.placeTile s h t tile).1 := by
  unfold State.placeTile
  exact keeps_getD hk _ fun r hr => keeps_placeRows _ _ _ _ _ _ hk hr

@[simp] theorem keeps_State_releaseDeck {s0 s : State} (hk : Keeps s0 s) (dn : Nat) : Keeps s0 (State.releaseDeck s dn) := by
  unfold State.releaseDeck
  first
  | simp +contextual (maxDischargeDepth := 60) [hk]; done
  | ((try dsimp only); (repeat' split) <;> simp +contextual (maxDischargeDepth := 60) [*])

@[simp] theorem keeps_State_placeWeight {s0 s : State} (hk : Keeps s0 s) (h : Nat) (t : Tensor) : Keeps s0 (State.placeWeight s h t).1 := by
  unfold State.placeWeight
  dsimp only
  refine keeps_foldl_fst _ _ ?_ ?_
  · intro q a hq
    split <;> simp +contextual (maxDischargeDepth := 60) [hq]
  · refine keeps_foldl_fst _ _ ?_ ?_
    · intro q a hq
      unfold attachOne
      simp +contextual (maxDischargeDepth := 60) [hq]
    · exact keeps_foldl _ _ (by intro t a ht; simp +contextual (maxDischargeDepth := 60) [ht]) hk

@[simp] theorem keeps_State_readTj {s0 s : State} (hk : Keeps s0 s) (dn : Nat) (tj : Int) : Keeps s0 (State.readTj s dn tj) := by
  unfold State.readTj
  first
  | simp +contextual (maxDischargeDepth := 60) [hk]; done
  | ((try dsimp only); (repeat' split) <;> simp +contextual (maxDischargeDepth := 60) [*])

@[simp] theorem keeps_State_driftFault {s0 s : State} (hk : Keeps s0 s) (dn : Nat) (drift : Nat × Nat) : Keeps s0 (State.driftFault s dn drift) := by
  unfold State.driftFault
  first
  | simp +contextual (maxDischargeDepth := 60) [hk]; done
  | ((try dsimp only); (repeat' split) <;> simp +contextual (maxDischargeDepth := 60) [*])

@[simp] theorem keeps_State_assayDeck {s0 s : State} (hk : Keeps s0 s) (dn t : Nat) (tj : Int) : Keeps s0 (State.assayDeck s dn t tj) := by
  unfold State.assayDeck
  first
  | simp +contextual (maxDischargeDepth := 60) [hk]; done
  | ((try dsimp only); (repeat' split) <;> simp +contextual (maxDischargeDepth := 60) [*])

@[simp] theorem keeps_State_zeroDeck {s0 s : State} (hk : Keeps s0 s) (dn t : Nat) : Keeps s0 (State.zeroDeck s dn t) := by
  unfold State.zeroDeck
  first
  | simp +contextual (maxDischargeDepth := 60) [hk]; done
  | ((try dsimp only); (repeat' split) <;> simp +contextual (maxDischargeDepth := 60) [*])

@[simp] theorem keeps_State_moveTile {s0 s : State} (hk : Keeps s0 s) (dn new : Nat) (h tile : Nat) (p : TilePart) (t : Tensor) : Keeps s0 (State.moveTile s dn new h tile p t) := by
  unfold State.moveTile
  first
  | simp +contextual (maxDischargeDepth := 60) [hk]; done
  | ((try dsimp only); (repeat' split) <;> simp +contextual (maxDischargeDepth := 60) [*])

@[simp] theorem keeps_State_writeWear {s0 s : State} (hk : Keeps s0 s) (t : Nat) : Keeps s0 (State.writeWear s t) := by
  unfold State.writeWear
  first
  | simp +contextual (maxDischargeDepth := 60) [hk]; done
  | ((try dsimp only); (repeat' split) <;> simp +contextual (maxDischargeDepth := 60) [*])

@[simp] theorem keeps_settleRowStep {s0 s : State} (hk : Keeps s0 s) (t m : Tensor) (p : TilePart) (n : Nat) (k : Nat) : Keeps s0 (settleRowStep t m p n s k) := by
  unfold settleRowStep
  first
  | simp +contextual (maxDischargeDepth := 60) [hk]; done
  | ((try dsimp only); (repeat' split) <;> simp +contextual (maxDischargeDepth := 60) [*])

@[simp] theorem keeps_State_settlePart {s0 s : State} (hk : Keeps s0 s) (h : Nat) (m : Tensor) (new : Table F32) (p : TilePart) : Keeps s0 (State.settlePart s h m new p) := by
  unfold State.settlePart
  first
  | simp +contextual (maxDischargeDepth := 60) [hk]; done
  | ((try dsimp only); (repeat' split) <;> simp +contextual (maxDischargeDepth := 60) [*])

@[simp] theorem keeps_State_deferTile {s0 s : State} (hk : Keeps s0 s) (t m : Tensor) (tile : Nat) : Keeps s0 (State.deferTile s t m tile) := by
  unfold State.deferTile
  first
  | simp +contextual (maxDischargeDepth := 60) [hk]; done
  | ((try dsimp only); (repeat' split) <;> simp +contextual (maxDischargeDepth := 60) [*])

theorem keeps_settleParts {s0 : State} (h : Nat) (m : Tensor) (new : Table F32) (ps : List TilePart) {q : State × List Nat} (hq : Keeps s0 q.1) :
    Keeps s0 (ps.foldl (fun r p => (r.1.settlePart h m new p, insertNat r.2 p.deck)) q).1 :=
  keeps_foldl_fst _ _ (fun r p hr => by simp +contextual (maxDischargeDepth := 60) [hr]) hq

theorem keeps_rehome {s0 : State} (hd : Nat) (q : State × Tensor) (tile : Nat) (h : Keeps s0 q.1) : Keeps s0 (rehome hd q tile).1 := by
  unfold rehome
  split
  · exact h
  · dsimp only
    split
    · exact h
    · exact keeps_foldl _ _ (by intro t a ht; simp +contextual (maxDischargeDepth := 60) [ht]) (by simp +contextual (maxDischargeDepth := 60) [h])

@[simp] theorem keeps_settleTile {s0 s : State} (hk : Keeps s0 s) (h : Nat) (t m : Tensor) (new : Table F32) (settled : List Nat) (tile : Nat) : Keeps s0 (settleTile s h t m new settled tile).1 := by
  unfold settleTile
  dsimp only
  split
  · split
    · simp +contextual (maxDischargeDepth := 60) [hk]
    · exact hk
  · exact keeps_settleParts _ _ _ _ (keeps_State_setTensor (keeps_rehome _ _ _ hk) _ _)

@[simp] theorem keeps_State_settleRest {s0 s : State} (hk : Keeps s0 s) (h : Nat) (t m : Tensor) (new : Table F32) : Keeps s0 (State.settleRest s h t m new) := by
  unfold State.settleRest
  first
  | simp +contextual (maxDischargeDepth := 60) [hk]; done
  | ((try dsimp only); (repeat' split) <;> simp +contextual (maxDischargeDepth := 60) [*])

@[simp] theorem keeps_State_refit {s0 s : State} (hk : Keeps s0 s) (id : Nat) (x : Item) (t m : Tensor) : Keeps s0 (State.refit s id x t m) := by
  unfold State.refit
  first
  | simp +contextual (maxDischargeDepth := 60) [hk]; done
  | ((try dsimp only); (repeat' split) <;> simp +contextual (maxDischargeDepth := 60) [*])

@[simp] theorem keeps_State_settleEnd {s0 s : State} (hk : Keeps s0 s) (id h : Nat) (x : Item) (m : Tensor) : Keeps s0 (State.settleEnd s id h x m) := by
  unfold State.settleEnd
  first
  | simp +contextual (maxDischargeDepth := 60) [hk]; done
  | ((try dsimp only); (repeat' split) <;> simp +contextual (maxDischargeDepth := 60) [*])

@[simp] theorem keeps_settleEffect {s0 s : State} (hk : Keeps s0 s) (id : Nat) (x : Item) : Keeps s0 (settleEffect s id x) := by
  unfold settleEffect
  first
  | simp +contextual (maxDischargeDepth := 60) [hk]; done
  | ((try dsimp only); (repeat' split) <;> simp +contextual (maxDischargeDepth := 60) [*])

@[simp] theorem keeps_State_afterConversion {s0 s go : State} (hk : Keeps s0 s) (hg : Keeps s0 go) (id : Nat) (y : Item) :
    Keeps s0 (s.afterConversion id y go) := by
  unfold State.afterConversion
  split <;> simp +contextual (maxDischargeDepth := 60) [hk, hg]

@[simp] theorem keeps_copyConverted {s0 s : State} (hk : Keeps s0 s) (id : Nat) (x : Item) (a b : Tensor) : Keeps s0 (copyConverted s id x a b) := by
  unfold copyConverted
  first
  | simp +contextual (maxDischargeDepth := 60) [hk]; done
  | ((try dsimp only); (repeat' split) <;> simp +contextual (maxDischargeDepth := 60) [*])

@[simp] theorem keeps_copyEffect {s0 s : State} (hk : Keeps s0 s) (id : Nat) (x : Item) : Keeps s0 (copyEffect s id x) := by
  unfold copyEffect
  first
  | simp +contextual (maxDischargeDepth := 60) [hk]; done
  | ((try dsimp only); (repeat' split) <;> simp +contextual (maxDischargeDepth := 60) [*])

@[simp] theorem keeps_loadTensorEffect {s0 s : State} (hk : Keeps s0 s) (id : Nat) (x : Item) : Keeps s0 (loadTensorEffect s id x) := by
  unfold loadTensorEffect
  first
  | simp +contextual (maxDischargeDepth := 60) [hk]; done
  | ((try dsimp only); (repeat' split) <;> simp +contextual (maxDischargeDepth := 60) [*])

@[simp] theorem keeps_storeConverted {s0 s : State} (hk : Keeps s0 s) (id : Nat) (x : Item) (b : Tensor) (f : Fmt) : Keeps s0 (storeConverted s id x b f) := by
  unfold storeConverted
  first
  | simp +contextual (maxDischargeDepth := 60) [hk]; done
  | ((try dsimp only); (repeat' split) <;> simp +contextual (maxDischargeDepth := 60) [*])

@[simp] theorem keeps_storeEffect {s0 s : State} (hk : Keeps s0 s) (id : Nat) (x : Item) : Keeps s0 (storeEffect s id x) := by
  unfold storeEffect
  first
  | simp +contextual (maxDischargeDepth := 60) [hk]; done
  | ((try dsimp only); (repeat' split) <;> simp +contextual (maxDischargeDepth := 60) [*])

@[simp] theorem keeps_declareEffect {s0 s : State} (hk : Keeps s0 s) (id : Nat) (x : Item) : Keeps s0 (declareEffect s id x) := by
  unfold declareEffect
  first
  | simp +contextual (maxDischargeDepth := 60) [hk]; done
  | ((try dsimp only); (repeat' split) <;> simp +contextual (maxDischargeDepth := 60) [*])

@[simp] theorem keeps_State_removeObject {s0 s : State} (hk : Keeps s0 s) (h : Nat) : Keeps s0 (State.removeObject s h) := by
  unfold State.removeObject
  first
  | simp +contextual (maxDischargeDepth := 60) [hk]; done
  | ((try dsimp only); (repeat' split) <;> simp +contextual (maxDischargeDepth := 60) [*])

@[simp] theorem keeps_State_retiring {s0 s : State} (hk : Keeps s0 s) (h : Nat) : Keeps s0 (State.retiring s h) := by
  unfold State.retiring
  first
  | simp +contextual (maxDischargeDepth := 60) [hk]; done
  | ((try dsimp only); (repeat' split) <;> simp +contextual (maxDischargeDepth := 60) [*])

@[simp] theorem keeps_retireEffect {s0 s : State} (hk : Keeps s0 s) (id : Nat) (x : Item) : Keeps s0 (retireEffect s id x) := by
  unfold retireEffect
  first
  | simp +contextual (maxDischargeDepth := 60) [hk]; done
  | ((try dsimp only); (repeat' split) <;> simp +contextual (maxDischargeDepth := 60) [*])

@[simp] theorem keeps_loadImageEffect {s0 s : State} (hk : Keeps s0 s) (id : Nat) (x : Item) : Keeps s0 (loadImageEffect s id x) := by
  unfold loadImageEffect
  first
  | simp +contextual (maxDischargeDepth := 60) [hk]; done
  | ((try dsimp only); (repeat' split) <;> simp +contextual (maxDischargeDepth := 60) [*])

@[simp] theorem keeps_updateEffect {s0 s : State} (hk : Keeps s0 s) (id : Nat) (x : Item) (digest : Nat) (g : Image) : Keeps s0 (updateEffect s id x digest g) := by
  unfold updateEffect
  first
  | simp +contextual (maxDischargeDepth := 60) [hk]; done
  | ((try dsimp only); (repeat' split) <;> simp +contextual (maxDischargeDepth := 60) [*])

@[simp] theorem keeps_plainRunEffect {s0 s : State} (hk : Keeps s0 s) (id : Nat) (x : Item) (digest : Nat) (g : Image) : Keeps s0 (plainRunEffect s id x digest g) := by
  unfold plainRunEffect
  first
  | simp +contextual (maxDischargeDepth := 60) [hk]; done
  | ((try dsimp only); (repeat' split) <;> simp +contextual (maxDischargeDepth := 60) [*])

@[simp] theorem keeps_runEffect {s0 s : State} (hk : Keeps s0 s) (id : Nat) (x : Item) : Keeps s0 (runEffect s id x) := by
  unfold runEffect
  first
  | simp +contextual (maxDischargeDepth := 60) [hk]; done
  | ((try dsimp only); (repeat' split) <;> simp +contextual (maxDischargeDepth := 60) [*])

@[simp] theorem keeps_State_applySignal {s0 s : State} (hk : Keeps s0 s) (h n source item : Nat) : Keeps s0 (State.applySignal s h n source item) := by
  unfold State.applySignal
  first
  | simp +contextual (maxDischargeDepth := 60) [hk]; done
  | ((try dsimp only); (repeat' split) <;> simp +contextual (maxDischargeDepth := 60) [*])

@[simp] theorem keeps_signalEffect {s0 s : State} (hk : Keeps s0 s) (id : Nat) (x : Item) : Keeps s0 (signalEffect s id x) := by
  unfold signalEffect
  first
  | simp +contextual (maxDischargeDepth := 60) [hk]; done
  | ((try dsimp only); (repeat' split) <;> simp +contextual (maxDischargeDepth := 60) [*])

@[simp] theorem keeps_takeEffect {s0 s : State} (hk : Keeps s0 s) (id : Nat) (x : Item) : Keeps s0 (takeEffect s id x) := by
  unfold takeEffect
  first
  | simp +contextual (maxDischargeDepth := 60) [hk]; done
  | ((try dsimp only); (repeat' split) <;> simp +contextual (maxDischargeDepth := 60) [*])

@[simp] theorem keeps_State_issueWait {s0 s : State} (hk : Keeps s0 s) (id : Nat) (x : Item) (h m : Nat) (waitSlip : Bool) : Keeps s0 (State.issueWait s id x h m waitSlip) := by
  unfold State.issueWait
  first
  | simp +contextual (maxDischargeDepth := 60) [hk]; done
  | ((try dsimp only); (repeat' split) <;> simp +contextual (maxDischargeDepth := 60) [*])

@[simp] theorem keeps_waitIssueEffect {s0 s : State} (hk : Keeps s0 s) (id : Nat) (x : Item) : Keeps s0 (waitIssueEffect s id x) := by
  unfold waitIssueEffect
  first
  | simp +contextual (maxDischargeDepth := 60) [hk]; done
  | ((try dsimp only); (repeat' split) <;> simp +contextual (maxDischargeDepth := 60) [*])

@[simp] theorem keeps_State_finishWait {s0 s : State} (hk : Keeps s0 s) (id : Nat) : Keeps s0 (State.finishWait s id) := by
  unfold State.finishWait
  first
  | simp +contextual (maxDischargeDepth := 60) [hk]; done
  | ((try dsimp only); (repeat' split) <;> simp +contextual (maxDischargeDepth := 60) [*])

@[simp] theorem keeps_waitEffect {s0 s : State} (hk : Keeps s0 s) (id : Nat) (x : Item) : Keeps s0 (waitEffect s id x) := by
  unfold waitEffect
  first
  | simp +contextual (maxDischargeDepth := 60) [hk]; done
  | ((try dsimp only); (repeat' split) <;> simp +contextual (maxDischargeDepth := 60) [*])

@[simp] theorem keeps_State_setThread {s0 s : State} (hk : Keeps s0 s) (teller n : Nat) (t : Thread) : Keeps s0 (State.setThread s teller n t) := by
  unfold State.setThread
  first
  | simp +contextual (maxDischargeDepth := 60) [hk]; done
  | ((try dsimp only); (repeat' split) <;> simp +contextual (maxDischargeDepth := 60) [*])

@[simp] theorem keeps_State_landUnit {s0 s : State} (hk : Keeps s0 s) (id unit : Nat) (x : Item) : Keeps s0 (State.landUnit s id unit x) := by
  unfold State.landUnit
  first
  | simp +contextual (maxDischargeDepth := 60) [hk]; done
  | ((try dsimp only); (repeat' split) <;> simp +contextual (maxDischargeDepth := 60) [*])

@[simp] theorem keeps_State_applyOp {s0 s : State} (hk : Keeps s0 s) (h : Nat) (op : TallyOp) : Keeps s0 (State.applyOp s h op) := by
  unfold State.applyOp
  first
  | simp +contextual (maxDischargeDepth := 60) [hk]; done
  | ((try dsimp only); (repeat' split) <;> simp +contextual (maxDischargeDepth := 60) [*])

@[simp] theorem keeps_State_queueAside {s0 s : State} (hk : Keeps s0 s) (h : Nat) : Keeps s0 (State.queueAside s h) := by
  unfold State.queueAside
  first
  | simp +contextual (maxDischargeDepth := 60) [hk]; done
  | ((try dsimp only); (repeat' split) <;> simp +contextual (maxDischargeDepth := 60) [*])

@[simp] theorem keeps_State_queueBack {s0 s : State} (hk : Keeps s0 s) (h : Nat) (queue : List Waiter) : Keeps s0 (State.queueBack s h queue) := by
  unfold State.queueBack
  first
  | simp +contextual (maxDischargeDepth := 60) [hk]; done
  | ((try dsimp only); (repeat' split) <;> simp +contextual (maxDischargeDepth := 60) [*])

@[simp] theorem keeps_State_settleNow {s0 s : State} (hk : Keeps s0 s) (h : Nat) : Keeps s0 (State.settleNow s h) := by
  unfold State.settleNow
  first
  | simp +contextual (maxDischargeDepth := 60) [hk]; done
  | ((try dsimp only); (repeat' split) <;> simp +contextual (maxDischargeDepth := 60) [*])

@[simp] theorem keeps_State_cycleOps {s0 s : State} (hk : Keeps s0 s) (h : Nat) (ops : List TallyOp) : Keeps s0 (State.cycleOps s h ops) := by
  unfold State.cycleOps
  first
  | simp +contextual (maxDischargeDepth := 60) [hk]; done
  | ((try dsimp only); (repeat' split) <;> simp +contextual (maxDischargeDepth := 60) [*])

@[simp] theorem keeps_State_relocate {s0 s : State} (hk : Keeps s0 s) (h : Nat) (t : Tally) (region : Nat) : Keeps s0 (State.relocate s h t region) := by
  unfold State.relocate
  first
  | simp +contextual (maxDischargeDepth := 60) [hk]; done
  | ((try dsimp only); (repeat' split) <;> simp +contextual (maxDischargeDepth := 60) [*])

@[simp] theorem keeps_State_moveChecked {s0 s : State} (hk : Keeps s0 s) (h : Nat) (t : Tally) (region : Nat) : Keeps s0 (State.moveChecked s h t region) := by
  unfold State.moveChecked
  first
  | simp +contextual (maxDischargeDepth := 60) [hk]; done
  | ((try dsimp only); (repeat' split) <;> simp +contextual (maxDischargeDepth := 60) [*])

@[simp] theorem keeps_State_readRecord {s0 s : State} (hk : Keeps s0 s) (account : Nat) : Keeps s0 (State.readRecord s account) := by
  unfold State.readRecord
  first
  | simp +contextual (maxDischargeDepth := 60) [hk]; done
  | ((try dsimp only); (repeat' split) <;> simp +contextual (maxDischargeDepth := 60) [*])

@[simp] theorem keeps_stageEffect {s0 s : State} (hk : Keeps s0 s) (id : Nat) (x : Item) : Keeps s0 (stageEffect s id x) := by
  unfold stageEffect
  first
  | simp +contextual (maxDischargeDepth := 60) [hk]; done
  | ((try dsimp only); (repeat' split) <;> simp +contextual (maxDischargeDepth := 60) [*])

@[simp] theorem keeps_commitEffect {s0 s : State} (hk : Keeps s0 s) (id : Nat) (x : Item) : Keeps s0 (commitEffect s id x) := by
  unfold commitEffect
  first
  | simp +contextual (maxDischargeDepth := 60) [hk]; done
  | ((try dsimp only); (repeat' split) <;> simp +contextual (maxDischargeDepth := 60) [*])

@[simp] theorem keeps_fenceEffect {s0 s : State} (hk : Keeps s0 s) (id : Nat) (x : Item) : Keeps s0 (fenceEffect s id x) := by
  unfold fenceEffect
  first
  | simp +contextual (maxDischargeDepth := 60) [hk]; done
  | ((try dsimp only); (repeat' split) <;> simp +contextual (maxDischargeDepth := 60) [*])

@[simp] theorem keeps_State_progress {s0 s : State} (hk : Keeps s0 s) (id : Nat) : Keeps s0 (State.progress s id) := by
  unfold State.progress
  first
  | simp +contextual (maxDischargeDepth := 60) [hk]; done
  | ((try dsimp only); (repeat' split) <;> simp +contextual (maxDischargeDepth := 60) [*])

@[simp] theorem keeps_State_sendOffer {s0 s : State} (hk : Keeps s0 s) (id peer : Nat) (ceiling : Dy) : Keeps s0 (State.sendOffer s id peer ceiling) := by
  unfold State.sendOffer
  first
  | simp +contextual (maxDischargeDepth := 60) [hk]; done
  | ((try dsimp only); (repeat' split) <;> simp +contextual (maxDischargeDepth := 60) [*])

@[simp] theorem keeps_State_clearMismatch {s0 s : State} (hk : Keeps s0 s) (h : Half) (ticket account item : Nat) : Keeps s0 (State.clearMismatch s h ticket account item) := by
  unfold State.clearMismatch
  first
  | simp +contextual (maxDischargeDepth := 60) [hk]; done
  | ((try dsimp only); (repeat' split) <;> simp +contextual (maxDischargeDepth := 60) [*])

@[simp] theorem keeps_State_afterRefusal {s0 s : State} (hk : Keeps s0 s) (code : Nat) (f : VfHeader) : Keeps s0 (State.afterRefusal s code f) := by
  unfold State.afterRefusal
  first
  | simp +contextual (maxDischargeDepth := 60) [hk]; done
  | ((try dsimp only); (repeat' split) <;> simp +contextual (maxDischargeDepth := 60) [*])

@[simp] theorem keeps_State_grantSender {s0 s : State} (hk : Keeps s0 s) (f : VfFrame) : Keeps s0 (State.grantSender s f) := by
  unfold State.grantSender
  first
  | simp +contextual (maxDischargeDepth := 60) [hk]; done
  | ((try dsimp only); (repeat' split) <;> simp +contextual (maxDischargeDepth := 60) [*])

@[simp] theorem keeps_State_answerOffer {s0 s : State} (hk : Keeps s0 s) (h : Half) (f : VfFrame) : Keeps s0 (State.answerOffer s h f).1 := by
  unfold State.answerOffer
  first
  | simp +contextual (maxDischargeDepth := 60) [hk]; done
  | ((try dsimp only); (repeat' split) <;> simp +contextual (maxDischargeDepth := 60) [*])

@[simp] theorem keeps_State_deliverOffer {s0 s : State} (hk : Keeps s0 s) (port : Nat) (f : VfFrame) : Keeps s0 (State.deliverOffer s port f) := by
  unfold State.deliverOffer
  first
  | simp +contextual (maxDischargeDepth := 60) [hk]; done
  | ((try dsimp only); (repeat' split) <;> simp +contextual (maxDischargeDepth := 60) [*])

@[simp] theorem keeps_State_answerHeld {s0 s : State} (hk : Keeps s0 s)  : Keeps s0 (State.answerHeld s) := by
  unfold State.answerHeld
  first
  | simp +contextual (maxDischargeDepth := 60) [hk]; done
  | ((try dsimp only); (repeat' split) <;> simp +contextual (maxDischargeDepth := 60) [*])

@[simp] theorem keeps_State_openTicket {s0 s : State} (hk : Keeps s0 s) (id : Nat) (x : Item) (half : Half) : Keeps s0 (State.openTicket s id x half) := by
  unfold State.openTicket
  first
  | simp +contextual (maxDischargeDepth := 60) [hk]; done
  | ((try dsimp only); (repeat' split) <;> simp +contextual (maxDischargeDepth := 60) [*])

@[simp] theorem keeps_State_writeResult {s0 s : State} (hk : Keeps s0 s) (id : Nat) (x : Item) (t : Ticket) : Keeps s0 (State.writeResult s id x t) := by
  unfold State.writeResult
  first
  | simp +contextual (maxDischargeDepth := 60) [hk]; done
  | ((try dsimp only); (repeat' split) <;> simp +contextual (maxDischargeDepth := 60) [*])

@[simp] theorem keeps_State_countFinished {s0 s : State} (hk : Keeps s0 s) (id : Nat) : Keeps s0 (State.countFinished s id) := by
  unfold State.countFinished
  first
  | simp +contextual (maxDischargeDepth := 60) [hk]; done
  | ((try dsimp only); (repeat' split) <;> simp +contextual (maxDischargeDepth := 60) [*])

@[simp] theorem keeps_State_finishTicket {s0 s : State} (hk : Keeps s0 s) (id : Nat) (x : Item) : Keeps s0 (State.finishTicket s id x) := by
  unfold State.finishTicket
  first
  | simp +contextual (maxDischargeDepth := 60) [hk]; done
  | ((try dsimp only); (repeat' split) <;> simp +contextual (maxDischargeDepth := 60) [*])

@[simp] theorem keeps_State_frameProgress {s0 s : State} (hk : Keeps s0 s) (f : VfFrame) : Keeps s0 (State.frameProgress s f) := by
  unfold State.frameProgress
  first
  | simp +contextual (maxDischargeDepth := 60) [hk]; done
  | ((try dsimp only); (repeat' split) <;> simp +contextual (maxDischargeDepth := 60) [*])

@[simp] theorem keeps_State_sendContribution {s0 s : State} (hk : Keeps s0 s) (id : Nat) (t : Ticket) (x : Tensor) (peer : Nat) : Keeps s0 (State.sendContribution s id t x peer) := by
  unfold State.sendContribution
  first
  | simp +contextual (maxDischargeDepth := 60) [hk]; done
  | ((try dsimp only); (repeat' split) <;> simp +contextual (maxDischargeDepth := 60) [*])

@[simp] theorem keeps_contributeEffect {s0 s : State} (hk : Keeps s0 s) (id : Nat) (x : Item) (t : Ticket) (b : Tensor) : Keeps s0 (contributeEffect s id x t b) := by
  unfold contributeEffect
  first
  | simp +contextual (maxDischargeDepth := 60) [hk]; done
  | ((try dsimp only); (repeat' split) <;> simp +contextual (maxDischargeDepth := 60) [*])

@[simp] theorem keeps_State_addOwn {s0 s : State} (hk : Keeps s0 s) (id : Nat) (x : Item) (t : Ticket) (b : Tensor) : Keeps s0 (State.addOwn s id x t b) := by
  unfold State.addOwn
  first
  | simp +contextual (maxDischargeDepth := 60) [hk]; done
  | ((try dsimp only); (repeat' split) <;> simp +contextual (maxDischargeDepth := 60) [*])

@[simp] theorem keeps_ownerEffect {s0 s : State} (hk : Keeps s0 s) (id : Nat) (x : Item) (t : Ticket) (b : Tensor) : Keeps s0 (ownerEffect s id x t b) := by
  unfold ownerEffect
  first
  | simp +contextual (maxDischargeDepth := 60) [hk]; done
  | ((try dsimp only); (repeat' split) <;> simp +contextual (maxDischargeDepth := 60) [*])

theorem keeps_withContribution {s0 s : State} (hk : Keeps s0 s) (id : Nat) (x : Item) (f : Ticket → Tensor → State)
    (hf : ∀ t b, Keeps s0 (f t b)) : Keeps s0 (withContribution s id x f) := by
  unfold withContribution
  (repeat' split) <;> simp +contextual (maxDischargeDepth := 60) [hk, hf]

@[simp] theorem keeps_ownerReduceEffect {s0 s : State} (hk : Keeps s0 s) (id : Nat) (x : Item) : Keeps s0 (ownerReduceEffect s id x) := by
  unfold ownerReduceEffect
  refine keeps_withContribution hk _ _ _ fun t b => ?_
  (try dsimp only); (repeat' split) <;> simp +contextual (maxDischargeDepth := 60) [hk]

@[simp] theorem keeps_State_hop {s0 s : State} (hk : Keeps s0 s) (id : Nat) (x : Tensor) (payload : Option (List Byte)) (first count dust : Nat) (last : Bool) : Keeps s0 (State.hop s id x payload first count dust last) := by
  unfold State.hop
  first
  | simp +contextual (maxDischargeDepth := 60) [hk]; done
  | ((try dsimp only); (repeat' split) <;> simp +contextual (maxDischargeDepth := 60) [*])

@[simp] theorem keeps_State_startRing {s0 s : State} (hk : Keeps s0 s) (id : Nat) (x : Tensor) : Keeps s0 (State.startRing s id x) := by
  unfold State.startRing
  first
  | simp +contextual (maxDischargeDepth := 60) [hk]; done
  | ((try dsimp only); (repeat' split) <;> simp +contextual (maxDischargeDepth := 60) [*])

@[simp] theorem keeps_State_drainInbox {s0 s : State} (hk : Keeps s0 s) (id : Nat) (x : Tensor) (t : Ticket) : Keeps s0 (State.drainInbox s id x t) := by
  unfold State.drainInbox
  first
  | simp +contextual (maxDischargeDepth := 60) [hk]; done
  | ((try dsimp only); (repeat' split) <;> simp +contextual (maxDischargeDepth := 60) [*])

@[simp] theorem keeps_State_ringOutcome {s0 s : State} (hk : Keeps s0 s) (id : Nat) : Keeps s0 (State.ringOutcome s id) := by
  unfold State.ringOutcome
  first
  | simp +contextual (maxDischargeDepth := 60) [hk]; done
  | ((try dsimp only); (repeat' split) <;> simp +contextual (maxDischargeDepth := 60) [*])

@[simp] theorem keeps_ringReduceEffect {s0 s : State} (hk : Keeps s0 s) (id : Nat) (x : Item) : Keeps s0 (ringReduceEffect s id x) := by
  unfold ringReduceEffect
  refine keeps_withContribution hk _ _ _ fun t b => ?_
  dsimp only
  split
  · exact hk
  · have h1 : Keeps s0 (s.setItem id (x.saw (nonFinite b))) := by simp +contextual (maxDischargeDepth := 60) [hk]
    generalize s.setItem id (x.saw (nonFinite b)) = s1 at h1
    (repeat' split) <;> simp +contextual (maxDischargeDepth := 60) [*]

@[simp] theorem keeps_State_sendImage {s0 s : State} (hk : Keeps s0 s) (id : Nat) (t : Ticket) (bytes : List Byte) (peer : Nat) : Keeps s0 (State.sendImage s id t bytes peer) := by
  unfold State.sendImage
  first
  | simp +contextual (maxDischargeDepth := 60) [hk]; done
  | ((try dsimp only); (repeat' split) <;> simp +contextual (maxDischargeDepth := 60) [*])

@[simp] theorem keeps_distributeOwner {s0 s : State} (hk : Keeps s0 s) (id : Nat) (x : Item) (t : Ticket) (b : Tensor) : Keeps s0 (distributeOwner s id x t b) := by
  unfold distributeOwner
  first
  | simp +contextual (maxDischargeDepth := 60) [hk]; done
  | ((try dsimp only); (repeat' split) <;> simp +contextual (maxDischargeDepth := 60) [*])

@[simp] theorem keeps_State_forwardImage {s0 s : State} (hk : Keeps s0 s) (id : Nat) (t : Ticket) (next : Nat) : Keeps s0 (State.forwardImage s id t next) := by
  unfold State.forwardImage
  first
  | simp +contextual (maxDischargeDepth := 60) [hk]; done
  | ((try dsimp only); (repeat' split) <;> simp +contextual (maxDischargeDepth := 60) [*])

@[simp] theorem keeps_State_writeDistributed {s0 s : State} (hk : Keeps s0 s) (id : Nat) (x : Item) (t : Ticket) (a : Tensor) : Keeps s0 (State.writeDistributed s id x t a) := by
  unfold State.writeDistributed
  first
  | simp +contextual (maxDischargeDepth := 60) [hk]; done
  | ((try dsimp only); (repeat' split) <;> simp +contextual (maxDischargeDepth := 60) [*])

@[simp] theorem keeps_distributeRecipient {s0 s : State} (hk : Keeps s0 s) (id : Nat) (x : Item) (t : Ticket) (a : Tensor) : Keeps s0 (distributeRecipient s id x t a) := by
  unfold distributeRecipient
  first
  | simp +contextual (maxDischargeDepth := 60) [hk]; done
  | ((try dsimp only); (repeat' split) <;> simp +contextual (maxDischargeDepth := 60) [*])

@[simp] theorem keeps_distributeEffect {s0 s : State} (hk : Keeps s0 s) (id : Nat) (x : Item) : Keeps s0 (distributeEffect s id x) := by
  unfold distributeEffect
  first
  | simp +contextual (maxDischargeDepth := 60) [hk]; done
  | ((try dsimp only); (repeat' split) <;> simp +contextual (maxDischargeDepth := 60) [*])

@[simp] theorem keeps_State_discard {s0 s : State} (hk : Keeps s0 s) (port : Nat) : Keeps s0 (State.discard s port) := by
  unfold State.discard
  first
  | simp +contextual (maxDischargeDepth := 60) [hk]; done
  | ((try dsimp only); (repeat' split) <;> simp +contextual (maxDischargeDepth := 60) [*])

@[simp] theorem keeps_State_deliverGrant {s0 s : State} (hk : Keeps s0 s) (f : VfFrame) : Keeps s0 (State.deliverGrant s f) := by
  unfold State.deliverGrant
  first
  | simp +contextual (maxDischargeDepth := 60) [hk]; done
  | ((try dsimp only); (repeat' split) <;> simp +contextual (maxDischargeDepth := 60) [*])

@[simp] theorem keeps_State_deliverRefuse {s0 s : State} (hk : Keeps s0 s) (f : VfFrame) : Keeps s0 (State.deliverRefuse s f) := by
  unfold State.deliverRefuse
  first
  | simp +contextual (maxDischargeDepth := 60) [hk]; done
  | ((try dsimp only); (repeat' split) <;> simp +contextual (maxDischargeDepth := 60) [*])

@[simp] theorem keeps_State_deliverBusy {s0 s : State} (hk : Keeps s0 s) (f : VfFrame) : Keeps s0 (State.deliverBusy s f) := by
  unfold State.deliverBusy
  first
  | simp +contextual (maxDischargeDepth := 60) [hk]; done
  | ((try dsimp only); (repeat' split) <;> simp +contextual (maxDischargeDepth := 60) [*])

@[simp] theorem keeps_State_deliverAbort {s0 s : State} (hk : Keeps s0 s) (f : VfFrame) : Keeps s0 (State.deliverAbort s f) := by
  unfold State.deliverAbort
  first
  | simp +contextual (maxDischargeDepth := 60) [hk]; done
  | ((try dsimp only); (repeat' split) <;> simp +contextual (maxDischargeDepth := 60) [*])

@[simp] theorem keeps_State_addFrame {s0 s : State} (hk : Keeps s0 s) (id : Nat) (t : Ticket) (f : VfFrame) : Keeps s0 (State.addFrame s id t f) := by
  unfold State.addFrame
  first
  | simp +contextual (maxDischargeDepth := 60) [hk]; done
  | ((try dsimp only); (repeat' split) <;> simp +contextual (maxDischargeDepth := 60) [*])

@[simp] theorem keeps_State_deliverData {s0 s : State} (hk : Keeps s0 s) (f : VfFrame) : Keeps s0 (State.deliverData s f) := by
  unfold State.deliverData
  first
  | simp +contextual (maxDischargeDepth := 60) [hk]; done
  | ((try dsimp only); (repeat' split) <;> simp +contextual (maxDischargeDepth := 60) [*])

@[simp] theorem keeps_State_forgetMember {s0 s : State} (hk : Keeps s0 s) (account group peer : Nat) : Keeps s0 (State.forgetMember s account group peer) := by
  unfold State.forgetMember
  first
  | simp +contextual (maxDischargeDepth := 60) [hk]; done
  | ((try dsimp only); (repeat' split) <;> simp +contextual (maxDischargeDepth := 60) [*])

@[simp] theorem keeps_State_loseInGroup {s0 s : State} (hk : Keeps s0 s) (account group peer : Nat) : Keeps s0 (State.loseInGroup s account group peer) := by
  unfold State.loseInGroup
  first
  | simp +contextual (maxDischargeDepth := 60) [hk]; done
  | ((try dsimp only); (repeat' split) <;> simp +contextual (maxDischargeDepth := 60) [*])

@[simp] theorem keeps_State_deliverLost {s0 s : State} (hk : Keeps s0 s) (f : VfFrame) : Keeps s0 (State.deliverLost s f) := by
  unfold State.deliverLost
  first
  | simp +contextual (maxDischargeDepth := 60) [hk]; done
  | ((try dsimp only); (repeat' split) <;> simp +contextual (maxDischargeDepth := 60) [*])

@[simp] theorem keeps_State_deliver {s0 s : State} (hk : Keeps s0 s) (port : Nat) (f : VfFrame) : Keeps s0 (State.deliver s port f) := by
  unfold State.deliver
  first
  | simp +contextual (maxDischargeDepth := 60) [hk]; done
  | ((try dsimp only); (repeat' split) <;> simp +contextual (maxDischargeDepth := 60) [*])

theorem keeps_deliverLoop {s0 : State} (hf : Half) (peer port n : Nat) {s : State} (h : Keeps s0 s) :
    Keeps s0 (deliverLoop hf peer port n s) := by
  induction n generalizing s with
  | zero => exact h
  | succ n ih =>
    unfold deliverLoop
    dsimp only
    split
    · exact h
    · exact ih (by simp +contextual (maxDischargeDepth := 60) [h])

@[simp] theorem keeps_State_receive {s0 s : State} (hk : Keeps s0 s) (port : Nat) (f : VfFrame) : Keeps s0 (State.receive s port f) := by
  unfold State.receive
  dsimp only
  (repeat' split) <;> first | exact keeps_deliverLoop _ _ _ _ (by simp +contextual (maxDischargeDepth := 60) [hk]) | simp +contextual (maxDischargeDepth := 60) [hk]

@[simp] theorem keeps_State_atPort {s0 s : State} (hk : Keeps s0 s) (port t : Nat) (f : VfFrame) (act : State → State) (hact : ∀ t, Keeps s0 t → Keeps s0 (act t)) : Keeps s0 (State.atPort s port t f act) := by
  unfold State.atPort
  first
  | simp +contextual (maxDischargeDepth := 60) [hk]; done
  | ((try dsimp only); (repeat' split) <;> simp +contextual (maxDischargeDepth := 60) [*])

@[simp] theorem keeps_State_planeUp {s0 s : State} (hk : Keeps s0 s) (h : Half) (peer plane : Nat) : Keeps s0 (State.planeUp s h peer plane) := by
  unfold State.planeUp
  first
  | simp +contextual (maxDischargeDepth := 60) [hk]; done
  | ((try dsimp only); (repeat' split) <;> simp +contextual (maxDischargeDepth := 60) [*])

@[simp] theorem keeps_State_frameAcked {s0 s : State} (hk : Keeps s0 s) (f : VfFrame) : Keeps s0 (State.frameAcked s f) := by
  unfold State.frameAcked
  first
  | simp +contextual (maxDischargeDepth := 60) [hk]; done
  | ((try dsimp only); (repeat' split) <;> simp +contextual (maxDischargeDepth := 60) [*])

@[simp] theorem keeps_ackEffect {s0 s : State} (hk : Keeps s0 s) (port : Nat) (f : VfFrame) : Keeps s0 (ackEffect port f s) := by
  unfold ackEffect
  first
  | simp +contextual (maxDischargeDepth := 60) [hk]; done
  | ((try dsimp only); (repeat' split) <;> simp +contextual (maxDischargeDepth := 60) [*])

@[simp] theorem keeps_State_missPlane {s0 s : State} (hk : Keeps s0 s) (h : Half) (peer plane : Nat) : Keeps s0 (State.missPlane s h peer plane) := by
  unfold State.missPlane
  first
  | simp +contextual (maxDischargeDepth := 60) [hk]; done
  | ((try dsimp only); (repeat' split) <;> simp +contextual (maxDischargeDepth := 60) [*])

@[simp] theorem keeps_retransmit {s0 s : State} (hk : Keeps s0 s) (h : Half) (peer seq : Nat) : Keeps s0 (retransmit h peer seq s) := by
  unfold retransmit
  first
  | simp +contextual (maxDischargeDepth := 60) [hk]; done
  | ((try dsimp only); (repeat' split) <;> simp +contextual (maxDischargeDepth := 60) [*])

@[simp] theorem keeps_planeProbe {s0 s : State} (hk : Keeps s0 s) (h : Half) (peer plane : Nat) : Keeps s0 (planeProbe h peer plane s) := by
  unfold planeProbe
  first
  | simp +contextual (maxDischargeDepth := 60) [hk]; done
  | ((try dsimp only); (repeat' split) <;> simp +contextual (maxDischargeDepth := 60) [*])

@[simp] theorem keeps_State_notify {s0 s : State} (hk : Keeps s0 s) (h : Half) (account peer : Nat) (groups : List Nat) : Keeps s0 (State.notify s h account peer groups) := by
  unfold State.notify
  first
  | simp +contextual (maxDischargeDepth := 60) [hk]; done
  | ((try dsimp only); (repeat' split) <;> simp +contextual (maxDischargeDepth := 60) [*])

@[simp] theorem keeps_losePeer {s0 s : State} (hk : Keeps s0 s) (peer : Nat) : Keeps s0 (losePeer peer s) := by
  unfold losePeer
  first
  | simp +contextual (maxDischargeDepth := 60) [hk]; done
  | ((try dsimp only); (repeat' split) <;> simp +contextual (maxDischargeDepth := 60) [*])

@[simp] theorem keeps_closeContext {s0 s : State} (hk : Keeps s0 s) (h : Half) (peer : Nat) (makeRoom : Bool) : Keeps s0 (closeContext h peer makeRoom s) := by
  unfold closeContext
  first
  | simp +contextual (maxDischargeDepth := 60) [hk]; done
  | ((try dsimp only); (repeat' split) <;> simp +contextual (maxDischargeDepth := 60) [*])

@[simp] theorem keeps_State_serveRing {s0 s : State} (hk : Keeps s0 s) (x : Item) : Keeps s0 (State.serveRing s x) := by
  unfold State.serveRing
  first
  | simp +contextual (maxDischargeDepth := 60) [hk]; done
  | ((try dsimp only); (repeat' split) <;> simp +contextual (maxDischargeDepth := 60) [*])

@[simp] theorem keeps_State_beginVersions {s0 s : State} (hk : Keeps s0 s) (id : Nat) (x : Item) : Keeps s0 (State.beginVersions s id x) := by
  unfold State.beginVersions
  first
  | simp +contextual (maxDischargeDepth := 60) [hk]; done
  | ((try dsimp only); (repeat' split) <;> simp +contextual (maxDischargeDepth := 60) [*])

@[simp] theorem keeps_State_takeHolds {s0 s : State} (hk : Keeps s0 s) (id : Nat) (decks : List Nat) : Keeps s0 (State.takeHolds s id decks) := by
  unfold State.takeHolds
  first
  | simp +contextual (maxDischargeDepth := 60) [hk]; done
  | ((try dsimp only); (repeat' split) <;> simp +contextual (maxDischargeDepth := 60) [*])

@[simp] theorem keeps_State_pin {s0 s : State} (hk : Keeps s0 s) (x : Item) : Keeps s0 (State.pin s x) := by
  unfold State.pin
  first
  | simp +contextual (maxDischargeDepth := 60) [hk]; done
  | ((try dsimp only); (repeat' split) <;> simp +contextual (maxDischargeDepth := 60) [*])

@[simp] theorem keeps_State_run {s0 s : State} (hk : Keeps s0 s) (id : Nat) (x : Item) : Keeps s0 (State.run s id x) := by
  unfold State.run
  first
  | simp +contextual (maxDischargeDepth := 60) [hk]; done
  | ((try dsimp only); (repeat' split) <;> simp +contextual (maxDischargeDepth := 60) [*])

@[simp] theorem keeps_startGemm {s0 s : State} (hk : Keeps s0 s) (id : Nat) (x : Item) : Keeps s0 (startGemm s id x) := by
  unfold startGemm
  first
  | simp +contextual (maxDischargeDepth := 60) [hk]; done
  | ((try dsimp only); (repeat' split) <;> simp +contextual (maxDischargeDepth := 60) [*])

@[simp] theorem keeps_startUpdate {s0 s : State} (hk : Keeps s0 s) (id : Nat) (x : Item) : Keeps s0 (startUpdate s id x) := by
  unfold startUpdate
  first
  | simp +contextual (maxDischargeDepth := 60) [hk]; done
  | ((try dsimp only); (repeat' split) <;> simp +contextual (maxDischargeDepth := 60) [*])

@[simp] theorem keeps_startSettle {s0 s : State} (hk : Keeps s0 s) (id : Nat) (x : Item) : Keeps s0 (startSettle s id x) := by
  unfold startSettle
  first
  | simp +contextual (maxDischargeDepth := 60) [hk]; done
  | ((try dsimp only); (repeat' split) <;> simp +contextual (maxDischargeDepth := 60) [*])

@[simp] theorem keeps_startClear {s0 s : State} (hk : Keeps s0 s) (id : Nat) (x : Item) : Keeps s0 (startClear s id x) := by
  unfold startClear
  first
  | simp +contextual (maxDischargeDepth := 60) [hk]; done
  | ((try dsimp only); (repeat' split) <;> simp +contextual (maxDischargeDepth := 60) [*])

@[simp] theorem keeps_startStash {s0 s : State} (hk : Keeps s0 s) (id : Nat) (x : Item) : Keeps s0 (startStash s id x) := by
  unfold startStash
  first
  | simp +contextual (maxDischargeDepth := 60) [hk]; done
  | ((try dsimp only); (repeat' split) <;> simp +contextual (maxDischargeDepth := 60) [*])

@[simp] theorem keeps_startItem {s0 s : State} (hk : Keeps s0 s) (id : Nat) (x : Item) : Keeps s0 (startItem s id x) := by
  unfold startItem
  first
  | simp +contextual (maxDischargeDepth := 60) [hk]; done
  | ((try dsimp only); (repeat' split) <;> simp +contextual (maxDischargeDepth := 60) [*])

@[simp] theorem keeps_startEffect {s0 s : State} (hk : Keeps s0 s) (id : Nat) (x : Item) : Keeps s0 (startEffect s id x) := by
  unfold startEffect
  first
  | simp +contextual (maxDischargeDepth := 60) [hk]; done
  | ((try dsimp only); (repeat' split) <;> simp +contextual (maxDischargeDepth := 60) [*])

@[simp] theorem keeps_unitStart {s0 s : State} (hk : Keeps s0 s) (teller n id unit cycle : Nat) (check : BlockCheck) (x : Item) : Keeps s0 (unitStart teller n id unit cycle check s x) := by
  unfold unitStart
  first
  | simp +contextual (maxDischargeDepth := 60) [hk]; done
  | ((try dsimp only); (repeat' split) <;> simp +contextual (maxDischargeDepth := 60) [*])

@[simp] theorem keeps_secondPass {s0 s : State} (hk : Keeps s0 s) (id : Nat) (x : Item) : Keeps s0 (secondPass id s x) := by
  unfold secondPass
  first
  | simp +contextual (maxDischargeDepth := 60) [hk]; done
  | ((try dsimp only); (repeat' split) <;> simp +contextual (maxDischargeDepth := 60) [*])

@[simp] theorem keeps_State_endUnit {s0 s : State} (hk : Keeps s0 s) (teller n id : Nat) : Keeps s0 (State.endUnit s teller n id) := by
  unfold State.endUnit
  first
  | simp +contextual (maxDischargeDepth := 60) [hk]; done
  | ((try dsimp only); (repeat' split) <;> simp +contextual (maxDischargeDepth := 60) [*])

@[simp] theorem keeps_State_issueState {s0 s : State} (hk : Keeps s0 s) (teller n cycle : Nat) : Keeps s0 (State.issueState s teller n cycle) := by
  unfold State.issueState
  first
  | simp +contextual (maxDischargeDepth := 60) [hk]; done
  | ((try dsimp only); (repeat' split) <;> simp +contextual (maxDischargeDepth := 60) [*])

@[simp] theorem keeps_imageToTeller {s0 s : State} (hk : Keeps s0 s) (teller slot cycle : Nat) (x : Item) : Keeps s0 (imageToTeller teller slot cycle s x) := by
  unfold imageToTeller
  first
  | simp +contextual (maxDischargeDepth := 60) [hk]; done
  | ((try dsimp only); (repeat' split) <;> simp +contextual (maxDischargeDepth := 60) [*])

@[simp] theorem keeps_State_carriesRecovered {s0 s : State} (hk : Keeps s0 s) (item : Nat) : Keeps s0 (State.carriesRecovered s item) := by
  unfold State.carriesRecovered
  first
  | simp +contextual (maxDischargeDepth := 60) [hk]; done
  | ((try dsimp only); (repeat' split) <;> simp +contextual (maxDischargeDepth := 60) [*])

@[simp] theorem keeps_State_readPoison {s0 s : State} (hk : Keeps s0 s) (item : Nat) (poisoned : Bool) (holds : Holds) : Keeps s0 (State.readPoison s item poisoned holds) := by
  unfold State.readPoison
  first
  | simp +contextual (maxDischargeDepth := 60) [hk]; done
  | ((try dsimp only); (repeat' split) <;> simp +contextual (maxDischargeDepth := 60) [*])

@[simp] theorem keeps_State_bankPoison {s0 s : State} (hk : Keeps s0 s) (b item : Nat) (bad : List Nat) : Keeps s0 (State.bankPoison s b item bad) := by
  unfold State.bankPoison
  first
  | simp +contextual (maxDischargeDepth := 60) [hk]; done
  | ((try dsimp only); (repeat' split) <;> simp +contextual (maxDischargeDepth := 60) [*])

@[simp] theorem keeps_State_checkGranules {s0 s : State} (hk : Keeps s0 s) (b item : Nat) (gs : List Nat) : Keeps s0 (State.checkGranules s b item gs) := by
  unfold State.checkGranules
  first
  | simp +contextual (maxDischargeDepth := 60) [hk]; done
  | ((try dsimp only); (repeat' split) <;> simp +contextual (maxDischargeDepth := 60) [*])

@[simp] theorem keeps_State_strikeBank {s0 s : State} (hk : Keeps s0 s) (b : Nat) (upsets : List Upset) : Keeps s0 (State.strikeBank s b upsets) := by
  unfold State.strikeBank
  first
  | simp +contextual (maxDischargeDepth := 60) [hk]; done
  | ((try dsimp only); (repeat' split) <;> simp +contextual (maxDischargeDepth := 60) [*])

@[simp] theorem keeps_State_serveWrite {s0 s : State} (hk : Keeps s0 s) (b : Nat) (r : PortRequest) : Keeps s0 (State.serveWrite s b r) := by
  unfold State.serveWrite
  exact keeps_State_bump (keeps_setBank hk b _ fun hm => wf_writeBytes (bank_wf hm b) _ _) _ _ _

@[simp] theorem keeps_State_serveRead {s0 s : State} (hk : Keeps s0 s) (b : Nat) (r : PortRequest) : Keeps s0 (State.serveRead s b r) := by
  unfold State.serveRead
  first
  | simp +contextual (maxDischargeDepth := 60) [hk]; done
  | ((try dsimp only); (repeat' split) <;> simp +contextual (maxDischargeDepth := 60) [*])

@[simp] theorem keeps_bankCycle {s0 s : State} (hk : Keeps s0 s) (b : Nat) (reads writes : List PortRequest) : Keeps s0 (bankCycle b reads writes s) := by
  unfold bankCycle
  dsimp only
  refine keeps_serveWith (keeps_serveWith ?_ _ (fun u q hu => keeps_State_serveWrite hu _ _) _) _ (fun u q hu => keeps_State_serveRead hu _ _) _
  exact keeps_State_bump (keeps_State_bump (keeps_setBank hk b _ fun hm => by simpa using bank_wf hm b) _ _ _) _ _ _

@[simp] theorem keeps_State_queueTail {s0 s : State} (hk : Keeps s0 s) (b : Nat) (r : PortRequest) : Keeps s0 (State.queueTail s b r) := by
  unfold State.queueTail
  first
  | simp +contextual (maxDischargeDepth := 60) [hk]; done
  | ((try dsimp only); (repeat' split) <;> simp +contextual (maxDischargeDepth := 60) [*])

@[simp] theorem keeps_bankTurn {s0 s : State} (hk : Keeps s0 s) (b : Nat) (reads writes : List PortRequest) : Keeps s0 (bankTurn b reads writes s) := by
  unfold bankTurn
  first
  | simp +contextual (maxDischargeDepth := 60) [hk]; done
  | ((try dsimp only); (repeat' split) <;> simp +contextual (maxDischargeDepth := 60) [*])

@[simp] theorem keeps_bankRead {s0 s : State} (hk : Keeps s0 s) (b : Nat) (r : PortRequest) (upsets : List Upset) (check : BlockCheck) : Keeps s0 (bankRead b r upsets check s) := by
  unfold bankRead
  first
  | simp +contextual (maxDischargeDepth := 60) [hk]; done
  | ((try dsimp only); (repeat' split) <;> simp +contextual (maxDischargeDepth := 60) [*])

@[simp] theorem keeps_State_hbmPoison {s0 s : State} (hk : Keeps s0 s) (k item : Nat) (bad : List Nat) : Keeps s0 (State.hbmPoison s k item bad) := by
  unfold State.hbmPoison
  first
  | simp +contextual (maxDischargeDepth := 60) [hk]; done
  | ((try dsimp only); (repeat' split) <;> simp +contextual (maxDischargeDepth := 60) [*])

@[simp] theorem keeps_State_checkStack {s0 s : State} (hk : Keeps s0 s) (k item : Nat) (gs : List Nat) : Keeps s0 (State.checkStack s k item gs) := by
  unfold State.checkStack
  first
  | simp +contextual (maxDischargeDepth := 60) [hk]; done
  | ((try dsimp only); (repeat' split) <;> simp +contextual (maxDischargeDepth := 60) [*])

@[simp] theorem keeps_State_strikeStack {s0 s : State} (hk : Keeps s0 s) (k : Nat) (upsets : List Upset) : Keeps s0 (State.strikeStack s k upsets) := by
  unfold State.strikeStack
  first
  | simp +contextual (maxDischargeDepth := 60) [hk]; done
  | ((try dsimp only); (repeat' split) <;> simp +contextual (maxDischargeDepth := 60) [*])

@[simp] theorem keeps_State_serveStack {s0 s : State} (hk : Keeps s0 s) (k item : Nat) (holds : Holds) (bytes : List Byte) (gs : List Nat) : Keeps s0 (State.serveStack s k item holds bytes gs) := by
  unfold State.serveStack
  have h2 := keeps_State_checkStack hk k item gs
  generalize s.checkStack k item gs = s2 at h2 ⊢
  refine keeps_State_readPoison (keeps_setStack h2 k _ ?_) _ _ _
  exact fun hm => stack_wf hm k

@[simp] theorem keeps_hbmRead {s0 s : State} (hk : Keeps s0 s) (k extent offset length : Nat) (upsets : List Upset) (item : Nat) (holds : Holds) : Keeps s0 (hbmRead k extent offset length upsets item holds s) := by
  unfold hbmRead
  first
  | simp +contextual (maxDischargeDepth := 60) [hk]; done
  | ((try dsimp only); (repeat' split) <;> simp +contextual (maxDischargeDepth := 60) [*])

theorem fill_wf {x : Stack} (h : x.bytes.wf = true) (extent : Nat) : (x.fill extent).bytes.wf = true := by
  unfold Stack.fill
  split
  · exact wf_filter h _
  · exact h

@[simp] theorem keeps_hbmWrite {s0 s : State} (hk : Keeps s0 s) (k extent offset : Nat) (bytes : List Byte) : Keeps s0 (hbmWrite k extent offset bytes s) := by
  unfold hbmWrite
  dsimp only
  have h1 := keeps_setStack hk k ((s.stack k).fill extent) fun hm => fill_wf (stack_wf hm k) extent
  have h2 := keeps_State_checkStack h1 k 0 ((touched (extent * extentBytes + offset) bytes.length).filter fun g =>
    !(covered (extent * extentBytes + offset) bytes.length).contains g)
  generalize State.checkStack _ k 0 _ = s2 at h2 ⊢
  exact keeps_State_bump (keeps_setStack h2 k _ fun hm => wf_writeBytes (stack_wf hm k) _ _) _ _ _

@[simp] theorem keeps_State_setGrant {s0 s : State} (hk : Keeps s0 s) (u : SharedUnit) (g : Grant) : Keeps s0 (State.setGrant s u g) := by
  unfold State.setGrant
  first
  | simp +contextual (maxDischargeDepth := 60) [hk]; done
  | ((try dsimp only); (repeat' split) <;> simp +contextual (maxDischargeDepth := 60) [*])

@[simp] theorem keeps_State_setPool {s0 s : State} (hk : Keeps s0 s) (u : SharedUnit) (p : Pool) : Keeps s0 (State.setPool s u p) := by
  unfold State.setPool
  first
  | simp +contextual (maxDischargeDepth := 60) [hk]; done
  | ((try dsimp only); (repeat' split) <;> simp +contextual (maxDischargeDepth := 60) [*])

@[simp] theorem keeps_State_endGrant {s0 s : State} (hk : Keeps s0 s) (u : SharedUnit) (t : Nat) : Keeps s0 (State.endGrant s u t) := by
  unfold State.endGrant
  first
  | simp +contextual (maxDischargeDepth := 60) [hk]; done
  | ((try dsimp only); (repeat' split) <;> simp +contextual (maxDischargeDepth := 60) [*])

@[simp] theorem keeps_State_switchTo {s0 s : State} (hk : Keeps s0 s) (u : SharedUnit) (account : Nat) : Keeps s0 (State.switchTo s u account).1 := by
  unfold State.switchTo
  first
  | simp +contextual (maxDischargeDepth := 60) [hk]; done
  | ((try dsimp only); (repeat' split) <;> simp +contextual (maxDischargeDepth := 60) [*])

@[simp] theorem keeps_State_grantTo {s0 s : State} (hk : Keeps s0 s) (u : SharedUnit) (p : Pool) (r : Ready) (aged : Bool) (t : Nat) : Keeps s0 (State.grantTo s u p r aged t) := by
  unfold State.grantTo
  first
  | simp +contextual (maxDischargeDepth := 60) [hk]; done
  | ((try dsimp only); (repeat' split) <;> simp +contextual (maxDischargeDepth := 60) [*])

@[simp] theorem keeps_State_serveOther {s0 s : State} (hk : Keeps s0 s) (u : SharedUnit) (r : Ready) : Keeps s0 (State.serveOther s u r) := by
  unfold State.serveOther
  first
  | simp +contextual (maxDischargeDepth := 60) [hk]; done
  | ((try dsimp only); (repeat' split) <;> simp +contextual (maxDischargeDepth := 60) [*])

@[simp] theorem keeps_State_grantNext {s0 s : State} (hk : Keeps s0 s) (u : SharedUnit) (ready : List Ready) (t : Nat) : Keeps s0 (State.grantNext s u ready t) := by
  unfold State.grantNext
  first
  | simp +contextual (maxDischargeDepth := 60) [hk]; done
  | ((try dsimp only); (repeat' split) <;> simp +contextual (maxDischargeDepth := 60) [*])

@[simp] theorem keeps_grantPoint {s0 s : State} (hk : Keeps s0 s) (u : SharedUnit) (ready : List Ready) (t : Nat) : Keeps s0 (grantPoint u ready t s) := by
  unfold grantPoint
  first
  | simp +contextual (maxDischargeDepth := 60) [hk]; done
  | ((try dsimp only); (repeat' split) <;> simp +contextual (maxDischargeDepth := 60) [*])

@[simp] theorem keeps_State_accepted {s0 s : State} (hk : Keeps s0 s) (command account : Nat) : Keeps s0 (State.accepted s command account) := by
  unfold State.accepted
  first
  | simp +contextual (maxDischargeDepth := 60) [hk]; done
  | ((try dsimp only); (repeat' split) <;> simp +contextual (maxDischargeDepth := 60) [*])

@[simp] theorem keeps_State_discardCommand {s0 s : State} (hk : Keeps s0 s) (ep : Half) : Keeps s0 (State.discardCommand s ep) := by
  unfold State.discardCommand
  first
  | simp +contextual (maxDischargeDepth := 60) [hk]; done
  | ((try dsimp only); (repeat' split) <;> simp +contextual (maxDischargeDepth := 60) [*])

@[simp] theorem keeps_takeCommand {s0 s : State} (hk : Keeps s0 s) (ep : Half) (command account : Nat) (act : State → State) (hact : ∀ t, Keeps s0 t → Keeps s0 (act t)) : Keeps s0 (takeCommand ep command account act s) := by
  unfold takeCommand
  first
  | simp +contextual (maxDischargeDepth := 60) [hk]; done
  | ((try dsimp only); (repeat' split) <;> simp +contextual (maxDischargeDepth := 60) [*])

@[simp] theorem keeps_State_prepareDecks {s0 s : State} (hk : Keeps s0 s) (n : Nat) (p : Params) : Keeps s0 (State.prepareDecks s n p) := by
  unfold State.prepareDecks
  first
  | simp +contextual (maxDischargeDepth := 60) [hk]; done
  | ((try dsimp only); (repeat' split) <;> simp +contextual (maxDischargeDepth := 60) [*])

@[simp] theorem keeps_State_reserveSlots {s0 s : State} (hk : Keeps s0 s) (n : Nat) : Keeps s0 (State.reserveSlots s n) := by
  unfold State.reserveSlots
  first
  | simp +contextual (maxDischargeDepth := 60) [hk]; done
  | ((try dsimp only); (repeat' split) <;> simp +contextual (maxDischargeDepth := 60) [*])

@[simp] theorem keeps_admitEffect {s0 s : State} (hk : Keeps s0 s) (n : Nat) : Keeps s0 (admitEffect n s) := by
  unfold admitEffect
  first
  | simp +contextual (maxDischargeDepth := 60) [hk]; done
  | ((try dsimp only); (repeat' split) <;> simp +contextual (maxDischargeDepth := 60) [*])

@[simp] theorem keeps_resizeEffect {s0 s : State} (hk : Keeps s0 s) (n : Nat) : Keeps s0 (resizeEffect n s) := by
  unfold resizeEffect
  first
  | simp +contextual (maxDischargeDepth := 60) [hk]; done
  | ((try dsimp only); (repeat' split) <;> simp +contextual (maxDischargeDepth := 60) [*])

@[simp] theorem keeps_State_stopAccountRings {s0 s : State} (hk : Keeps s0 s) (a : Nat) : Keeps s0 (State.stopAccountRings s a) := by
  unfold State.stopAccountRings
  first
  | simp +contextual (maxDischargeDepth := 60) [hk]; done
  | ((try dsimp only); (repeat' split) <;> simp +contextual (maxDischargeDepth := 60) [*])

@[simp] theorem keeps_removeEffect {s0 s : State} (hk : Keeps s0 s) (n : Nat) : Keeps s0 (removeEffect n s) := by
  unfold removeEffect
  first
  | simp +contextual (maxDischargeDepth := 60) [hk]; done
  | ((try dsimp only); (repeat' split) <;> simp +contextual (maxDischargeDepth := 60) [*])

@[simp] theorem keeps_State_strikeItem {s0 s : State} (hk : Keeps s0 s) (id code : Nat) : Keeps s0 (State.strikeItem s id code) := by
  unfold State.strikeItem
  first
  | simp +contextual (maxDischargeDepth := 60) [hk]; done
  | ((try dsimp only); (repeat' split) <;> simp +contextual (maxDischargeDepth := 60) [*])

@[simp] theorem keeps_State_resumeFrom {s0 s : State} (hk : Keeps s0 s) (b code : Nat) : Keeps s0 (State.resumeFrom s b code) := by
  unfold State.resumeFrom
  first
  | simp +contextual (maxDischargeDepth := 60) [hk]; done
  | ((try dsimp only); (repeat' split) <;> simp +contextual (maxDischargeDepth := 60) [*])

@[simp] theorem keeps_silentBlock {s0 s : State} (hk : Keeps s0 s) (b : Nat) : Keeps s0 (silentBlock b s) := by
  unfold silentBlock
  first
  | simp +contextual (maxDischargeDepth := 60) [hk]; done
  | ((try dsimp only); (repeat' split) <;> simp +contextual (maxDischargeDepth := 60) [*])

@[simp] theorem keeps_State_reboundFault {s0 s : State} (hk : Keeps s0 s) (b region : Nat) (accounts : List Nat) : Keeps s0 (State.reboundFault s b region accounts) := by
  unfold State.reboundFault
  first
  | simp +contextual (maxDischargeDepth := 60) [hk]; done
  | ((try dsimp only); (repeat' split) <;> simp +contextual (maxDischargeDepth := 60) [*])

@[simp] theorem keeps_State_cutReservations {s0 s : State} (hk : Keeps s0 s)  : Keeps s0 (State.cutReservations s) := by
  unfold State.cutReservations
  first
  | simp +contextual (maxDischargeDepth := 60) [hk]; done
  | ((try dsimp only); (repeat' split) <;> simp +contextual (maxDischargeDepth := 60) [*])

@[simp] theorem keeps_State_rebuildTallies {s0 s : State} (hk : Keeps s0 s) (r : Nat) : Keeps s0 (State.rebuildTallies s r) := by
  unfold State.rebuildTallies
  refine keeps_foldl _ _ ?_ hk
  intro t a ht
  (repeat' split) <;> simp +contextual (maxDischargeDepth := 60) [*]

@[simp] theorem keeps_State_stripRegion {s0 s : State} (hk : Keeps s0 s) (r : Nat) : Keeps s0 (State.stripRegion s r) := by
  unfold State.stripRegion
  first
  | simp +contextual (maxDischargeDepth := 60) [hk]; done
  | ((try dsimp only); (repeat' split) <;> simp +contextual (maxDischargeDepth := 60) [*])

@[simp] theorem keeps_State_recoverRegion {s0 s : State} (hk : Keeps s0 s) (r words : Nat) : Keeps s0 (State.recoverRegion s r words) := by
  unfold State.recoverRegion
  first
  | simp +contextual (maxDischargeDepth := 60) [hk]; done
  | ((try dsimp only); (repeat' split) <;> simp +contextual (maxDischargeDepth := 60) [*])

@[simp] theorem keeps_regionFence {s0 s : State} (hk : Keeps s0 s) (r failed words : Nat) : Keeps s0 (regionFence r failed words s) := by
  unfold regionFence
  first
  | simp +contextual (maxDischargeDepth := 60) [hk]; done
  | ((try dsimp only); (repeat' split) <;> simp +contextual (maxDischargeDepth := 60) [*])

@[simp] theorem keeps_State_assayHomes {s0 s : State} (hk : Keeps s0 s) (hbms : List Nat) : Keeps s0 (State.assayHomes s hbms) := by
  unfold State.assayHomes
  first
  | simp +contextual (maxDischargeDepth := 60) [hk]; done
  | ((try dsimp only); (repeat' split) <;> simp +contextual (maxDischargeDepth := 60) [*])

@[simp] theorem keeps_State_dropImages {s0 s : State} (hk : Keeps s0 s)  : Keeps s0 (State.dropImages s) := by
  unfold State.dropImages
  first
  | simp +contextual (maxDischargeDepth := 60) [hk]; done
  | ((try dsimp only); (repeat' split) <;> simp +contextual (maxDischargeDepth := 60) [*])

@[simp] theorem keeps_State_recoverStacks {s0 s : State} (hk : Keeps s0 s) (hbms : List Nat) (code : Nat) : Keeps s0 (State.recoverStacks s hbms code) := by
  unfold State.recoverStacks
  first
  | simp +contextual (maxDischargeDepth := 60) [hk]; done
  | ((try dsimp only); (repeat' split) <;> simp +contextual (maxDischargeDepth := 60) [*])

@[simp] theorem keeps_hbmFence {s0 s : State} (hk : Keeps s0 s) (k : Nat) : Keeps s0 (hbmFence k s) := by
  unfold hbmFence
  dsimp only
  have h1 := keeps_State_recordBy hk (hubBlock (if k < 4 then .west else .east)) { code := 0x4007, source := hbmBlock k, sub := k, action := 3, detail0 := stackExtents s k }
  generalize s.recordBy (hubBlock (if k < 4 then .west else .east)) { code := 0x4007, source := hbmBlock k, sub := k, action := 3, detail0 := stackExtents s k } = s1 at h1 ⊢
  have h2 := keeps_setStack (keeps_State_fenceBlock h1 (hbmBlock k)) k { s1.stack k with fenced := true, bytes := [], zeroTags := [], upsets := [], poisoned := [], data := none } fun _ => rfl
  generalize (s1.fenceBlock (hbmBlock k)).setStack k { s1.stack k with fenced := true, bytes := [], zeroTags := [], upsets := [], poisoned := [], data := none } = s2 at h2 ⊢
  split <;> simp +contextual (maxDischargeDepth := 60) [h2]

@[simp] theorem keeps_State_fenceHalf {s0 s : State} (hk : Keeps s0 s) (h : Half) : Keeps s0 (State.fenceHalf s h) := by
  unfold State.fenceHalf
  first
  | simp +contextual (maxDischargeDepth := 60) [hk]; done
  | ((try dsimp only); (repeat' split) <;> simp +contextual (maxDischargeDepth := 60) [*])

@[simp] theorem keeps_State_recoverHalf {s0 s : State} (hk : Keeps s0 s) (h : Half) (code : Nat) : Keeps s0 (State.recoverHalf s h code) := by
  unfold State.recoverHalf
  first
  | simp +contextual (maxDischargeDepth := 60) [hk]; done
  | ((try dsimp only); (repeat' split) <;> simp +contextual (maxDischargeDepth := 60) [*])

@[simp] theorem keeps_State_bridgeFault {s0 s : State} (hk : Keeps s0 s) (h : Half) : Keeps s0 (State.bridgeFault s h) := by
  unfold State.bridgeFault
  first
  | simp +contextual (maxDischargeDepth := 60) [hk]; done
  | ((try dsimp only); (repeat' split) <;> simp +contextual (maxDischargeDepth := 60) [*])

@[simp] theorem keeps_loseBridge {s0 s : State} (hk : Keeps s0 s)  : Keeps s0 (loseBridge s) := by
  unfold loseBridge
  first
  | simp +contextual (maxDischargeDepth := 60) [hk]; done
  | ((try dsimp only); (repeat' split) <;> simp +contextual (maxDischargeDepth := 60) [*])

@[simp] theorem keeps_selfTestSteward {s0 s : State} (hk : Keeps s0 s) (h : Half) (passes : Bool) (t : Nat) : Keeps s0 (selfTestSteward h passes t s) := by
  unfold selfTestSteward
  first
  | simp +contextual (maxDischargeDepth := 60) [hk]; done
  | ((try dsimp only); (repeat' split) <;> simp +contextual (maxDischargeDepth := 60) [*])

@[simp] theorem keeps_selfTestBlock {s0 s : State} (hk : Keeps s0 s) (b : Nat) (passes : Bool) (t : Nat) : Keeps s0 (selfTestBlock b passes t s) := by
  unfold selfTestBlock
  first
  | simp +contextual (maxDischargeDepth := 60) [hk]; done
  | ((try dsimp only); (repeat' split) <;> simp +contextual (maxDischargeDepth := 60) [*])

@[simp] theorem keeps_State_runRecovery {s0 s : State} (hk : Keeps s0 s) (r : Recovery) : Keeps s0 (State.runRecovery s r) := by
  unfold State.runRecovery
  first
  | simp +contextual (maxDischargeDepth := 60) [hk]; done
  | ((try dsimp only); (repeat' split) <;> simp +contextual (maxDischargeDepth := 60) [*])

@[simp] theorem keeps_State_setReady {s0 s : State} (hk : Keeps s0 s) (level : Bool) : Keeps s0 (State.setReady s level) := by
  unfold State.setReady
  first
  | simp +contextual (maxDischargeDepth := 60) [hk]; done
  | ((try dsimp only); (repeat' split) <;> simp +contextual (maxDischargeDepth := 60) [*])

@[simp] theorem keeps_State_mirrorRecord {s0 s : State} (hk : Keeps s0 s)  : Keeps s0 (State.mirrorRecord s) := by
  unfold State.mirrorRecord
  first
  | simp +contextual (maxDischargeDepth := 60) [hk]; done
  | ((try dsimp only); (repeat' split) <;> simp +contextual (maxDischargeDepth := 60) [*])

@[simp] theorem keeps_State_bothLost {s0 s : State} (hk : Keeps s0 s)  : Keeps s0 (State.bothLost s) := by
  unfold State.bothLost
  first
  | simp +contextual (maxDischargeDepth := 60) [hk]; done
  | ((try dsimp only); (repeat' split) <;> simp +contextual (maxDischargeDepth := 60) [*])

@[simp] theorem keeps_State_fenceSteward {s0 s : State} (hk : Keeps s0 s) (h : Half) : Keeps s0 (State.fenceSteward s h) := by
  unfold State.fenceSteward
  first
  | simp +contextual (maxDischargeDepth := 60) [hk]; done
  | ((try dsimp only); (repeat' split) <;> simp +contextual (maxDischargeDepth := 60) [*])

@[simp] theorem keeps_State_loseCharter {s0 s : State} (hk : Keeps s0 s) (h : Half) : Keeps s0 (State.loseCharter s h) := by
  unfold State.loseCharter
  first
  | simp +contextual (maxDischargeDepth := 60) [hk]; done
  | ((try dsimp only); (repeat' split) <;> simp +contextual (maxDischargeDepth := 60) [*])

@[simp] theorem keeps_loseSteward {s0 s : State} (hk : Keeps s0 s) (h : Half) : Keeps s0 (loseSteward h s) := by
  unfold loseSteward
  first
  | simp +contextual (maxDischargeDepth := 60) [hk]; done
  | ((try dsimp only); (repeat' split) <;> simp +contextual (maxDischargeDepth := 60) [*])

@[simp] theorem keeps_State_corruptRecord {s0 s : State} (hk : Keeps s0 s) (h : Half) (t : Nat) : Keeps s0 (State.corruptRecord s h t) := by
  unfold State.corruptRecord
  first
  | simp +contextual (maxDischargeDepth := 60) [hk]; done
  | ((try dsimp only); (repeat' split) <;> simp +contextual (maxDischargeDepth := 60) [*])

@[simp] theorem keeps_State_witnessLost {s0 s : State} (hk : Keeps s0 s) (h : Half) : Keeps s0 (State.witnessLost s h) := by
  unfold State.witnessLost
  first
  | simp +contextual (maxDischargeDepth := 60) [hk]; done
  | ((try dsimp only); (repeat' split) <;> simp +contextual (maxDischargeDepth := 60) [*])

@[simp] theorem keeps_State_stepDown {s0 s : State} (hk : Keeps s0 s) (h : Half) (winning : Nat) : Keeps s0 (State.stepDown s h winning) := by
  unfold State.stepDown
  first
  | simp +contextual (maxDischargeDepth := 60) [hk]; done
  | ((try dsimp only); (repeat' split) <;> simp +contextual (maxDischargeDepth := 60) [*])

@[simp] theorem keeps_State_renew {s0 s : State} (hk : Keeps s0 s) (h : Half) (t : Nat) : Keeps s0 (State.renew s h t) := by
  unfold State.renew
  first
  | simp +contextual (maxDischargeDepth := 60) [hk]; done
  | ((try dsimp only); (repeat' split) <;> simp +contextual (maxDischargeDepth := 60) [*])

@[simp] theorem keeps_renewalEffect {s0 s : State} (hk : Keeps s0 s) (h : Half) (reachable : Bool) (t : Nat) : Keeps s0 (renewalEffect h reachable t s) := by
  unfold renewalEffect
  first
  | simp +contextual (maxDischargeDepth := 60) [hk]; done
  | ((try dsimp only); (repeat' split) <;> simp +contextual (maxDischargeDepth := 60) [*])

@[simp] theorem keeps_State_broadcastEpoch {s0 s : State} (hk : Keeps s0 s) (e : Nat) : Keeps s0 (State.broadcastEpoch s e) := by
  unfold State.broadcastEpoch
  first
  | simp +contextual (maxDischargeDepth := 60) [hk]; done
  | ((try dsimp only); (repeat' split) <;> simp +contextual (maxDischargeDepth := 60) [*])

@[simp] theorem keeps_State_takeCharter {s0 s : State} (hk : Keeps s0 s) (h : Half) (w t : Nat) : Keeps s0 (State.takeCharter s h w t) := by
  unfold State.takeCharter
  first
  | simp +contextual (maxDischargeDepth := 60) [hk]; done
  | ((try dsimp only); (repeat' split) <;> simp +contextual (maxDischargeDepth := 60) [*])

@[simp] theorem keeps_handOver {s0 s : State} (hk : Keeps s0 s) (h : Half) : Keeps s0 (handOver h s) := by
  unfold handOver
  first
  | simp +contextual (maxDischargeDepth := 60) [hk]; done
  | ((try dsimp only); (repeat' split) <;> simp +contextual (maxDischargeDepth := 60) [*])

@[simp] theorem keeps_State_resumeService {s0 s : State} (hk : Keeps s0 s)  : Keeps s0 (State.resumeService s) := by
  unfold State.resumeService
  first
  | simp +contextual (maxDischargeDepth := 60) [hk]; done
  | ((try dsimp only); (repeat' split) <;> simp +contextual (maxDischargeDepth := 60) [*])

@[simp] theorem keeps_State_afterTaking {s0 s : State} (hk : Keeps s0 s) (h : Half) : Keeps s0 (State.afterTaking s h) := by
  unfold State.afterTaking
  first
  | simp +contextual (maxDischargeDepth := 60) [hk]; done
  | ((try dsimp only); (repeat' split) <;> simp +contextual (maxDischargeDepth := 60) [*])

@[simp] theorem keeps_witnessEffect {s0 s : State} (hk : Keeps s0 s) (h : Half) (t : Nat) : Keeps s0 (witnessEffect h t s) := by
  unfold witnessEffect
  first
  | simp +contextual (maxDischargeDepth := 60) [hk]; done
  | ((try dsimp only); (repeat' split) <;> simp +contextual (maxDischargeDepth := 60) [*])

@[simp] theorem keeps_restartOne {s0 s : State} (hk : Keeps s0 s) (v : Nat) (h : Half) : Keeps s0 (restartOne v s h) := by
  unfold restartOne
  first
  | simp +contextual (maxDischargeDepth := 60) [hk]; done
  | ((try dsimp only); (repeat' split) <;> simp +contextual (maxDischargeDepth := 60) [*])

@[simp] theorem keeps_State_runSlot {s0 s : State} (hk : Keeps s0 s) (h : Half) (b : Bool) : Keeps s0 (State.runSlot s h b) := by
  unfold State.runSlot
  first
  | simp +contextual (maxDischargeDepth := 60) [hk]; done
  | ((try dsimp only); (repeat' split) <;> simp +contextual (maxDischargeDepth := 60) [*])

@[simp] theorem keeps_fwStart {s0 s : State} (hk : Keeps s0 s) (v : Verdict) : Keeps s0 (fwStart v s) := by
  unfold fwStart
  first
  | simp +contextual (maxDischargeDepth := 60) [hk]; done
  | ((try dsimp only); (repeat' split) <;> simp +contextual (maxDischargeDepth := 60) [*])

@[simp] theorem keeps_State_stewardBack {s0 s : State} (hk : Keeps s0 s) (h : Half) (t : Nat) : Keeps s0 (State.stewardBack s h t) := by
  unfold State.stewardBack
  first
  | simp +contextual (maxDischargeDepth := 60) [hk]; done
  | ((try dsimp only); (repeat' split) <;> simp +contextual (maxDischargeDepth := 60) [*])

@[simp] theorem keeps_updateFails {s0 s : State} (hk : Keeps s0 s) (h : Half) (t : Nat) : Keeps s0 (updateFails h t s) := by
  unfold updateFails
  first
  | simp +contextual (maxDischargeDepth := 60) [hk]; done
  | ((try dsimp only); (repeat' split) <;> simp +contextual (maxDischargeDepth := 60) [*])

@[simp] theorem keeps_restartDone {s0 s : State} (hk : Keeps s0 s) (h : Half) (passes : Bool) (t : Nat) : Keeps s0 (restartDone h passes t s) := by
  unfold restartDone
  first
  | simp +contextual (maxDischargeDepth := 60) [hk]; done
  | ((try dsimp only); (repeat' split) <;> simp +contextual (maxDischargeDepth := 60) [*])

@[simp] theorem keeps_updateDone {s0 s : State} (hk : Keeps s0 s) (h : Half) (passes : Bool) (v : Verdict) (t : Nat) : Keeps s0 (updateDone h passes v t s) := by
  unfold updateDone
  first
  | simp +contextual (maxDischargeDepth := 60) [hk]; done
  | ((try dsimp only); (repeat' split) <;> simp +contextual (maxDischargeDepth := 60) [*])

@[simp] theorem keeps_State_setRate {s0 s : State} (hk : Keeps s0 s) (h : Half) (b : Nat) (e : RateEntry) : Keeps s0 (State.setRate s h b e) := by
  unfold State.setRate
  first
  | simp +contextual (maxDischargeDepth := 60) [hk]; done
  | ((try dsimp only); (repeat' split) <;> simp +contextual (maxDischargeDepth := 60) [*])

@[simp] theorem keeps_State_enterTime {s0 s : State} (hk : Keeps s0 s) (ep h : Half) (ns : Nat) : Keeps s0 (State.enterTime s ep h ns) := by
  unfold State.enterTime
  first
  | simp +contextual (maxDischargeDepth := 60) [hk]; done
  | ((try dsimp only); (repeat' split) <;> simp +contextual (maxDischargeDepth := 60) [*])

@[simp] theorem keeps_exportTelemetry {s0 s : State} (hk : Keeps s0 s) (t : Nat) : Keeps s0 (exportTelemetry t s) := by
  unfold exportTelemetry
  first
  | simp +contextual (maxDischargeDepth := 60) [hk]; done
  | ((try dsimp only); (repeat' split) <;> simp +contextual (maxDischargeDepth := 60) [*])

@[simp] theorem keeps_State_takeDump {s0 s : State} (hk : Keeps s0 s) (reason trigger : Nat) : Keeps s0 (State.takeDump s reason trigger) := by
  unfold State.takeDump
  first
  | simp +contextual (maxDischargeDepth := 60) [hk]; done
  | ((try dsimp only); (repeat' split) <;> simp +contextual (maxDischargeDepth := 60) [*])

@[simp] theorem keeps_State_writeDumpControl {s0 s : State} (hk : Keeps s0 s) (v : Nat) : Keeps s0 (State.writeDumpControl s v) := by
  unfold State.writeDumpControl
  first
  | simp +contextual (maxDischargeDepth := 60) [hk]; done
  | ((try dsimp only); (repeat' split) <;> simp +contextual (maxDischargeDepth := 60) [*])

@[simp] theorem keeps_dumpControl {s0 s : State} (hk : Keeps s0 s) (ep : Half) (value : Word64) : Keeps s0 (dumpControl ep value s) := by
  unfold dumpControl
  first
  | simp +contextual (maxDischargeDepth := 60) [hk]; done
  | ((try dsimp only); (repeat' split) <;> simp +contextual (maxDischargeDepth := 60) [*])

@[simp] theorem keeps_State_storeHub {s0 s : State} (hk : Keeps s0 s) (h : HubRegs) : Keeps s0 (State.storeHub s h) := by
  unfold State.storeHub
  first
  | simp +contextual (maxDischargeDepth := 60) [hk]; done
  | ((try dsimp only); (repeat' split) <;> simp +contextual (maxDischargeDepth := 60) [*])

@[simp] theorem keeps_State_writeBuffer {s0 s : State} (hk : Keeps s0 s) (offset v : Nat) : Keeps s0 (State.writeBuffer s offset v) := by
  unfold State.writeBuffer
  have hw := fun hs => (hk.2 hs).2.2.2.2.2.2.2.1
  have he := fun hs => (hk.2 hs).2.2.2.2.2.2.2.2
  split
  · exact ⟨hk.1, fun hs => let k := hk.2 hs; ⟨k.1, k.2.1, k.2.2.1, k.2.2.2.1, k.2.2.2.2.1, k.2.2.2.2.2.1, k.2.2.2.2.2.2.1, wf_writeLE (hw hs) _ _ _, he hs⟩⟩
  · split
    · exact ⟨hk.1, fun hs => let k := hk.2 hs; ⟨k.1, k.2.1, k.2.2.1, k.2.2.2.1, k.2.2.2.2.1, k.2.2.2.2.2.1, k.2.2.2.2.2.2.1, hw hs, wf_writeLE (he hs) _ _ _⟩⟩
    · exact hk

@[simp] theorem keeps_State_writeHubRegister {s0 s : State} (hk : Keeps s0 s) (offset v : Nat) : Keeps s0 (State.writeHubRegister s offset v) := by
  unfold State.writeHubRegister
  first
  | simp +contextual (maxDischargeDepth := 60) [hk]; done
  | ((try dsimp only); (repeat' split) <;> simp +contextual (maxDischargeDepth := 60) [*])

@[simp] theorem keeps_registerWrite {s0 s : State} (hk : Keeps s0 s) (ep : Half) (offset v : Nat) : Keeps s0 (registerWrite ep offset v s) := by
  unfold registerWrite
  first
  | simp +contextual (maxDischargeDepth := 60) [hk]; done
  | ((try dsimp only); (repeat' split) <;> simp +contextual (maxDischargeDepth := 60) [*])

@[simp] theorem keeps_State_writeSlot {s0 s : State} (hk : Keeps s0 s) (offset : Nat) (bytes : List Byte) : Keeps s0 (State.writeSlot s offset bytes) := by
  unfold State.writeSlot
  dsimp only
  refine ⟨hk.1, fun hs => ?_⟩
  obtain ⟨k1, k2, k3, k4, k5, k6, k7, k8⟩ := hk.2 hs
  split
  · exact ⟨k1, k2, k3, k4, k5, k6, wf_writeBytes k7 _ _, k8⟩
  · exact ⟨k1, k2, k3, k4, k5, wf_writeBytes k6 _ _, k7, k8⟩

@[simp] theorem keeps_State_changeLink {s0 s : State} (hk : Keeps s0 s) (ep : Half) (l : Link) : Keeps s0 (State.changeLink s ep l) := by
  unfold State.changeLink
  first
  | simp +contextual (maxDischargeDepth := 60) [hk]; done
  | ((try dsimp only); (repeat' split) <;> simp +contextual (maxDischargeDepth := 60) [*])

@[simp] theorem keeps_writePort {s0 s : State} (hk : Keeps s0 s) (ep : Half) (port v : Nat) : Keeps s0 (writePort ep port v s) := by
  unfold writePort
  first
  | simp +contextual (maxDischargeDepth := 60) [hk]; done
  | ((try dsimp only); (repeat' split) <;> simp +contextual (maxDischargeDepth := 60) [*])

@[simp] theorem keeps_State_i3cSend {s0 s : State} (hk : Keeps s0 s) (bytes : List Byte) : Keeps s0 (State.i3cSend s bytes) := by
  unfold State.i3cSend
  first
  | simp +contextual (maxDischargeDepth := 60) [hk]; done
  | ((try dsimp only); (repeat' split) <;> simp +contextual (maxDischargeDepth := 60) [*])

@[simp] theorem keeps_State_dark {s0 s : State} (hk : Keeps s0 s)  : Keeps s0 (State.dark s) := by
  refine ⟨hk.1, fun hs => ?_⟩
  obtain ⟨k1, k2, k3, k4, k5, k6, k7, k8⟩ := hk.2 hs
  exact ⟨k1, fun p hp => absurd hp List.not_mem_nil, fun p hp => absurd hp List.not_mem_nil, k4, k5, k6, k7, rfl, rfl⟩

@[simp] theorem keeps_State_railsOff {s0 s : State} (hk : Keeps s0 s) (inOrder : Bool) : Keeps s0 (State.railsOff s inOrder) := by
  unfold State.railsOff
  first
  | simp +contextual (maxDischargeDepth := 60) [hk]; done
  | ((try dsimp only); (repeat' split) <;> simp +contextual (maxDischargeDepth := 60) [*])

@[simp] theorem keeps_State_powerUp {s0 s : State} (hk : Keeps s0 s) (t : Nat) : Keeps s0 (State.powerUp s t) := by
  unfold State.powerUp
  first
  | simp +contextual (maxDischargeDepth := 60) [hk]; done
  | ((try dsimp only); (repeat' split) <;> simp +contextual (maxDischargeDepth := 60) [*])

@[simp] theorem keeps_stopAt {s0 s : State} (hk : Keeps s0 s) (stage : Nat) : Keeps s0 (stopAt stage s) := by
  unfold stopAt
  first
  | simp +contextual (maxDischargeDepth := 60) [hk]; done
  | ((try dsimp only); (repeat' split) <;> simp +contextual (maxDischargeDepth := 60) [*])

@[simp] theorem keeps_leaveHalf {s0 s : State} (hk : Keeps s0 s) (h : Half) : Keeps s0 (leaveHalf h s) := by
  unfold leaveHalf
  first
  | simp +contextual (maxDischargeDepth := 60) [hk]; done
  | ((try dsimp only); (repeat' split) <;> simp +contextual (maxDischargeDepth := 60) [*])

@[simp] theorem keeps_bootVerify {s0 s : State} (hk : Keeps s0 s) (loaders slots record : Both Verdict) (keyMatches : Both Bool) (t : Nat) : Keeps s0 (bootVerify loaders slots record keyMatches t s) := by
  unfold bootVerify
  first
  | simp +contextual (maxDischargeDepth := 60) [hk]; done
  | ((try dsimp only); (repeat' split) <;> simp +contextual (maxDischargeDepth := 60) [*])

@[simp] theorem keeps_State_startFenced {s0 s : State} (hk : Keeps s0 s) (b : Nat) : Keeps s0 (State.startFenced s b) := by
  unfold State.startFenced
  first
  | simp +contextual (maxDischargeDepth := 60) [hk]; done
  | ((try dsimp only); (repeat' split) <;> simp +contextual (maxDischargeDepth := 60) [*])

@[simp] theorem keeps_failPart {s0 s : State} (hk : Keeps s0 s) (f : SelfTestFault) : Keeps s0 (failPart f s) := by
  unfold failPart
  first
  | simp +contextual (maxDischargeDepth := 60) [hk]; done
  | ((try dsimp only); (repeat' split) <;> simp +contextual (maxDischargeDepth := 60) [*])

@[simp] theorem keeps_honour {s0 s : State} (hk : Keeps s0 s) (b : Nat) : Keeps s0 (honour b s) := by
  unfold honour
  first
  | simp +contextual (maxDischargeDepth := 60) [hk]; done
  | ((try dsimp only); (repeat' split) <;> simp +contextual (maxDischargeDepth := 60) [*])

@[simp] theorem keeps_trainStack {s0 s : State} (hk : Keeps s0 s) (fitted : List Nat) (slow : List (Fin 8)) (k : Nat) : Keeps s0 (trainStack fitted slow s k) := by
  unfold trainStack
  first
  | simp +contextual (maxDischargeDepth := 60) [hk]; done
  | ((try dsimp only); (repeat' split) <;> simp +contextual (maxDischargeDepth := 60) [*])

@[simp] theorem keeps_selfTest {s0 s : State} (hk : Keeps s0 s) (failures : List SelfTestFault) (fitted : List Nat) (slow : List (Fin 8)) : Keeps s0 (selfTest failures fitted slow s) := by
  unfold selfTest
  first
  | simp +contextual (maxDischargeDepth := 60) [hk]; done
  | ((try dsimp only); (repeat' split) <;> simp +contextual (maxDischargeDepth := 60) [*])

@[simp] theorem keeps_State_wakeDeck {s0 s : State} (hk : Keeps s0 s) (images : Table (Table Wear)) (tj : Int) (t : Nat) (dn : Nat) : Keeps s0 (State.wakeDeck images tj t s dn) := by
  unfold State.wakeDeck
  first
  | simp +contextual (maxDischargeDepth := 60) [hk]; done
  | ((try dsimp only); (repeat' split) <;> simp +contextual (maxDischargeDepth := 60) [*])

@[simp] theorem keeps_startupAssay {s0 s : State} (hk : Keeps s0 s) (tj : Int) (t : Nat) : Keeps s0 (startupAssay tj t s) := by
  unfold startupAssay
  first
  | simp +contextual (maxDischargeDepth := 60) [hk]; done
  | ((try dsimp only); (repeat' split) <;> simp +contextual (maxDischargeDepth := 60) [*])

@[simp] theorem keeps_State_cancelAll {s0 s : State} (hk : Keeps s0 s)  : Keeps s0 (State.cancelAll s) := by
  unfold State.cancelAll
  refine keeps_foldl _ _ ?_ hk
  intro t a ht
  (repeat' split) <;> simp +contextual (maxDischargeDepth := 60) [ht]

theorem keeps_State_flushReceipts {s0 : State} (n k : Nat) {s : State} (h : Keeps s0 s) : Keeps s0 (State.flushReceipts n k s) := by
  induction k generalizing s with
  | zero => exact h
  | succ k ih => exact ih (by simp +contextual (maxDischargeDepth := 60) [h])

@[simp] theorem keeps_State_endEveryItem {s0 s : State} (hk : Keeps s0 s)  : Keeps s0 (State.endEveryItem s) := by
  unfold State.endEveryItem
  dsimp only
  refine keeps_foldl _ _ (fun t a ht => by simp +contextual (maxDischargeDepth := 60) [ht]) (keeps_foldl _ _ ?_ (by simp +contextual (maxDischargeDepth := 60) [hk]))
  intro t a ht
  exact keeps_State_flushReceipts _ _ ht

@[simp] theorem keeps_State_writeBindings {s0 s : State} (hk : Keeps s0 s)  : Keeps s0 (State.writeBindings s) := by
  unfold State.writeBindings
  first
  | simp +contextual (maxDischargeDepth := 60) [hk]; done
  | ((try dsimp only); (repeat' split) <;> simp +contextual (maxDischargeDepth := 60) [*])

@[simp] theorem keeps_shutdown {s0 s : State} (hk : Keeps s0 s) (t : Nat) : Keeps s0 (shutdown t s) := by
  unfold shutdown
  first
  | simp +contextual (maxDischargeDepth := 60) [hk]; done
  | ((try dsimp only); (repeat' split) <;> simp +contextual (maxDischargeDepth := 60) [*])

@[simp] theorem keeps_State_interruptBoard {s0 s : State} (hk : Keeps s0 s) (byte : Nat) : Keeps s0 (State.interruptBoard s byte) := by
  unfold State.interruptBoard
  first
  | simp +contextual (maxDischargeDepth := 60) [hk]; done
  | ((try dsimp only); (repeat' split) <;> simp +contextual (maxDischargeDepth := 60) [*])

@[simp] theorem keeps_State_inputGone {s0 s : State} (hk : Keeps s0 s)  : Keeps s0 (State.inputGone s) := by
  unfold State.inputGone
  first
  | simp +contextual (maxDischargeDepth := 60) [hk]; done
  | ((try dsimp only); (repeat' split) <;> simp +contextual (maxDischargeDepth := 60) [*])

@[simp] theorem keeps_State_setSteps {s0 s : State} (hk : Keeps s0 s) (b : Nat) (f : Island → Island) : Keeps s0 (State.setSteps s b f) := by
  unfold State.setSteps
  first
  | simp +contextual (maxDischargeDepth := 60) [hk]; done
  | ((try dsimp only); (repeat' split) <;> simp +contextual (maxDischargeDepth := 60) [*])

theorem keeps_consumeLoop {s0 : State} (n k : Nat) {s : State} (h : Keeps s0 s) : Keeps s0 (consumeLoop n k s) := by
  induction k generalizing s with
  | zero => exact h
  | succ k ih =>
    unfold consumeLoop
    split
    · exact ih (keeps_State_consumeOne h _)
    · exact h

@[simp] theorem keeps_respond {s0 s : State} (hk : Keeps s0 s) (ep side : Half) (length : Nat) (f : State → List Byte → SpdmResponse) :
    Keeps s0 (respond ep side length f s) := by
  unfold respond
  have h1 := keeps_State_emit hk (.done ep)
  dsimp only
  cases side <;> (repeat' split) <;> simp (maxDischargeDepth := 60) [Both.get, Both.set, h1, hk]

end Sys2Proof.Machine
end

