-- ==== Sys2Proof/Laws/PerInstr.lean ====
section
/-! SUPPORT. One lemma for each constructor of Instr: the parts a command may change never hold the queue of waiting commands,
which only step takes from. -/

namespace Sys2Proof.Laws.Row

open Sys2Proof Sys2Proof.Machine

/-- The command's list of parts leaves the queue out. -/
def Statement (i : Instr) : Prop := i.reach.contains Part.pending = false

theorem bell (ep : Half) (ring : Byte) (word : Word64) : Statement (.bell ep ring word) := rfl
theorem bellPageWriteIgnored (ep : Half) (ring : Byte) (offset size : Nat) : Statement (.bellPageWriteIgnored ep ring offset size) := rfl
theorem load (ep : Half) (ring : Byte) (word : Word64) (cw : List CWrite) : Statement (.load ep ring word cw) := rfl
theorem stop (ep : Half) (ring : Byte) (word : Word64) : Statement (.stop ep ring word) := rfl
theorem drain (ep : Half) (ring : Byte) (word : Word64) : Statement (.drain ep ring word) := rfl
theorem controlReservedCommand (ep : Half) (ring : Byte) (word : Word64) : Statement (.controlReservedCommand ep ring word) := rfl
theorem ringIdle (ring : Byte) : Statement (.ringIdle ring) := rfl
theorem slipConsume (ring : Byte) (cw : List CWrite) : Statement (.slipConsume ring cw) := rfl
theorem groupTableReadDone (item : Nat) (cw : List CWrite) /- From bell to receipt (R71 to R84) -/ : Statement (.groupTableReadDone item cw) := rfl
theorem itemStart (item : Nat) : Statement (.itemStart item) := rfl
theorem itemComplete (item : Nat) : Statement (.itemComplete item) := rfl
theorem receiptWriteDeferred (ring : Byte) /- The work of a started item, by family and opcode (Table 2.6) -/ : Statement (.receiptWriteDeferred ring) := rfl
theorem gemmForward (item : Nat) : Statement (.gemmForward item) := rfl
theorem gemmForwardDigital (item : Nat) : Statement (.gemmForwardDigital item) := rfl
theorem forwardWide (item : Nat) : Statement (.forwardWide item) := rfl
theorem backwardData (item : Nat) : Statement (.backwardData item) := rfl
theorem backwardWeight (item : Nat) : Statement (.backwardWeight item) := rfl
theorem plain (item : Nat) : Statement (.plain item) := rfl
theorem kernelRun (item : Nat) : Statement (.kernelRun item) := rfl
theorem loadImage (item : Nat) (cw : List CWrite) : Statement (.loadImage item cw) := rfl
theorem clearOwnerReduce (item : Nat) : Statement (.clearOwnerReduce item) := rfl
theorem clearRingReduce (item : Nat) : Statement (.clearRingReduce item) := rfl
theorem clearDistribute (item : Nat) : Statement (.clearDistribute item) := rfl
theorem copy (item : Nat) : Statement (.copy item) := rfl
theorem moveLoad (item : Nat) (cw : List CWrite) : Statement (.moveLoad item cw) := rfl
theorem store (item : Nat) : Statement (.store item) := rfl
theorem declare (item : Nat) : Statement (.declare item) := rfl
theorem retire (item : Nat) : Statement (.retire item) := rfl
theorem settle (item : Nat) : Statement (.settle item) := rfl
theorem stash (item : Nat) : Statement (.stash item) := rfl
theorem recallItem (item : Nat) : Statement (.recallItem item) := rfl
theorem signal (item : Nat) : Statement (.signal item) := rfl
theorem wait (item : Nat) : Statement (.wait item) := rfl
theorem take (item : Nat) : Statement (.take item) := rfl
theorem stepWriteStage (item : Nat) : Statement (.stepWriteStage item) := rfl
theorem stepWriteCommit (item : Nat) : Statement (.stepWriteCommit item) := rfl
theorem fenceRing (item : Nat) : Statement (.fenceRing item) := rfl
theorem fenceAccount (item : Nat) /- Tallies (R312 to R333) -/ : Statement (.fenceAccount item) := rfl
theorem tallySignal (source : Word16) (account : BitVec 6) (number : Word16) (n : Nat) (signal : SignalItem) : Statement (.tallySignal source account number n signal) := rfl
theorem waitIssue (item : Nat) : Statement (.waitIssue item) := rfl
theorem heldWaitEnqueue (region : Fin 4) : Statement (.heldWaitEnqueue region) := rfl
theorem waitDeadline (item : Nat) (t : Nat) : Statement (.waitDeadline item t) := rfl
theorem updateStampDeadline (item : Nat) (t : Nat) : Statement (.updateStampDeadline item t) := rfl
theorem vksSignal (teller : Fin 192) (thread : Byte) (number : Word16) (n : Nat) : Statement (.vksSignal teller thread number n) := rfl
theorem vksDrain (teller : Fin 192) (thread : Byte) : Statement (.vksDrain teller thread) := rfl
theorem tallyMove (account : BitVec 6) (number : Word16) (region : Fin 4) (arrived : List TallyOp) /- Analogue arrays (R122 to R190) -/ : Statement (.tallyMove account number region arrived) := rfl
theorem evaluationIssue (aab : Fin 168) (descriptor : BitVec 256) (vector : Nat) (cycle : Nat) (check : BlockCheck) : Statement (.evaluationIssue aab descriptor vector cycle check) := rfl
theorem referenceSequence (aab : Fin 168) (array : Fin 16) (cycle : Nat) : Statement (.referenceSequence aab array cycle) := rfl
theorem outputTileConvert (item : Nat) (tile : Nat) : Statement (.outputTileConvert item tile) := rfl
theorem spillPartial (item : Nat) (vector : Nat) : Statement (.spillPartial item vector) := rfl
theorem assayDue (deck : Fin 21504) (cause : DueCause) (t : Nat) (tj : Int) : Statement (.assayDue deck cause t tj) := rfl
theorem assay (deck : Fin 21504) (t : Nat) (tj : Int) : Statement (.assay deck t tj) := rfl
theorem assayApply (deck : Fin 21504) : Statement (.assayApply deck) := rfl
theorem tileMove (deck newDeck : Fin 21504) (t : Nat) : Statement (.tileMove deck newDeck t) := rfl
theorem oldDeckZeroProgram (deck : Fin 21504) (t : Nat) : Statement (.oldDeckZeroProgram deck t) := rfl
theorem wearLevelCheck (aab : Fin 168) (t : Nat) : Statement (.wearLevelCheck aab t) := rfl
theorem rowRefresh (deck : Fin 21504) (row : Fin 1024) (t : Nat) : Statement (.rowRefresh deck row t) := rfl
theorem wearImageWrite (t : Nat) : Statement (.wearImageWrite t) := rfl
theorem bindingRecordWrite (deck : Fin 21504) (t : Nat) : Statement (.bindingRecordWrite deck t) := rfl
theorem deckZeroProgram (deck : Fin 21504) (t : Nat) /- Digital tensor blocks (R191 to R224) -/ : Statement (.deckZeroProgram deck t) := rfl
theorem tileInstructionIssue (dtb : Fin 96) (item : Nat) (blockRow blockCol kStart : Nat) (range : KRange) (check : BlockCheck) : Statement (.tileInstructionIssue dtb item blockRow blockCol kStart range check) := rfl
theorem dtbTileConvert (item : Nat) (tile : Nat) : Statement (.dtbTileConvert item tile) := rfl
theorem contextRestore (dtb : Fin 96) (item : Nat) (blockRow blockCol : Nat) /- Tellers (R250 to R259) -/ : Statement (.contextRestore dtb item blockRow blockCol) := rfl
theorem workUnitStart (teller : Fin 192) (thread : Byte) (item : Nat) (unit : Nat) (cycle : Nat) (check : BlockCheck) : Statement (.workUnitStart teller thread item unit cycle check) := rfl
theorem secondPassStart (item : Nat) : Statement (.secondPassStart item) := rfl
theorem unitTimeout (teller : Fin 192) (thread : Byte) (cycle : Nat) : Statement (.unitTimeout teller thread cycle) := rfl
theorem tellerStateIssue (teller : Fin 192) (cycle : Nat) : Statement (.tellerStateIssue teller cycle) := rfl
theorem imageLoadToTeller (teller : Fin 192) (slot : Fin 4) (item : Nat) (cycle : Nat) /- SRAM banks and HBM (R260 to R275, R455) -/ : Statement (.imageLoadToTeller teller slot item cycle) := rfl
theorem bankRead (bank : Fin 7168) (word : BankWord) (offset length : Nat) (upsets : List Upset) (reader : Reader) (check : BlockCheck) : Statement (.bankRead bank word offset length upsets reader check) := rfl
theorem bankWrite (bank : Fin 7168) (word : BankWord) (offset : Nat) (bytes : List Byte) : Statement (.bankWrite bank word offset bytes) := rfl
theorem eccWriteback (bank : Fin 7168) : Statement (.eccWriteback bank) := rfl
theorem portStallAgeing (bank : Fin 7168) (reads writes : List PortRequest) : Statement (.portStallAgeing bank reads writes) := rfl
theorem hbmRead (stack : Fin 8) (extent : Nat) (offset length : Nat) (upsets : List Upset) (reader : Reader) : Statement (.hbmRead stack extent offset length upsets reader) := rfl
theorem hbmWrite (stack : Fin 8) (extent : Nat) (offset : Nat) (bytes : List Byte) : Statement (.hbmWrite stack extent offset bytes) := rfl
theorem scrubRead (target : ScrubTarget) (upsets : List Upset) : Statement (.scrubRead target upsets) := rfl
theorem vaultEvict (account : BitVec 6) (toSram : Bool) /- Frames received, and the transport's timers (R285 to R311, R403 to R410) -/ : Statement (.vaultEvict account toSram) := rfl
theorem offer (port : BitVec 5) (frame : VfFrame) (t : Nat) : Statement (.offer port frame t) := rfl
theorem grant (port : BitVec 5) (frame : VfFrame) (t : Nat) : Statement (.grant port frame t) := rfl
theorem refuse (port : BitVec 5) (frame : VfFrame) (t : Nat) : Statement (.refuse port frame t) := rfl
theorem busy (port : BitVec 5) (frame : VfFrame) (t : Nat) : Statement (.busy port frame t) := rfl
theorem offerRetry (item : Nat) (peer : BitVec 20) (t : Nat) : Statement (.offerRetry item peer t) := rfl
theorem heldOfferExpiry (half : Half) (t : Nat) : Statement (.heldOfferExpiry half t) := rfl
theorem data (port : BitVec 5) (frame : VfFrame) (t : Nat) : Statement (.data port frame t) := rfl
theorem ack (port : BitVec 5) (frame : VfFrame) (t : Nat) : Statement (.ack port frame t) := rfl
theorem retransmitTimeout (half : Half) (peer : BitVec 20) (sequence : Word64) (t : Nat) : Statement (.retransmitTimeout half peer sequence t) := rfl
theorem planeProbe (half : Half) (peer : BitVec 20) (plane : BitVec 3) (t : Nat) : Statement (.planeProbe half peer plane t) := rfl
theorem probe (port : BitVec 5) (frame : VfFrame) (t : Nat) : Statement (.probe port frame t) := rfl
theorem abort (port : BitVec 5) (frame : VfFrame) (t : Nat) : Statement (.abort port frame t) := rfl
theorem lostNotice (port : BitVec 5) (frame : VfFrame) (t : Nat) : Statement (.lostNotice port frame t) := rfl
theorem pauseFrame (port : BitVec 5) : Statement (.pauseFrame port) := rfl
theorem peerLost (peer : BitVec 20) (t : Nat) : Statement (.peerLost peer t) := rfl
theorem peerContextClose (half : Half) (peer : BitVec 20) (makeRoom : Bool) (t : Nat) : Statement (.peerContextClose half peer makeRoom t) := rfl
theorem clearDeadline (item : Nat) (t : Nat) /- Sharing (R353 to R358) -/ : Statement (.clearDeadline item t) := rfl
theorem grantPoint (unit : SharedUnit) (ready : List Ready) (t : Nat) : Statement (.grantPoint unit ready t) := rfl
theorem quantumExpiry (unit : SharedUnit) (t : Nat) /- Account commands (R340 to R364, R451) -/ : Statement (.quantumExpiry unit t) := rfl
theorem admitAccount (ep : Half) (account : BitVec 6) (cw : List CWrite) : Statement (.admitAccount ep account cw) := rfl
theorem resize (ep : Half) (account : BitVec 6) (cw : List CWrite) : Statement (.resize ep account cw) := rfl
theorem remove (ep : Half) (account : BitVec 6) : Statement (.remove ep account) := rfl
theorem accountCommandMalformed (ep : Half) (value : Word64) : Statement (.accountCommandMalformed ep value) := rfl
theorem accountCommandDiscarded (ep : Half) (value : Word64) /- Faults, recovery and the charter (R365 to R393, R465, R466) -/ : Statement (.accountCommandDiscarded ep value) := rfl
theorem blockRecovery (block : Word16) (target : Option Word16) : Statement (.blockRecovery block target) := rfl
theorem livenessTimeout (block : Word16) (t : Nat) : Statement (.livenessTimeout block t) := rfl
theorem regionFence (region : Fin 4) (failed : Word16) (poisonedWords : Nat) (t : Nat) : Statement (.regionFence region failed poisonedWords t) := rfl
theorem stewardHeartbeatTimeout (half : Half) (t : Nat) : Statement (.stewardHeartbeatTimeout half t) := rfl
theorem hbmFenced (stack : Fin 8) (t : Nat) : Statement (.hbmFenced stack t) := rfl
theorem bridgeLost (t : Nat) : Statement (.bridgeLost t) := rfl
theorem fenceSelfTest (block : Word16) (passes : Bool) (t : Nat) : Statement (.fenceSelfTest block passes t) := rfl
theorem queuedRecoveryStart (t : Nat) : Statement (.queuedRecoveryStart t) := rfl
theorem charterRenewal (half : Half) (cw : List CWrite) (reachable : Bool) (t : Nat) : Statement (.charterRenewal half cw reachable t) := rfl
theorem leaseExpiry (half : Half) (t : Nat) : Statement (.leaseExpiry half t) := rfl
theorem charterTake (half : Half) (cw : List CWrite) (t : Nat) : Statement (.charterTake half cw t) := rfl
theorem witnessReread (half : Half) (cw : List CWrite) (t : Nat) : Statement (.witnessReread half cw t) := rfl
theorem charterRejection (half : Half) (winning : Word64) : Statement (.charterRejection half winning) := rfl
theorem epochCommand (block : Word16) (issuer : Half) (epoch epochC : Word64) : Statement (.epochCommand block issuer epoch epochC) := rfl
theorem stewardRestart (ep : Half) (value : Word64) : Statement (.stewardRestart ep value) := rfl
theorem fwUpdateStart (ep : Half) (value : Word64) (verdict : Verdict) : Statement (.fwUpdateStart ep value verdict) := rfl
theorem stewardRestartDone (half : Half) (passes : Bool) (verdict : Verdict) (t : Nat) : Statement (.stewardRestartDone half passes verdict t) := rfl
theorem dumpRequest (ep : Half) (value : Word64) : Statement (.dumpRequest ep value) := rfl
theorem auditDump (t : Nat) : Statement (.auditDump t) := rfl
theorem dumpSelectOlder (ep : Half) (value : Word64) : Statement (.dumpSelectOlder ep value) := rfl
theorem dumpWindowRead (ep : Half) (offset size : Nat) /- Time (R328 to R330, R453) -/ : Statement (.dumpWindowRead ep offset size) := rfl
theorem exchangeRateRefresh (half : Half) (block : Word16) (sent marked t : Nat) : Statement (.exchangeRateRefresh half block sent marked t) := rfl
theorem companionTimeWrite (ep : Half) (timeNs : Word64) (t : Nat) : Statement (.companionTimeWrite ep timeNs t) := rfl
theorem companionTimeStale (t : Nat) /- Set-up registers and the SCL window (R394 to R402, R431, R446 to R450) -/ : Statement (.companionTimeStale t) := rfl
theorem witnessBaseWrite (ep : Half) (value : Word64) : Statement (.witnessBaseWrite ep value) := rfl
theorem registerWrite (ep : Half) (offset : Nat) (value : Word64) : Statement (.registerWrite ep offset value) := rfl
theorem registerRetry (ep : Half) (offset : Nat) (write : Bool) : Statement (.registerRetry ep offset write) := rfl
theorem companionRequestError (ep : Half) (type : Byte) (offset size : Nat) : Statement (.companionRequestError ep type offset size) := rfl
theorem reservedOffsetAccess (ep : Half) (offset size : Nat) (write : Bool) : Statement (.reservedOffsetAccess ep offset size write) := rfl
theorem flashWindowWrite (ep : Half) (offset : Nat) (bytes : List Byte) : Statement (.flashWindowWrite ep offset bytes) := rfl
theorem snoop (ep : Half) (line : Nat) : Statement (.snoop ep line) := rfl
theorem sclFlitCrcFailure (ep : Half) (sequence : BitVec 12) : Statement (.sclFlitCrcFailure ep sequence) := rfl
theorem sclLaneFailure (ep : Half) (lane : Fin 12) : Statement (.sclLaneFailure ep lane) := rfl
theorem sclWidthRetry (ep : Half) (lanesWorking : BitVec 12) (t : Nat) : Statement (.sclWidthRetry ep lanesWorking t) := rfl
theorem sclRefclkLoss (ep : Half) /- VF ports (R403, R404) -/ : Statement (.sclRefclkLoss ep) := rfl
theorem vfPortPhyWrite (ep : Half) (port : BitVec 5) (value : Word64) : Statement (.vfPortPhyWrite ep port value) := rfl
theorem vfFullWidthRequest (ep : Half) (port : BitVec 5) (value : Word64) : Statement (.vfFullWidthRequest ep port value) := rfl
theorem vfLaneFailure (port : BitVec 5) (lane : BitVec 3) : Statement (.vfLaneFailure port lane) := rfl
theorem vfTrainingDone (port : BitVec 5) /- Attestation (R441 to R445, R450) -/ : Statement (.vfTrainingDone port) := rfl
theorem spdmGetVersion (ep : Half) (go : SpdmGo) : Statement (.spdmGetVersion ep go) := rfl
theorem spdmGetCapabilities (ep : Half) (go : SpdmGo) : Statement (.spdmGetCapabilities ep go) := rfl
theorem spdmNegotiateAlgorithms (ep : Half) (go : SpdmGo) : Statement (.spdmNegotiateAlgorithms ep go) := rfl
theorem spdmGetDigests (ep : Half) (go : SpdmGo) : Statement (.spdmGetDigests ep go) := rfl
theorem spdmGetCertificate (ep : Half) (go : SpdmGo) : Statement (.spdmGetCertificate ep go) := rfl
theorem spdmChallenge (ep : Half) (go : SpdmGo) : Statement (.spdmChallenge ep go) := rfl
theorem spdmGetMeasurements (ep : Half) (go : SpdmGo) : Statement (.spdmGetMeasurements ep go) := rfl
theorem spdmUnsupportedRequest (ep : Half) (go : SpdmGo) : Statement (.spdmUnsupportedRequest ep go) := rfl
theorem spdmBadLength (ep side : Half) (length : BitVec 13) /- Telemetry and board management (R413, R456 to R462) -/ : Statement (.spdmBadLength ep side length) := rfl
theorem sampleMark (half : Half) (t : Nat) : Statement (.sampleMark half t) := rfl
theorem telemetryExport (t : Nat) : Statement (.telemetryExport t) := rfl
theorem i3cPageSelect (page : Byte) : Statement (.i3cPageSelect page) := rfl
theorem i3cPageRead (length : Nat) : Statement (.i3cPageRead length) := rfl
theorem i3cPageUpdate (half : Half) (t : Nat) : Statement (.i3cPageUpdate half t) := rfl
theorem i3cPageStale (t : Nat) : Statement (.i3cPageStale t) := rfl
theorem entdaa (address : BitVec 7) : Statement (.entdaa address) := rfl
theorem setdasa (static : BitVec 7) (address : BitVec 7) : Statement (.setdasa static address) := rfl
theorem rstdaa : Statement .rstdaa := rfl
theorem getpid : Statement .getpid := rfl
theorem getbcr : Statement .getbcr := rfl
theorem getdcr : Statement .getdcr := rfl
theorem getstatus : Statement .getstatus := rfl
theorem getmwl : Statement .getmwl := rfl
theorem getmrl : Statement .getmrl := rfl
theorem enec (events : Byte) : Statement (.enec events) := rfl
theorem disec (events : Byte) /- Power, start-up and throttling (R420 to R445) -/ : Statement (.disec events) := rfl
theorem enableRise (t : Nat) : Statement (.enableRise t) := rfl
theorem bootVerify (loaders : Both Verdict) (slots : Both Verdict) (record : Both Verdict) (keyMatches : Both Bool) (t : Nat) : Statement (.bootVerify loaders slots record keyMatches t) := rfl
theorem selfTest (failures : List SelfTestFault) (fittedGib : List Nat) (trainFailed : List (Fin 8)) (coldest : Int) (t : Nat) : Statement (.selfTest failures fittedGib trainFailed coldest t) := rfl
theorem startupAssay (tj : Int) (t : Nat) : Statement (.startupAssay tj t) := rfl
theorem ready (t : Nat) : Statement (.ready t) := rfl
theorem enableFallDuringStartup (t : Nat) : Statement (.enableFallDuringStartup t) := rfl
theorem shutdown (t : Nat) : Statement (.shutdown t) := rfl
theorem inputOutOfRange (mv : Nat) (since t : Nat) : Statement (.inputOutOfRange mv since t) := rfl
theorem thermtrip (block : Word16) (celsius8 : Int) (t : Nat) : Statement (.thermtrip block celsius8 t) := rfl
theorem droopStep (block : Word16) (millivoltPermille : Nat) (t : Nat) : Statement (.droopStep block millivoltPermille t) := rfl
theorem droopRecover (block : Word16) (permille : Nat) (t : Nat) : Statement (.droopRecover block permille t) := rfl
theorem temperatureStep (block : Word16) (celsius8 : Int) (t : Nat) : Statement (.temperatureStep block celsius8 t) := rfl
theorem temperatureRecover (block : Word16) (celsius8 : Int) (t : Nat) : Statement (.temperatureRecover block celsius8 t) := rfl
theorem powerLimit (watts : Nat) : Statement (.powerLimit watts) := rfl
theorem inputInRange (mv : Nat) (t : Nat) : Statement (.inputInRange mv t) := rfl
theorem stewardHeartbeat (half : Half) (t : Nat) : Statement (.stewardHeartbeat half t) := rfl
theorem livenessPulse (block : Word16) (t : Nat) : Statement (.livenessPulse block t) := rfl
theorem hbmRefresh (stack : Fin 8) (celsius : Int) : Statement (.hbmRefresh stack celsius) := rfl

end Sys2Proof.Laws.Row
end

