-- ==== Sys2Proof/Tests/Slice0.lean ====
section
/-! SUPPORT. Tests: the checks of WellFormed refuse an ill-formed command, single steps have the values the manual gives, and every
statement's hypotheses are met by a concrete state. -/

namespace Sys2Proof.Tests

open Sys2Proof Sys2Proof.Machine

set_option Elab.async false
set_option maxRecDepth 20000
set_option exponentiation.threshold 1100

/-! ### The states of the tests -/

/-- Ready: power good, links trained, the west steward holds the charter. -/
def up : State :=
  { power := { powerGood := true, stage := 7, enable := true, inputInRange := true, readyPin := true }
    links := ⟨{ trained := true }, { trained := true }⟩
    stewards := ⟨{ holder := true, epoch := 1 }, {}⟩ }

/-- A word with its complement. -/
def comp (v : Nat) : Word64 := BitVec.ofNat 64 (withComplement 32 v)

/-- A slip from its family, opcode, handles A to D and parameters. -/
def slip (family op a b c d p0 p1 : Nat) : Nat :=
  0x30 + field 8 8 family + field 16 8 op + field 64 64 a + field 128 64 b + field 192 64 c + field 256 64 d + field 320 64 p0 + field 384 32 p1

/-- Ready, with account 1, ring 0 of it running and its completion ring 1. -/
def run : State :=
  { up with accounts := [(1, { params := { contextSlots := 1 } })]
            rings := [(0, { state := .running, base := 4096, log2Size := 4, account := 1, completionRing := 1, shadow := 256 }),
                      (1, { state := .running, base := 8192, log2Size := 4, account := 1, completion := true, irqData := 7, shadow := 512 })] }

/-- `run` with other rings. -/
def rings (r0 r1 : Ring → Ring) : State := { run with rings := [(0, r0 (run.ring 0)), (1, r1 (run.ring 1))] }

/-- `run` with one item. -/
def item (x : Item) : State := { run with items := [(5, { x with account := 1 })], nextItem := 6 }

/-- What holds of an option's value. -/
theorem of_some {α : Type} {p : α → Prop} (o : Option α) (h : match o with | some a => p a | none => True) : ∀ a, o = some a → p a := by
  intro a e; subst e; exact h

/-! ### Ill-formed commands are refused by their checks -/

def badFrame : VfFrame := { destMac := [], sourceMac := [], etherType := 0, header := { type := 0xFF, sourcePort := 0, source := 0, account := 0, dest := 0, incarnation := 0, sequence := 0 }, payload := [] }

/-- One ill-formed command for each check. -/
def illFormedCommands : List Instr :=
  [.bellPageWriteIgnored .west 0 8 8, .load .west 0 (comp 2) [], .stop .west 0 (comp 1), .drain .west 0 (comp 2),
   .controlReservedCommand .west 0 (comp 3), .tallySignal 0xFFFF 1 0 1 ⟨0, []⟩, .tallySignal 0 1 0 1 ⟨0, [.wait 0xFFFF 1 0]⟩,
   .tallyMove 1 0 0 [.wait 0xFFFF 1 0], .bankRead 0 ⟨.teller, 65536⟩ 0 1 [] ⟨0, .object⟩ .ok, .bankRead 0 ⟨.teller, 0⟩ 0 4 [⟨4, 1⟩] ⟨0, .object⟩ .ok,
   .bankWrite 0 ⟨.teller, 0⟩ 64 [1], .portStallAgeing 0 [⟨.teller, 0, 65, 0, .object, false, [], 0⟩] [], .portStallAgeing 0 [] [⟨.teller, 0, 1, 0, .object, false, [], 0⟩],
   .hbmRead 0 0 0 0 [] ⟨0, .object⟩, .hbmWrite 0 0 0 [], .scrubRead (.sram 0 0) [⟨4, 1⟩], .offer 0 badFrame 0, .grant 0 badFrame 0,
   .refuse 0 badFrame 0, .busy 0 badFrame 0, .data 0 badFrame 0, .ack 0 badFrame 0, .probe 0 badFrame 0, .abort 0 badFrame 0,
   .lostNotice 0 badFrame 0, .grantPoint (.port 0 0) [] 0, .quantumExpiry (.array 0) 0, .accountCommandMalformed .west 1,
   .blockRecovery 0x8000 none, .blockRecovery 0 (some 0xFFFF), .livenessTimeout 0x8000 0, .livenessPulse 0xFFFF 0, .regionFence 0 0x2000 0 0,
   .fenceSelfTest 0xFFFF false 0, .epochCommand 0xFFFF .west 0 0, .dumpRequest .west 0, .dumpSelectOlder .west 1, .dumpWindowRead .west 0 0,
   .dumpWindowRead .west 4000 97, .exchangeRateRefresh .west 0xFFFF 0 0 0, .exchangeRateRefresh .west 0 1 0 0, .registerWrite .west 4 0,
   .registerWrite .west 0x58 0, .registerRetry .west 0 false, .companionRequestError .west 0 0 4096, .reservedOffsetAccess .west 0 8 false,
   .reservedOffsetAccess .west 0x100000 8 true, .flashWindowWrite .west 32 [], .snoop .west 63, .vfFullWidthRequest .west 0 0,
   .spdmBadLength .west .west 4096, .i3cPageRead 65, .selfTest [] [0] [] 0 0, .selfTest [⟨0x4001, 0x1234, 0⟩] (List.replicate 8 16) [] 0 0,
   .inputOutOfRange 38000 0 0, .inputInRange 37999 0, .thermtrip 0xFFFF 0 0, .droopStep 0xFFFF 0 0, .droopRecover 0xFFFF 0 0,
   .temperatureStep 0xFFFF 0 0, .temperatureRecover 0xFFFF 0 0]

theorem test_illFormed_refused : illFormedCommands.all (fun i => !i.wf) = true := by decide

theorem test_illFormed_faults : ∀ i ∈ [Instr.snoop .west 63, .i3cPageRead 65, .epochCommand 0xFFFF .west 0 0, .hbmWrite 0 0 0 []],
    exec i up = .fault .illFormed := by
  intro i h; simp only [List.mem_cons, List.not_mem_nil, or_false] at h; rcases h with rfl | rfl | rfl | rfl <;> rfl

/-! ### One step has the value that the manual gives -/

theorem test_idle_queue : step up = .next up := rfl

theorem test_tables_name_no_word : decodeTableWord 8 0 = none := rfl

/-- R46, R331: 2^31 is not ahead; one less is. -/
theorem test_ahead : ahead32 (2 ^ 31) 0 = false ∧ ahead32 (2 ^ 31 - 1) 0 = true ∧ ahead32 0 (2 ^ 32 - 1) = true := by decide

/-- Object `k` of account 1 and a kind (Table 2.7). -/
def obj (kind k : Nat) : Nat := mkHandle 1 kind k

/-- `item` with tensors of account 1, by number. -/
def held (l : List (Nat × Tensor)) (x : Item) : State := { item x with tensors := l.map fun p => (obj 0 p.1, p.2) }

/-- A 1 × 1 BF16 activation that holds 1.0. -/
def one : Tensor := { rows := 1, cols := 1, fmt := .bf16, codes := [(0, 0x3F80)] }

/-- A 1 × 1 weight of format AW3 on deck-array 0. -/
def weight : Tensor := { rows := 1, cols := 1, fmt := .aw3, cls := 1, tiles := [(0, [⟨0, 0, 1, 0, 1⟩])], scales := [(0, 0x3F800000)] }

/-- A running item with a slip. -/
def runs (w : Nat) : Item := { stage := 2, slip := w, family := slipFamily w, opcode := slipOpcode w, account := 1 }
def fresh (w : Nat) : Item := { slip := w, family := slipFamily w, opcode := slipOpcode w, account := 1 }

/-! ### Each statement's hypotheses are met: rings -/

theorem witness_BellAheadIsAccepted :
    endpointUp run .west = true ∧ bits (comp 16).toNat 63 32 = onesComplement 32 (bits (comp 16).toNat 31 0) ∧ (run.ring 0).state ≠ .idle ∧ (run.ring 0).flips = [] ∧
    ahead32 16 ((run.ring 0).kept1 .west) = true ∧ sub32 16 (run.ring 0).consumer ≤ 2 ^ (run.ring 0).log2Size ∧
    (let s := rings id fun r => { r with producer := 3 }
     (s.ring 1).state ≠ .idle ∧ ahead32 3 ((s.ring 1).kept1 .west) = true ∧ ahead32 3 (s.ring 1).producer = false) := by decide

theorem witness_BellBeyondTheBoundSetsError :
    endpointUp run .east = true ∧ bits (comp 17).toNat 63 32 = onesComplement 32 17 ∧ (run.ring 0).completion = false ∧
    (run.ring 0).unsound ((run.ring 0).bellReads .east) = false ∧ (run.ring 1).unsound ((run.ring 1).bellReads .east) = false ∧ ahead32 17 ((run.ring 0).kept1 .east) = true ∧ 2 ^ (run.ring 0).log2Size < sub32 17 (run.ring 0).consumer ∧
    (run.ring 1).completion = true ∧ ahead32 1 ((run.ring 1).kept1 .east) = true ∧ ahead32 1 (run.ring 1).producer = true := by decide

theorem witness_BellTurnedAway :
    bits (comp 0).toNat 63 32 = onesComplement 32 0 ∧ (run.ring 0).state ≠ .idle ∧ ahead32 0 ((run.ring 0).kept1 .west) = false ∧
    (run.ring 0).unsound ((run.ring 0).bellReads .west) = false ∧
    (let r := (rings (fun r => { r with flips := [(0, 1)] }) id).ring 0
     r.state ≠ .idle ∧ r.unsound (r.bellReads .west) = true) ∧ (run.ring 2).state = .idle ∧ bits (1 : Word64).toNat 63 32 ≠ onesComplement 32 1 := by decide

theorem witness_IgnoredBellPageWritesAreCounted :
    endpointUp up .west = true ∧ ignoredBellWrite 0 4096 = true ∧ controlSound (comp 4).toNat = true ∧ controlCommand (comp 4).toNat = 0 := by decide

/-- A submission ring's entry of account 1 with completion ring 1. -/
def entry0 : Nat := 4096 + field 64 5 4 + field 72 6 1 + field 80 8 1 + field 128 64 256

theorem witness_LoadStartsOrFails :
    controlSound (comp 1).toNat = true ∧ controlCommand (comp 1).toNat = 1 ∧
    (let s := rings (fun r => { r with state := .idle }) id
     (s.ring 0).state = .idle ∧ loadOk s (readLE (applyStores s.cmem [⟨0, 32, entry0⟩]) 0 32) = true ∧
     loadOk s (readLE (applyStores s.cmem []) 0 32) = false) ∧ (run.ring 0).state ≠ .idle := by decide

theorem witness_StopAndDrain :
    controlCommand (comp 3).toNat = 3 ∧ controlCommand (comp 2).toNat = 2 ∧
    ¬((run.ring 0).state = .idle ∨ ((run.ring 0).completion = true ∧ ringInUse run 0 = true)) ∧
    ((run.ring 1).completion = true ∧ ringInUse run 1 = true) ∧ (run.ring 9).state = .idle ∧
    (let s := item { stage := 2 }; (find s.items 5).map Item.ring = some 0 ∧ (find s.items 5).map Item.stage = some 2) := by decide

theorem witness_StoppingRingGoesIdle :
    let s := rings (fun r => { r with state := .stopping }) id
    (s.ring 0).state = .stopping ∧ inFlight s 0 = 0 := by decide

theorem witness_AnnouncedSlipIsConsumed :
    let s := rings (fun r => { r with bellWest := 1, bellEast := 1 }) id
    consumes s = true ∧ mayConsume s 0 = true ∧ (s.ring 0).flips = [] ∧ ((s.ring 0).consumer + 1) % 2 ^ 32 = (s.ring 0).bellIndex := by decide

/-! ### Items -/

def copySlip : Nat := slip 4 0 (obj 0 1) (obj 0 2) 0 0 0 0

theorem witness_ItemStartChecksAndWaits :
    2 ≤ (runs 0).stage ∧ itemsStart run = true ∧
    previousFailed { fresh (copySlip + 2 ^ 25 + 1) with prev := some 1, prevStatus := some stFinal } = true ∧
    (let x := fresh (copySlip + 2 ^ 479)
     previousFailed x = false ∧ startConditions (held [] x) 5 x = false) ∧
    (let x := fresh copySlip
     let u := fun l => (held l x).serveRing x
     startConditions (held [] x) 5 x = true ∧ ringTurn (held [] x) x = true ∧ startCheck (u []) 5 x = .failed stFinal 0 ∧
     startCheck (u [(1, one), (2, { one with rows := 2 })]) 5 x = .malformed 8 ∧
     startCheck (u [(1, { one with rows := 0 }), (2, { one with rows := 0 })]) 5 x = .ok ∧
     zeroSize (u [(1, { one with rows := 0 }), (2, { one with rows := 0 })]) x.slip = true) ∧
    (let x := { fresh copySlip with ring := 2 }
     ringTurn { held [] x with items := [(4, fresh copySlip), (5, { x with account := 1 })] } x = false) := by decide

/-- The hypotheses of MayStart but the item's own entry. -/
def mayStart (s : State) (x : Item) : Bool :=
  decide (find s.items 5 = some x) && decide (x.stage ≤ 1) && itemsStart s && !previousFailed x && startConditions s 5 x &&
  ringTurn s x && decide (startCheck (s.serveRing x) 5 x = .ok) && !zeroSize (s.serveRing x) x.slip && !versionWaits (s.serveRing x) 5 x

theorem mayStart_MayStart {s : State} {x : Item} (h : mayStart s x = true) : MayStart s 5 x := by
  simp only [mayStart, Bool.and_eq_true, Bool.not_eq_true', decide_eq_true_eq] at h
  obtain ⟨⟨⟨⟨⟨⟨⟨⟨h1, h2⟩, h3⟩, h4⟩, h5⟩, h6⟩, h7⟩, h8⟩, h9⟩ := h
  exact ⟨h1, h2, h3, h4, h5, h6, h7, h8, h9⟩

def kernelImage : Image := { length := 4160, states := 1, inputs := 2, outputs := 1, vks := 0x10 }
def runSlip : Nat := slip 2 0 (obj 0 1) (obj 0 2) 0 (obj 2 1) 1 0
def kernelState (l : List (Nat × Tensor)) (x : Item) : State := { held l x with images := [(obj 2 1, kernelImage)] }
def gemmSlip : Nat := slip 1 0 (obj 0 1) (obj 0 2) (obj 0 3) 0 (field 32 8 1) 0
def digitalSlip : Nat := slip 1 0 (obj 0 1) (obj 0 2) (obj 0 3) 0 0 0
def settleSlip : Nat := slip 5 0 (obj 0 1) (obj 0 2) 0 0 0 0
def stashSlip : Nat := slip 6 0 (obj 0 1) 0 0 0 1 0
def master : Tensor := { rows := 1, cols := 1, fmt := .fp32, cls := 4 }
def stepped : StepCopy := { words := [1, 0, 0, 0, 0, 0, 0, 0], complements := (2 ^ 64 - 2) :: List.replicate 7 (2 ^ 64 - 1) }

theorem witness_ItemStartRuns_plain : mayStart (held [(1, one), (2, one)] (fresh copySlip)) (fresh copySlip) = true ∧
    isGemm copySlip = false ∧ isRun copySlip = false ∧ isOp famSettle 0 copySlip = false ∧ isClear copySlip = false ∧ isOp famStash 0 copySlip = false := by
  decide

theorem witness_ItemStartRuns_run : let s := kernelState [(1, one), (2, one)] (fresh runSlip)
    mayStart s (fresh runSlip) = true ∧ isRun runSlip = true ∧ isUpdate (s.serveRing (fresh runSlip)) runSlip = false := by decide

theorem witness_ItemStartRuns_analogue : let s := held [(1, one), (2, one), (3, weight)] (fresh gemmSlip)
    let u := s.serveRing (fresh gemmSlip)
    mayStart s (fresh gemmSlip) = true ∧ isGemm gemmSlip = true ∧ find s.tensors (slipC gemmSlip) = some weight ∧ isAnalogue u gemmSlip = true ∧
    settleWaiting u (slipC gemmSlip) = false ∧ holdsFree u weight = true ∧ heldDecks u weight = [0] := by decide

theorem witness_ItemStartRuns_digital : let s := held [(1, one), (2, one), (3, one)] (fresh digitalSlip)
    mayStart s (fresh digitalSlip) = true ∧ isAnalogue (s.serveRing (fresh digitalSlip)) digitalSlip = false ∧
    (find s.tensors (slipC digitalSlip)).isSome = true ∧ (withOperand (s.serveRing (fresh digitalSlip)) (fresh digitalSlip)).isSome = true := by decide

theorem witness_ItemStartRuns_update :
    let w := slip 2 0 (obj 0 1) (obj 0 2) 0 (obj 2 1) 1 0
    let s := kernelState [(1, master), (2, { one with cls := 2 })] (fresh w)
    let s' : State := { s with accounts := [(1, { step := ⟨stepped, stepped⟩ })] }
    let u := (s.serveRing (fresh w)).readRecord 1
    let u' := (s'.serveRing (fresh w)).readRecord 1
    mayStart s (fresh w) = true ∧ isRun w = true ∧ isUpdate (s.serveRing (fresh w)) w = true ∧ u.account? 1 ≠ none ∧ find u.tensors (slipA w) = some master ∧
    ((u.account? 1).bind Account.record) = some [0, 0, 0, 0, 0, 0, 0, 0] ∧
    mayStart s' (fresh w) = true ∧ ((u'.account? 1).bind Account.record) = some stepped.words ∧ master.stamp < stepped.words.headD 0 ∧
    otherWriter u' 5 (slipA w) = false := by decide

theorem witness_ItemStartRuns_settle :
    let s := held [(1, { weight with pinned := some 0 }), (2, master)] (fresh settleSlip)
    let s' := held [(1, weight), (2, master)] (fresh settleSlip)
    mayStart s (fresh settleSlip) = true ∧ isOp famSettle 0 settleSlip = true ∧ pinnedNow (s.serveRing (fresh settleSlip)) (slipA settleSlip) = true ∧
    mayStart s' (fresh settleSlip) = true ∧ pinnedNow (s'.serveRing (fresh settleSlip)) (slipA settleSlip) = false ∧
    settleRuns (s'.serveRing (fresh settleSlip)) (slipA settleSlip) = false ∧
    ∀ p ∈ s'.items, p.2.stage ≤ 1 → isOp famSettle 0 p.2.slip = true → p.2.stampSince.isSome = true → 5 ≤ p.1 := by decide

theorem witness_ItemStartRuns_stash : let x : Item := { fresh stashSlip with decision := .marked }
    let s := held [(1, one)] x
    mayStart s x = true ∧ isOp famStash 0 stashSlip = true ∧ (find s.tensors (slipA stashSlip)).isSome = true ∧ x.decision ≠ .none := by decide

/-- A completion ring of 16 slots that is full. -/
def fullRing (x : Item) : State := { item x with rings := [(0, run.ring 0), (1, { run.ring 1 with producer := 16 })] }

theorem witness_ItemCompleteWritesOneReceipt :
    let x : Item := { stage := 3, account := 1, slip := copySlip }
    let s := item x
    find s.items 5 = some x ∧ x.stage = 3 ∧ x.ring ≠ (s.ring x.ring).completionRing ∧ ringFull (s.ring 1) = false ∧ (s.ring 1).kept = [] ∧ (s.ring 1).flips = [] ∧
    (s.account? x.account).all (fun a => !a.removing) = true ∧ postSignalTally 1 x.slip = none ∧
    (let w := copySlip + 2 ^ 511 + field 496 15 1
     let y : Item := { x with slip := w }
     let u := fun n => ({ item y with tallies := [(obj 1 0, ({ capacity := 1, account := 1 } : Tally).setCount n)] } : State)
     let q := fun n => ((u n).signalTally (obj 1 0) (amountField (slipPostSignal w)) (issuer (u n)) 5).2
     postSignalTally 1 w = some (obj 1 0) ∧ q 0 = none ∧ q 1 = some 0x2101) := by decide

theorem witness_KeptReceiptsAreWrittenInOrder :
    let x : Item := { stage := 4, account := 1 }
    let s : State := { item x with rings := [(0, run.ring 0), (1, { run.ring 1 with kept := [5] })] }
    ringFull ((fullRing x).ring 1) = true ∧ 5 ∉ ((fullRing x).ring 1).kept ∧ (run.ring 1).kept = [] ∧ (run.ring 1).flips = [] ∧
    (s.ring 1).kept = [5] ∧ ringFull (s.ring 1) = false ∧ find s.items 5 = some x ∧ (s.ring x.ring).completionRing = 1 ∧ x.ring ≠ 1 := by decide

/-! ### Products, moves and kernels -/

def analogueState (x : Item) : State := held [(1, one), (2, one), (3, weight)] x
def digitalState (x : Item) : State := held [(1, one), (2, one), (3, one)] x
def backSlip (op : Nat) (p0 : Nat) : Nat := slip 1 op (obj 0 1) (obj 0 2) (obj 0 3) 0 p0 0

/-- A vector of 33 outliers over a level of 0.5, on a weight of 33 rows: the last one is excess. -/
def wide : Tensor := { rows := 1, cols := 33, fmt := .bf16, codes := (List.range 33).map fun k => (k, 0x3F80) }
def tallWeight : Tensor := { weight with rows := 33, tiles := [(0, [⟨0, 0, 33, 0, 1⟩])] }
def spillSlip : Nat := slip 1 0 (obj 0 1) (obj 0 2) (obj 0 3) 0 (field 32 8 1 + 0x3F000000) 0

theorem witness_DigitalGemmFormsEveryElement :
    let x := runs digitalSlip
    let s := digitalState x
    let t := fun (b : Tensor) => held [(1, one), (2, b), (3, one)] x
    find s.items 5 = some x ∧ x.stage = 2 ∧ readsUnsound s x = false ∧ isOp famGemm 0 x.slip = true ∧ isDigital s x.slip = true ∧ x.work.final = false ∧
    poisonOf s [slipB x.slip, slipC x.slip, slipD x.slip] = 0 ∧ (productOf s x).isSome = true ∧
    poisonOf (t { one with poison := 0x2502 }) [slipB x.slip, slipC x.slip, slipD x.slip] ≠ 0 ∧ readsUnsound (t { one with poison := 0x2502 }) x = false ∧
    productOf (held [(1, one)] x) x = none ∧ readsUnsound (t { one with flips := [(0, 1)] }) x = true ∧ isDigital (t { one with flips := [(0, 1)] }) x.slip = true ∧
    isOp famGemm 1 (backSlip 1 0) = true ∧ isOp famGemm 2 (backSlip 2 0) = true ∧ isOp famGemm 3 (backSlip 3 0) = true ∧
    isOp famGemm 4 (backSlip 4 0) = true := by decide

theorem witness_AnalogueForwardFormsEveryElement :
    let x := runs gemmSlip
    let s := analogueState x
    let s' : State := { s with decks := [(0, { assayed := true })] }
    let o := runs spillSlip
    let bare : State := { held [(1, one), (2, wide), (3, tallWeight)] o with accounts := [(1, {})] }
    find s.items 5 = some x ∧ x.stage = 2 ∧ readsUnsound s x = false ∧ isAnalogue s x.slip = true ∧ x.work.final = false ∧
    poisonOf s [slipB x.slip, slipD x.slip] = 0 ∧ find s.tensors (slipB x.slip) = some one ∧ find s.tensors (slipC x.slip) = some weight ∧
    find s.tensors (slipA x.slip) = some one ∧ anyHomeless s weight = false ∧ (paramsOf s x.account).contextSlots ≠ 0 ∧
    mayEvaluate s x one (evaluatedParts s weight) = false ∧ mayEvaluate s' x one (evaluatedParts s' weight) = true ∧ anyHomeless s' weight = false ∧
    (forwardOperand s' x weight).isSome = true ∧
    poisonOf (held [(1, one), (2, { one with poison := 0x2502 }), (3, weight)] x) [slipB x.slip, slipD x.slip] ≠ 0 ∧
    readsUnsound bare o = false ∧ poisonOf bare [slipB o.slip, slipD o.slip] = 0 ∧ (paramsOf bare 1).contextSlots = 0 ∧
    needsSpill bare o wide tallWeight = true := by decide +kernel

/-- The converted tile of a 1 × 1 output that holds `v`. -/
def tileOf (t : Tensor) (x : Item) : Conversion :=
  tileConversion t.openVersion false (fun _ => 0) 0 fun r j => F32.val (resultAt x (r * t.openVersion.cols + j))

theorem witness_OutputTilesConvertOnce :
    let x : Item := { runs gemmSlip with work := { final := true, results := [(0, 0x3F800000)] } }
    let d : Item := { runs digitalSlip with work := { final := true, results := [(0, 0x7F000000)] } }
    let a : Tensor := { one with fmt := .f8, sExp := 0 }
    let n : Item := runs gemmSlip
    readsUnsound (analogueState x) x = false ∧ find (analogueState x).tensors (slipA x.slip) = some one ∧ isAnalogue (analogueState x) x.slip = true ∧
    isDigital (digitalState d) d.slip = true ∧ find (analogueState x).tensors (slipB x.slip) = some one ∧
    find (analogueState x).tensors (slipC x.slip) = some weight ∧ (tileFormed (analogueState x) x one weight one 0).isSome = true ∧
    tileFormed (analogueState n) n one weight one 0 = none ∧ tileFinal d .f8 1 0 = true ∧ tileFinal (runs digitalSlip) .bf16 1 0 = false ∧
    tileCount one.rows one.cols ≤ 1 ∧ 0 < tileCount one.rows one.cols ∧ 0 ∉ x.work.tiles ∧ one.writable 5 = true ∧
    ({ one with began := true, beganBy := 4 } : Tensor).writable 5 = false ∧ (insertNat x.work.tiles 0).length = tileCount one.rows one.cols ∧
    (insertNat x.work.tiles 0).length ≠ tileCount 33 1 ∧ ({ x with stopping := true } : Item).stopping = true ∧
    (tileOf one x).cap ≤ 15 ∧ 15 < (tileOf a d).cap := by decide +kernel

theorem witness_SpillPartialsAreFormed :
    let x := runs spillSlip
    let s := held [(1, one), (2, wide), (3, tallWeight)] x
    let parts := (evaluatedParts s tallWeight).filter fun p => !spillArrived false x wide 0 p
    find s.items 5 = some x ∧ readsUnsound s x = false ∧ isAnalogue s x.slip = true ∧ x.work.final = false ∧ find s.tensors (slipB x.slip) = some wide ∧
    find s.tensors (slipC x.slip) = some tallWeight ∧ 0 < wide.rows ∧ (paramsOf s 1).contextSlots ≠ 0 ∧ (paramsOf s x.account).clip = false ∧
    parts = [⟨0, 0, 33, 0, 1⟩] ∧ (∀ p ∈ parts, p.cols ≤ 1024 ∧ ∀ q ∈ parts, q.deck = p.deck → q = p) ∧
    ((evaluatedParts s weight).filter fun p => !spillArrived false x one 0 p) = [] ∧
    (paramsOf { s with accounts := [(1, {})] } 1).contextSlots = 0 := by decide +kernel

/-- The image of a block of 1 × 1 under a check of its planes. -/
def blockImage : ContextImage :=
  { rows := 1, cols := 1, first := 0, group := 8, resident := false, orvane := false, saver := 0, item := 5, nextStep := 8192, lambda := 0, acc := [],
    residentAcc := [], flags := [], pending := [], span := none, epoch := 0, epochC := 2 ^ 64 - 1, check := 0 }

theorem planes_check (c : ContextImage) (k : Nat) : ({ c with check := k } : ContextImage).planes = c.planes := rfl

theorem witness_TileInstructionsAdvanceOneBlock :
    let x := runs digitalSlip
    let s := held [(1, one), (2, { one with cols := 129 }), (3, { one with rows := 129 })] x
    let at_ := fun (n : Nat) => ({ s with dtbs := [(0, { item := some 5, nextStep := n })] } : State)
    let some_ := fun (s : State) (start : Nat) => match productOf s x with
      | some p => (blockPresent s 0 5 0 0 start 8 x p).isSome
      | none => false
    readsUnsound s x = false ∧ isGemm x.slip = true ∧ isDigital s x.slip = true ∧ ((productOf s x).map Product.length) = some 129 ∧
    blockIssues s (dtbBlock 0) = true ∧ x.work.final = false ∧ 0 < ceilDiv 1 256 ∧ 0 < ceilDiv 1 128 ∧ rangeOk 129 0 128 = true ∧
    rangeOk 129 128 1 = true ∧ (s.dtb 0).busyUntil ≤ 0 ∧ ((productOf s x).all fun p => decide (rangeBytes p 0 0 128 ≤ operandSpace)) = true ∧
    some_ s 0 = true ∧ some_ (at_ 128) 128 = true ∧ some_ (at_ 0) 128 = false ∧ 0 + 128 ≠ groupEnd 129 0 8 ∧ 128 + 1 = groupEnd 129 0 8 ∧
    recurs .ok = false ∧ recurs (.cleared 1) = false ∧ recurs (.recurring 1) = true ∧ (s.dtb 0).item = none := by decide +kernel

def restoring (c : ContextImage) : Item := { runs digitalSlip with work := { images := [(nodeKey 0 0, c)] } }

theorem restoring_image (c : ContextImage) : imageToRestore (digitalState (restoring c)) 5 0 (restoring c) = some c := by
  simp [imageToRestore, digitalState, held, item, run, up, restoring, nodeKey]

theorem witness_TileInstructionsAdvanceOneBlock_restore :
    let c : ContextImage := { blockImage with check := crc32 blockImage.planes }
    imageToRestore (digitalState (restoring c)) 5 0 (restoring c) = some c ∧ c.epochC = onesComplement 64 c.epoch ∧ crc32 c.planes = c.check ∧
    ({ c with epochC := 0 } : ContextImage).epochC ≠ onesComplement 64 c.epoch := by
  intro c
  refine ⟨restoring_image c, ?_, congrArg crc32 (planes_check _ _), ?_⟩
  · show (2 : Nat) ^ 64 - 1 = onesComplement 64 0; decide
  · show (0 : Nat) ≠ onesComplement 64 0; decide

theorem witness_ResidentRangesGiveTheItemsValue :
    let p : Product := { rows := 1, cols := 1, length := 129, left := { one with cols := 129 }, right := { one with rows := 129 }, leftT := false,
                         rightT := false, resident := true }
    p.resident = true ∧ ([128, 1] : List Nat).sum = p.length ∧ (∀ n ∈ ([128, 1] : List Nat), n ≤ 8192) ∧ ({} : Dtb).residentAcc = [] ∧
    ({} : Dtb).flags = [] ∧ (0 : Nat) ∈ blockCells p 0 0 := by decide

def loadSlip : Nat := slip 4 1 (obj 0 1) 0 0 0 (2 ^ 20) 0
def storeSlip (f : Nat) : Nat := slip 4 2 0 (obj 0 2) 0 0 (2 ^ 20) f

/-- A value that no F8 scale of 1 holds. -/
def far : Tensor := { one with codes := [(0, 0x7F00)] }

/-- COPY, MOVE LOAD and STORE of every outcome. -/
theorem witness_MovesTransferContents :
    let s := held [(1, one), (2, one)] (runs copySlip)
    let cap := fun (f : Fmt) (b : Tensor) => (convert f 1 1 0 false (fun _ => 0) (s.sourceVal b)).cap
    let w : Tensor := { weight with scales := [(0, 0x7F7FFFFF)] }
    let large : State := { held [(3, w)] (runs copySlip) with decks := [(0, { struck := [(pairKey 0 0, 189)] })] }
    isOp famMove 0 copySlip = true ∧ isOp famMove 1 loadSlip = true ∧ isOp famMove 2 (storeSlip 7) = true ∧ readsUnsound s (runs copySlip) = false ∧
    imageScale [] (2 ^ 20) one = some (some 0) ∧ imageScale [] (2 ^ 20) { one with fmt := .f8 } = none ∧
    imageScale (writeBytes [] (2 ^ 20 + imageBytes .f8 1 1 - 8) (toLE 8 (withComplement 32 0x80000000))) (2 ^ 20) { one with fmt := .f8 } = some none ∧
    storeFmt (storeSlip 7) one = one.fmt ∧ storeFmt (storeSlip 3) one ≠ one.fmt ∧ one.cls ≠ 1 ∧ one.poison = 0 ∧
    ({ one with poison := 0x2502 } : Tensor).poison ≠ 0 ∧ (find s.tensors (slipB copySlip)) = some one ∧ cap .f8 one ≤ 15 ∧ 15 < cap .f8 far ∧
    w.cls = 1 ∧ Dy.lt ⟨Fmt.f8.maxFmt, 96⟩ (weightMax large w) = true ∧ Dy.lt ⟨Fmt.f8.maxFmt, 96⟩ (weightMax s weight) = false := by decide +kernel

def declareSlip (h p0 p1 : Nat) : Nat := slip 4 3 h 0 0 0 p0 p1
def retireSlip (h : Nat) : Nat := slip 4 4 h 0 0 0 0 0

/-- Half of HBM lost, and an account whose vault holds more than what is left. -/
def lossy (x : Item) : State :=
  { item x with hbmStacks := [(0, { fittedGib := 16, fenced := true })],
                accounts := [(1, { params := { contextSlots := 1 }, vault := [(1, { fmt := .bf16, rows := 1, cols := 1, sequence := 1, bytes := 2 ^ 35 })] })] }

theorem witness_DeclareAndRetireObjects :
    let t := declareSlip (obj 1 7) (2 ^ 31) 0
    let v := declareSlip (obj 0 1) (1 + 2 ^ 32) 7
    let r := retireSlip (obj 0 1)
    let out : State := { item (runs t) with islands := (List.range 4).map fun k => (switchBlock k, { fenced := true }) }
    isOp famMove 3 t = true ∧ isOp famMove 3 v = true ∧ isOp famMove 4 r = true ∧ declared (held [(1, one)] (runs v)) (slipA v) = true ∧
    declared (held [] (runs v)) (slipA v) = false ∧ unmetCharge (held [] (runs v)) = 0 ∧ unmetCharge (lossy (runs v)) ≠ 0 ∧
    declared (lossy (runs v)) (slipA v) = false ∧ declaresTally v = false ∧ declared (held [] (runs t)) (slipA t) = false ∧ declaresTally t = true ∧
    tallyRegion out = none ∧ unmetCharge out = 0 ∧
    namedEarlier (held [(1, one)] (runs r)) 5 (runs r) (slipA r) = false ∧
    namedEarlier { held [(1, one)] (runs r) with items := [(4, runs copySlip), (5, runs r)] } 5 (runs r) (slipA r) = true ∧
    find (held [(1, one)] (runs r)).tensors (obj 0 1) ≠ none ∧ find (held [] (runs r)).tensors (obj 0 1) = none := by decide +kernel

/-- Some unit has room for a tally, whichever the placer chooses. -/
theorem witness_DeclareAndRetireObjects_tally : ∃ unit, tallyRegion (held [] (runs 0)) = some unit := by
  have h : ((List.range 4).filter fun r => decide (talliesIn (held [] (runs 0)) r < 16384) && !regionFenced (held [] (runs 0)) r) = [0, 1, 2, 3] := by
    decide +kernel
  have l : Config.placerChoice (held [] (runs 0)).free % 4 < 4 := Nat.mod_lt _ (by decide)
  unfold tallyRegion
  rw [h]
  exact ⟨_, List.getElem?_eq_getElem l⟩

/-- A kernel image of one state, all zeros, with its header (Table 8.3). -/
def imageBody : List Byte := List.replicate 4096 0
def imageHeader : Nat := 1 + field 12 4 1 + field 16 7 1 + field 30 2 1 + field 64 32 4160 + field 96 32 (crc32 imageBody)
def imageFile : List Byte := toLE 64 imageHeader ++ imageBody
def loadImageSlip : Nat := slip 2 1 0 0 0 (obj 2 1) (2 ^ 20) 4160

theorem imageFile_length : imageFile.length = 4160 := by simp [imageFile, imageBody]

theorem imageFile_ok : imageOk (ofLE (imageFile.take 64)) 4160 imageFile = true := by decide +kernel

theorem stored_file (p q n : Nat) (l : List Byte) (hp : p = q) (hn : n = l.length) : readBytes (applyStores (writeBytes [] q l) []) p n = l := by
  subst hp hn; exact readBytes_writeBytes [] p l

theorem witness_KernelItemsRun_load :
    isOp famKernel 1 loadImageSlip = true ∧ unmetCharge (held [] (runs loadImageSlip)) = 0 ∧ unmetCharge (lossy (runs loadImageSlip)) ≠ 0 ∧ find (held [] (runs loadImageSlip)).images (slipD loadImageSlip) = none ∧
    readBytes (applyStores (writeBytes [] (2 ^ 20) imageFile) []) (slipParam0 loadImageSlip) (slipParam1 loadImageSlip) = imageFile ∧
    slipParam1 loadImageSlip = 4160 :=
  ⟨by decide, by decide +kernel, by decide +kernel, by decide, stored_file _ _ _ _ (by decide) (by rw [imageFile_length]; decide), by decide⟩

theorem witness_KernelItemsRun :
    let s := kernelState [(1, one), (2, one)] (runs runSlip)
    readsUnsound s (runs runSlip) = false ∧ isRun runSlip = true ∧ find s.images (slipD runSlip) = some kernelImage ∧
    runWaits s 5 runSlip kernelImage = false ∧
    runWaits (kernelState [(1, { one with began := true, beganBy := 4 }), (2, one)] (runs runSlip)) 5 runSlip kernelImage = true ∧ poisonOf s [slipD runSlip, slipHandle runSlip 1] = 0 ∧
    poisonOf (kernelState [(1, one), (2, { one with poison := 0x2502 })] (runs runSlip)) [slipD runSlip, slipHandle runSlip 1] ≠ 0 ∧
    imageOk 0 0 [] = false := by decide

/-! ### Settlement, the vault, tallies and the step record -/

theorem witness_SettleKeepsTheCapsAndRefits :
    let x := runs settleSlip
    let s := held [(1, weight), (2, master)] x
    let c := runs (slip 5 0 (obj 0 1) (obj 0 2) 0 (obj 0 4) 0 0)
    let corr : Tensor := { rows := 2, cols := 1, fmt := .bf16 }
    readsUnsound s x = false ∧ nextTile s (slipA x.slip) weight [] = some 0 ∧ nextTile s (slipA x.slip) weight [0] = none ∧
    ((lookup [] weight.tiles 0).find? fun p => !([] : List Nat).contains p.deck) = some ⟨0, 0, 1, 0, 1⟩ ∧
    isOp famSettle 0 x.slip = true ∧ find s.tensors (slipA x.slip) = some weight ∧ find s.tensors (slipB x.slip) = some master ∧
    decksIdle s weight = true ∧ master.poison = 0 ∧ ({ master with poison := 0x2502 } : Tensor).poison ≠ 0 ∧ find s.tensors (slipD x.slip) = none ∧
    decksIdle { s with decks := [(0, { holds := [9] })] } weight = false ∧ tileHome s weight 0 = true ∧ weightTiles weight = 1 ∧
    slipD c.slip ≠ slipA c.slip ∧ find (held [(1, weight), (2, master), (4, corr)] c).tensors (slipD c.slip) = some corr ∧
    (paramsOf s 1).contextSlots ≠ 0 ∧ (paramsOf { s with accounts := [(1, {})] } 1).contextSlots = 0 ∧
    (let w : Wear := { debased := true }
     w.debased = true ∧ capsPermit s {} = true) := by decide +kernel

theorem witness_VaultKeepsAndReturnsContents :
    let x : Item := { runs stashSlip with decision := .ordinary }
    let r := runs (slip 7 0 (obj 0 1) 0 0 0 1 0)
    let e : VaultEntry := { fmt := .bf16, rows := 1, cols := 1, sequence := 1 }
    let full : Account := { vault := [(1, e)] }
    let room : State := { run with accounts := [(1, { full with params := { sramQuota := 1 } })] }
    readsUnsound (held [(1, one)] x) x = false ∧ readsUnsound (held [(1, one)] r) r = false ∧ x.work.staged = false ∧ x.decision ≠ .marked ∧
    ({ x with decision := .marked } : Item).decision = .marked ∧ ({ one with poison := 0x2502 } : Tensor).poison ≠ 0 ∧
    isOp famStash 0 x.slip = true ∧ isOp famRecall 0 r.slip = true ∧ slipLayer x.slip = 1 ∧ slipLayer r.slip = 1 ∧ find full.vault 1 = some e ∧
    find (({} : Account).vault) 1 = none ∧ x.decision ≠ .marked ∧ one.poison = 0 ∧ stashAhead (held [(1, one)] r) 5 r = false ∧
    stashAhead { held [(1, one)] r with items := [(4, { x with slip := stashSlip }), (5, r)] } 5 r = true ∧
    e.mark = false ∧ e.fmt = one.fmt ∧ e.rows = one.rows ∧ e.cols = one.cols ∧ e.poison = 0 ∧ ({ e with rows := 2 } : VaultEntry).rows ≠ one.rows ∧
    e.flips = [] ∧ ({ e with mark := true } : VaultEntry).mark = true ∧ vaultCandidate full true = some 1 ∧ vaultCandidate full false = none ∧
    sramRoom room 1 (entryBytes full 1) = true ∧ sramRoom { run with accounts := [(1, full)] } 1 1 = false := by decide +kernel

/-- Tally 3 of account 1 and the states that hold it. -/
def tally3 : Tally := ({ capacity := 4, account := 1, number := 3 } : Tally).setCount 2
def tallied (r : Tally) (x : Item) : State := { item x with tallies := [(obj 1 3, r)] }
def tallySlip (family m : Nat) : Nat := slip family 0 (obj 1 3) 0 0 0 m 0
def preWaitSlip (m : Nat) : Nat := copySlip + 2 ^ 479 + field 464 15 m + field 448 16 3

theorem nowhere (r : Tally) (x : Item) (id : Nat) (h : ∀ w ∈ r.queue, w.item ≠ id) : QueuedNowhere (tallied r x) id := by
  intro k v hk w hw
  simp only [tallied, find] at hk
  split at hk
  · cases hk; exact h w hw
  · cases hk

theorem witness_UncoveredTakesAndImpossibleWaitsFail :
    tally3.sound = true ∧ find (tallied tally3 (runs (tallySlip 10 3))).tallies (obj 1 3) = some tally3 ∧ isOp famTake 0 (tallySlip 10 3) = true ∧ slipA (tallySlip 10 3) = obj 1 3 ∧ tally3.count < slipParam0 (tallySlip 10 3) ∧
    preWaitReady (fresh (preWaitSlip 5)) = true ∧ preWaitTally 1 (preWaitSlip 5) = some (obj 1 3) ∧
    tally3.capacity < amountField (slipPreWait (preWaitSlip 5)) ∧ waitReady (runs (tallySlip 9 5)) = true ∧
    tally3.capacity < slipParam0 (tallySlip 9 5) ∧ QueuedNowhere (tallied tally3 (runs (tallySlip 10 3))) 5 := by
  refine ⟨by decide, by decide, by decide, by decide, by decide, by decide, by decide, by decide, by decide, by decide, nowhere _ _ _ (by decide)⟩

theorem tally3_ready (s : State) : TallyReady s tally3 :=
  ⟨by decide, fun w h => (by simp [tally3, Tally.setCount] at h), fun w h => (by simp [tally3, Tally.setCount] at h)⟩

theorem witness_SignalsAndTakesServeTheQueue :
    let s : State := { tallied tally3 (runs (tallySlip 8 2)) with tellers := [(0, { threads := [(1, { item := some 5 })] })] }
    find s.tallies (obj 1 3) = some tally3 ∧ isOp famSignal 0 (tallySlip 8 2) = true ∧ tally3.count + slipParam0 (tallySlip 8 2) ≤ tally3.capacity ∧
    tally3.capacity < tally3.count + slipParam0 (tallySlip 8 3) ∧ slipParam0 (tallySlip 8 0) = 0 ∧ slipParam0 (tallySlip 10 2) ≤ tally3.count ∧
    tallyHandle (1 : BitVec 6).toNat (3 : Word16).toNat = obj 1 3 ∧ TallyReady s tally3 ∧ QueuedNowhere s 5 ∧
    validBlock (0 : Word16).toNat = true ∧ transferDone s (0 : Word16).toNat 5 = true ∧ transferDone s (moverBlock 0) 5 = false ∧
    slipParam0 (tallySlip 10 0) = 0 ∧ slipParam0 (tallySlip 10 4) ≤ tally3.count + 2 ∧ (thread s 0 1).item = some 5 ∧ tallyHandle 1 3 = obj 1 3 := by
  intro s
  refine ⟨by decide, by decide, by decide, by decide, by decide, by decide, by decide, tally3_ready s, nowhere tally3 (runs (tallySlip 8 2)) 5 (by decide), by decide, by decide,
    by decide, by decide, by decide, by decide, by decide⟩

theorem witness_WaitsQueueInOrder :
    let r : Tally := { tally3 with queue := [⟨9, 3, true, false⟩] }
    let full : State := { tallied r (runs (tallySlip 9 2)) with heldWaits := [(0, [(obj 1 3, ⟨5, 2, true, true⟩)])] }
    (waitReady (runs (tallySlip 9 2)) = true ∧ slipA (tallySlip 9 2) = obj 1 3 ∧ 2 = slipParam0 (tallySlip 9 2) ∧ 2 ≤ tally3.capacity) ∧
    (decide (tally3.queue = []) && decide (2 ≤ tally3.count) && !((heldOf (tallied tally3 (runs 0)) 0).any fun p => decide (p.1 = obj 1 3))) = true ∧
    (decide (r.queue = []) && decide (2 ≤ r.count)) = false ∧ heldOf (tallied r (runs 0)) 0 = [] ∧
    queuedWaits (tallied r (runs 0)) 0 < waitStore ∧ heldOf full 0 ≠ [] ∧ heldOf full 0 = [(obj 1 3, ⟨5, 2, true, true⟩)] ∧
    isOp famWait 0 (tallySlip 9 2) = true ∧ slipParam0 (tallySlip 9 0) = 0 ∧
    ({ runs (tallySlip 9 2) with waitAt := some 0, waitDone := true } : Item).waitAt ≠ none ∧
    (preWaitReady (fresh (preWaitSlip 4)) = true ∧ 4 = amountField (slipPreWait (preWaitSlip 4)) ∧ 4 ≤ tally3.capacity) := by decide

/-- A unit's store of waits at its limit. -/
theorem queued_replicate (n : Nat) : queuedWaits (tallied { tally3 with queue := List.replicate n ⟨9, 3, true, false⟩ } (runs 0)) 0 = n := by
  simp [queuedWaits, tableSum, tallied, tally3, Tally.setCount]

theorem witness_WaitsQueueInOrder_full :
    waitStore ≤ queuedWaits (tallied { tally3 with queue := List.replicate waitStore ⟨9, 3, true, false⟩ } (runs 0)) 0 :=
  Nat.le_of_eq (queued_replicate _).symm

theorem witness_DeadlinesDrainsAndTallyMoves :
    let x : Item := { runs (tallySlip 9 2) with waitAt := some 0 }
    let s := tallied tally3 x
    let w := slip 2 0 (obj 0 1) (obj 0 2) 0 (obj 2 1) 1 0
    let y := fresh w
    let k := kernelState [(1, master), (2, { one with cls := 2 })] y
    let d := fun (th : Thread) => ({ kernelState [(1, one), (2, one)] (runs runSlip) with tellers := [(0, { threads := [(3, th)] })] } : State)
    let th : Thread := { item := some 5, writes := 1 }
    waitOverdue (s.at (30000 * ms)) 1 x.waitAt x.waitDone = true ∧ waitOverdue (s.at (30000 * ms - 1)) 1 x.waitAt x.waitDone = false ∧
    strandedOverdue (s.at 0) 5 x = false ∧
    (stampWaits (k.at (30000 * ms + 1)) 5 y && decide (y.readyAt + deadlineNs (k.at (30000 * ms + 1)) 1 < (k.at (30000 * ms + 1)).now)) = true ∧
    decide (y.readyAt + deadlineNs k 1 < (k.at (30000 * ms)).now) = false ∧
    (thread (d th) 0 3).item = some 5 ∧ (thread (d th) 0 4).item = none ∧ th.drained < th.writes ∧ ¬th.writes ≤ th.drained ∧
    ({} : Thread).writes ≤ ({} : Thread).drained ∧ find (d th).images (slipD runSlip) = some kernelImage ∧ isUpdate (d th) runSlip = false ∧
    runWaits (d th) 5 runSlip kernelImage = false ∧ isUpdate k w = true ∧ find s.images (slipD x.slip) = none ∧
    tally3.region ≠ 1 ∧ talliesIn s 1 < 16384 ∧ regionFenced s 1 = false ∧ tally3.region = 0 ∧ tally3.sound = true ∧
    opValid (.wait 0 1 5) = true ∧ regionFenced { s with islands := [(switchBlock 1, { fenced := true })] } 1 = true := by decide +kernel

def stepSlip (v word : Nat) : Nat := slip 11 0 0 0 0 0 v word

theorem witness_StepWritesAndFences :
    let a : Account := { step := ⟨stepped, stepped⟩ }
    let lost : Account := { step := ⟨{ stepped with complements := [] }, { stepped with complements := [] }⟩ }
    let f := runs (slip 12 0 0 0 0 0 0 0)
    let g := runs (slip 12 1 0 0 0 0 0 0)
    isStepStage (stepSlip 5 7) = true ∧ (held [(1, one)] (runs (stepSlip 1 0))).account? 1 ≠ none ∧ isStepCommit (stepSlip 2 0) = true ∧ a.record = some stepped.words ∧
    stepped.words.headD 0 < slipParam0 (stepSlip 2 0) ∧ slipParam0 (stepSlip 1 0) ≤ stepped.words.headD 0 ∧ lost.record = none ∧
    (∀ p ∈ (held [(1, one)] (runs (stepSlip 1 0))).tensors, handleAccount p.1 = 1 → p.2.stamp < slipParam0 (stepSlip 1 0)) ∧
    slipParam0 (stepSlip 1 0) ≤ ({ one with stamp := 1 } : Tensor).stamp ∧ isOp famFence 0 f.slip = true ∧ isOp famFence 1 g.slip = true ∧ fenceMet (item f) 5 f = true ∧ fenceMet (item g) 5 g = true ∧
    fenceMet { item f with items := [(4, runs copySlip), (5, f)] } 5 f = false ∧
    fenceMet { item g with items := [(4, { runs copySlip with ring := 2 }), (5, g)] } 5 g = false := by decide +kernel

/-! ### Evaluations, assay and wear; tellers, banks and stacks -/

/-- A descriptor of array 0, deck 0: AW3, one column, one row, account 1, item 5 (Table 4.4). -/
def descriptor (deck epoch : Nat) : BitVec 256 :=
  BitVec.ofNat 256 (field 4 3 deck + field 11 1 1 + field 33 9 1 + field 42 11 1 + field 53 6 1 + field 64 64 5 + field 128 64 epoch +
    field 192 64 (onesComplement 64 epoch))

theorem witness_EvaluationsMakeOneSlice :
    let x := runs gemmSlip
    let s : State := { held [(1, one), (2, one), (3, weight)] x with decks := [(0, { assayed := true, working := true })], islands := [(aabBlock 1, { epoch := 2 })] }
    let w := (descriptor 0 0).toNat
    let u := s.setIsland (aabBlock 0) { s.island (aabBlock 0) with epoch := descEpoch w, epochC := onesComplement 64 (descEpoch w) }
    let a := u.drained 5 (rampDown 5 (u.aab 0))
    let r := lookup ({} : ArrayState) a.arrays (descArray w)
    descEpochC (1 : BitVec 256).toNat ≠ onesComplement 64 (descEpoch (1 : BitVec 256).toNat) ∧
    (descEpochC (descriptor 0 1).toNat = onesComplement 64 (descEpoch (descriptor 0 1).toNat) ∧
      descEpoch (descriptor 0 1).toNat < (s.island (aabBlock 1)).epoch) ∧
    descEpochC w = onesComplement 64 (descEpoch w) ∧ (s.island (aabBlock 0)).epoch ≤ descEpoch w ∧ descItem w = 5 ∧
    find s.items 5 = some x ∧ x.stage = 2 ∧ isAnalogue u x.slip = true ∧ x.work.final = false ∧
    find s.tensors (slipB x.slip) = some one ∧ find s.tensors (slipC x.slip) = some weight ∧ 0 < one.rows ∧ blockIssues u (aabBlock 0) = true ∧
    descPart u 0 w x one weight = some ⟨0, 0, 1, 0, 1⟩ ∧
    (r.busyUntil ≤ 5 ∧ referenceDue r = false ∧ (s.deck 0).assayed = true ∧ inputFree a (descInSlot w) 5 0 5 = true ∧
      find a.outputs (descOutSlot w) = none ∧ mayRise a (descArray w) 5 = true ∧ toEvaluate x one 0 ⟨0, 0, 1, 0, 1⟩ = true) ∧
    ((u.setAab 0 a).takeCopy 0 (arrayIdle (u.setAab 0 a) 5)).isSome = true ∧
    (({ u with decks := [(0, { assayed := true })] } : State).takeCopy 0 (arrayIdle u 5)).isNone = true ∧
    recurs .ok = false ∧ recurs (.recurring 1) = true ∧
    (let a := rampDown 5 { arrays := [(0, { busyUntil := 6, reading := true })] }
     5 < (lookup ({} : ArrayState) a.arrays 0).busyUntil) := by decide +kernel

/-- Two evaluations leave no reference sequence due; a third does. -/
theorem witness_EvaluationsMakeOneSlice_reference :
    let a := fun n => rampDown 9 { arrays := [(0, { reference := some n })] }
    let r := fun n => lookup ({} : ArrayState) (a n).arrays 0
    referenceDue (r 25) = true ∧ (r 25).busyUntil ≤ 9 ∧ mayRise (a 25) 0 9 = true ∧ referenceDue (r 17) = false := by decide +kernel

/-- `up` with one deck. -/
def deck (d : Deck) : State := { up with decks := [(0, d)] }

theorem witness_AssayZeroAndRefreshOneDeck :
    let hold : Deck := { holds := [7] }
    let p : TilePart := ⟨0, 0, 1, 0, 1⟩
    let aged : Deck := { bound := some (obj 0 3, 0, p), wear := [(0, { settlements := 1 })] }
    let s : State := { deck aged with tensors := [(obj 0 3, weight)], telemetry := { companionNs := 330 * dayNs, companionAt := some 0 } }
    let may := fun (s : State) (row : Nat) => (partRows (s.deck 0) p).contains row && refreshDue s (s.deck 0) row && decide ((s.deck 0).holds = []) &&
      arrayServes s 0 && backgroundRuns s (halfOfRegion (deckRegion 0))
    up.power.powerGood = true ∧ assayDueNow {} .powerUp 0 0 = true ∧ assayDueNow { assayed := true } .timer (600000 * ms) 0 = true ∧
    assayDueNow { assayed := true } .timer (600000 * ms - 1) 0 = false ∧ assayDueNow { assayed := true } .temperature 0 65 = true ∧
    assayDueNow { assayed := true } .temperature 0 (-64) = false ∧ State.reset.power.powerGood = false ∧
    (let d := deck { due := some 3 }
     ((d.deck 0).due.isSome && arrayServes (d.at 3) 0 && backgroundRuns (d.at 3) (halfOfRegion (deckRegion 0))) = true) ∧
    ({} : Deck).due.isSome = false ∧ ({ measured := some [(0, 1)] } : Deck).measured = some [(0, 1)] ∧ ({} : Deck).holds = [] ∧ hold.holds ≠ [] ∧
    ({} : Deck).measured = none ∧
    (let z := (deck { dirty := true }).deck 0
     (z.dirty && z.bound.isNone && decide (z.holds = []) && arrayServes (up.at 0) 0) = true) ∧
    (let z := (deck { leaving := true }).deck 0
     (z.leaving && decide (z.holds = []) && arrayServes (up.at 0) 0) = true) ∧ ({} : Deck).dirty = false ∧
    (s.deck 0).bound = some (obj 0 3, 0, p) ∧ find s.tensors (obj 0 3) = some weight ∧ may (s.at 0) 0 = true ∧ may (s.at 0) 1 = false ∧
    may (({ s with telemetry := { s.telemetry with companionNs := 330 * dayNs - 1 } } : State).at 0) 0 = false := by
  decide +kernel

theorem foldl_min_le (f : Nat → Nat) (l : List Nat) (m : Nat) :
    l.foldl (fun m x => min m (f x)) m ≤ m ∧ ∀ x ∈ l, l.foldl (fun m x => min m (f x)) m ≤ f x := by
  induction l generalizing m with
  | nil => simp
  | cons a l ih =>
    have := ih (min m (f a))
    refine ⟨by simpa using Nat.le_trans this.1 (Nat.min_le_left _ _), fun x hx => ?_⟩
    rcases List.mem_cons.1 hx with rfl | hx
    · exact Nat.le_trans this.1 (Nat.min_le_right _ _)
    · exact this.2 x hx

/-- A free deck of no pulses is among the best. -/
theorem best_of_unused (s : State) (rows dn : Nat) (hd : dn < deckCount) (hf : deckFree s dn = true) (hr : rows ≤ usableRows (s.deck dn))
    (hp : pulseSum (s.deck dn) = 0) : (bestDecks s rows).contains dn = true := by
  have hm : dn ∈ (List.range deckCount).filter fun dn => deckFree s dn && decide (rows ≤ usableRows (s.deck dn)) := by
    simp [hd, hf, hr]
  rw [List.contains_iff_mem]
  unfold bestDecks
  generalize ((List.range deckCount).filter fun dn => deckFree s dn && decide (rows ≤ usableRows (s.deck dn))) = l at hm
  cases l with
  | nil => cases hm
  | cons a l =>
    simp only [List.mem_filter, hm, true_and, decide_eq_true_eq, hp]
    have := foldl_min_le (fun dn => pulseSum (s.deck dn)) l (pulseSum (s.deck a))
    rcases List.mem_cons.1 hm with rfl | h
    · exact (Nat.le_zero.1 (hp ▸ this.1)).symm
    · exact (Nat.le_zero.1 (hp ▸ this.2 dn h)).symm

/-- Deck 0 holds a 1 × 1 tile. -/
def bound (d : Deck) : State := { deck { d with bound := some (obj 0 3, 0, ⟨0, 0, 1, 0, 1⟩) } with tensors := [(obj 0 3, weight)] }

theorem witness_TilesMoveAndRecordsAreKept :
    let p : TilePart := ⟨0, 0, 1, 0, 1⟩
    let s := bound { withdrawn := true }
    (s.deck 0).bound = some (obj 0 3, 0, p) ∧ find s.tensors (obj 0 3) = some weight ∧ mustMove (s.deck 0) p = true ∧
    (bestDecks s 1).contains 1 = true ∧ admitsTile s (s.deck 1) p = true ∧ mustMove ((bound {}).deck 0) p = false ∧
    up.power.powerGood = true ∧ State.reset.power.powerGood = false ∧ up.flash.wearAt + hourNs ≤ hourNs ∧
    hourNs - 1 < up.flash.wearAt + hourNs ∧ up.flash.newer1 = false ∧ ({ newer1 := true } : Flash).newer1 = true ∧
    ({ bindingDirty := some 0 } : Deck).bindingDirty ≠ none ∧ ({} : Deck).bindingDirty = none :=
  ⟨by decide, by decide, by decide, best_of_unused _ _ _ (by decide) (by decide) (by decide) (by decide), by decide, by decide, by decide, by decide,
   by decide, by decide, by decide, by decide, by decide, by decide⟩

theorem witness_TilesMoveAndRecordsAreKept_worn :
    let worn := bound { wear := [(0, { pulses := 1024 * 2 ^ 20 + 1 })] }
    (worn.aab 0).movedAt = none ∧ wornPairs (worn.at 0) 0 = [(0, 1), (0, 2), (0, 3), (0, 4), (0, 5), (0, 6), (0, 7)] ∧
    (worn.deck 0).bound = some (obj 0 3, 0, ⟨0, 0, 1, 0, 1⟩) ∧ find worn.tensors (obj 0 3) = some weight ∧
    wornPairs ((bound { wear := [(0, { pulses := 1024 * 2 ^ 20 })] }).at 0) 0 = [] := by decide +kernel

def stack (k : Stack) : State := { up with hbmStacks := [(0, { k with fittedGib := 16 })] }

theorem witness_TellersRunUnits :
    let x := runs runSlip
    let h := obj 2 1
    let s := fun (f : Teller) => ({ kernelState [(1, one), (2, one)] x with tellers := [(0, f)] } : State)
    let f : Teller := { current := some h, store := [(0, h)] }
    let g : Teller := { f with threads := [(3, { item := some 5, account := some 1 })], robin := 4 }
    isRun x.slip = true ∧ slipD x.slip = h ∧ 0 < runUnits x.slip ∧ unitRuns (s f) 5 0 = false ∧ (thread (s f) 0 3).item = none ∧ f.open x.account = true ∧
    f.current = some h ∧ f.busyUntil ≤ 0 ∧ blockServes (s f) (tellerBlock 0) = true ∧ blockIssues (s f) (tellerBlock 0) = true ∧ recurs .ok = false ∧ recurs (.recurring 1) = true ∧
    g.nextThread 0 = some 3 ∧ f.nextThread 0 = none ∧ (thread (s g) 0 3).item = some 5 ∧ find (s g).images h = some kernelImage ∧
    ¬({ f with busyUntil := 1 } : Teller).busyUntil ≤ 0 ∧ blockServes { s f with islands := [(tellerBlock 0, { fenced := true })] } (tellerBlock 0) = false ∧
    f.between = true ∧ ({ f with current := none } : Teller).current ≠ some h ∧ (f.store.any fun p => decide (p.2 = h)) = true ∧
    (({} : Teller).store.any fun p => decide (p.2 = h)) = false ∧ find (s f).images h ≠ none := by decide +kernel

theorem witness_TellersRunUnits_end :
    let g : Image := { kernelImage with passes := 2, reductions := 1 }
    let x : Item := { runs runSlip with work := { units := [0], partials := [(0, 0)] } }
    (g.passes = 2 ∧ x.work.pass = 1 ∧ x.work.units.length = runUnits x.slip) ∧ kernelImage.passes ≠ 2 ∧ (runs runSlip).work.units.length ≠ runUnits runSlip ∧
    (({ startedAt := 0 } : Thread).startedAt + 2 ^ 21 < 2 ^ 21 + 1) ∧ ¬({ startedAt := 0 } : Thread).startedAt + 2 ^ 21 < 2 ^ 21 ∧ x.live = true := by
  decide +kernel

theorem witness_BanksCorrectStoreAndServe :
    let q : PortRequest := { rank := .teller, start := 16, length := 32 }
    let w : PortRequest := { rank := .teller, start := 16, length := 32, write := true, bytes := List.replicate 32 7 }
    let idle : PortTurn := portTurn 0 [] []
    let lands : PortTurn := portTurn 0 [] [w]
    let back : PortRequest := { rank := .background, start := 0, length := 64 }
    bankServes up 0 = true ∧ bankServes up 7167 = true ∧ bankServes State.reset 0 = false ∧ bankAccessOk 65535 0 64 = true ∧
    bankAccessOk 65535 63 64 = true ∧ insideBank (65535 * 64 + 63) 64 = 1 ∧ flipsOk 16 32 [⟨1, 1⟩, ⟨2, 2⟩] = true ∧
    recurs .ok = false ∧ recurs (.recurring 1) = true ∧ 65535 < bankWords ∧ upsetsIn [⟨3, 2⟩] (touched 0 64) = true ∧
    backgroundRuns up (halfOfRegion (0 / 1792)) = true ∧ backgroundRuns State.reset (halfOfRegion (0 / 1792)) = true ∧
    backgroundRuns { up with stopped := true, stewards := ⟨{}, {}⟩ } (halfOfRegion (0 / 1792)) = false ∧
    requestOk false q = true ∧ requestOk true w = true ∧ insideBank q.start q.length = q.length ∧ lands.served = some w ∧ idle.served = none ∧
    meetsPoison { upsets := [(1, 1)] } idle (touched 16 32) = false ∧ meetsPoison { upsets := [(1, 2)] } idle (touched 16 32) = true ∧
    meetsPoison { poisoned := [2] } idle (touched 16 32) = true ∧ meetsPoison { poisoned := [2] } idle (touched 16 16) = false ∧
    meetsPoison { poisoned := [2] } lands (touched 16 32) = false ∧ covered 17 31 = [2] ∧ ({ writebacks := [1] } : Bank).writebacks = 1 :: [] ∧
    (portTurn 0 [] [back, q]).served = some q ∧ (portTurn 0 [] [back]).served = some back ∧
    (portTurn 5 (List.replicate 655 0) [{ back with stalled := 64 }, q]).served = some q ∧
    portPlace { q with stalled := 64 } < portPlace { q with stalled := 63 } ∧ rewritten .object = false ∧ (runs 0).live = true := by decide +kernel

theorem witness_StacksReadAsWritten :
    let s := stack {}
    hbmServes s 0 = true ∧ 8191 < stackExtents s 0 ∧ stackExtents s 0 = 8192 ∧ hbmAccessOk 0 extentBytes = true ∧ hbmAccessOk (extentBytes - 1) 1 = true ∧
    hbmAccessOk extentBytes 1 = false ∧ upsetsIn [⟨3, 2⟩] (touched 48 1) = true ∧ 3 / extentGranules < stackExtents s 0 ∧
    ((touched 48 1).any fun g => decide (2 ≤ lookup 0 (strikeGranules [⟨3, 2⟩] []) g)) = true ∧
    ((touched 48 1).any fun g => decide (2 ≤ lookup 0 (strikeGranules [⟨3, 1⟩] []) g)) = false ∧
    backgroundRuns s .west = true ∧ backgroundRuns { s with stopped := true, stewards := ⟨{}, {}⟩ } .west = false ∧
    (0 : Nat) ∈ ({ zeroTags := [0] } : Stack).zeroTags ∧ (0 : Nat) ∉ (s.stack 0).zeroTags := by decide +kernel

/-! ### Clearing and the fabric -/

/-- Module 0 with every port up, group 0 of account 1 with members 0, 7 and 9, and `item x`. -/
def pair : Group9 := { members := [0, 7, 9], live := [0, 7, 9] }
def clearAccount : Account := { params := { contextSlots := 1, tickets := 4, sramQuota := 8 }, groups := [(0, pair)] }
def net (x : Item) (k : List (Nat × Ticket)) : State :=
  { held [(1, { one with cls := 2 }), (2, { one with cls := 2 }), (3, { one with cls := 3 })] x with
    accounts := [(1, clearAccount)], ports := (List.range 32).map fun p => (p, { state := 2 }), tickets := k }

/-- A frame from module 7 to module 0 for ticket 9 of account 1. -/
def frame (type seq : Nat) (payload : List Byte) : VfFrame :=
  { destMac := [], sourceMac := [], etherType := 0x88B5, payload := payload,
    header := { type := BitVec.ofNat 8 type, sourcePort := 3, source := 7, account := 1, dest := 0, incarnation := 3, sequence := BitVec.ofNat 64 seq,
                ticket := 9, position := 1, blocks := 1 } }

/-- An offer's payload: rows, columns, scale exponent, ceiling and its complement (Table 13.7). -/
def offered (rows ceilingC : Nat) : List Byte :=
  [0, 0, 0, BitVec.ofNat 8 rows, 0, 0, 0, 1, 0, 0, 0, 0, 0, 0, 0, 0] ++ List.replicate 8 0 ++ List.replicate 8 (BitVec.ofNat 8 ceilingC)

/-- CLEAR slips: OWNER or RING REDUCE of 3 contributors to object 1 from object 2, owner in place `o`. -/
def clearSlip (op o : Nat) (a b : Nat) : Nat := slip 3 op a b 0 0 (9 + field 32 20 o) 3
def ownerItem : Item := { runs (clearSlip 0 0 (obj 0 1) (obj 0 2)) with groupRead := true, group := pair }
def ownerTicket : Ticket := { ticket := 9, account := 1, contributors := 3, rows := 1, cols := 1, list := pair }
def senderTicket : Ticket := { ownerTicket with role := 1, owner := 1, offered := [7] }

/-- The frame is the next of a context and is delivered at once. -/
def delivered (s : State) (f : VfFrame) : Bool :=
  portServes (s.at 0) 0 && frameTaken (s.at 0) f &&
  (match contextFor (s.at 0) (halfOfPort 0) f.header with
   | some c => decide (c.waiting = []) && decide (c.expected = f.header.sequence.toNat)
   | none => false)

theorem witness_FramesAreTakenInOrder :
    let s := net ownerItem [(5, ownerTicket)]
    let f := fun n => frame 4 n []
    let open_ : PeerContext := { recvOpen := true, recvIncarnation := 3, expected := 2, waiting := [(4, f 4)] }
    let p : State := { s with peers := [(peerKey .west 7, open_)] }
    let closed : State := { s with peers := [(peerKey .west 7, { open_ with recvIncarnation := 2 })] }
    (frameFits frameGrant 0 (f 0) = true ∧ frameFits frameOffer 32 (frame 3 0 (offered 1 255)) = true ∧ frameFits frameRefuse 1 (frame 5 0 [5]) = true ∧
     frameFits frameBusy 0 (frame 6 0 []) = true ∧ dataFits (frame 1 0 (List.replicate 33 0)) = true ∧ frameFits frameAbort 2 (frame 7 0 [0, 1]) = true ∧
     frameFits frameLost 36 (frame 8 0 (List.replicate 36 0)) = true ∧ frameFits frameProbe 0 (frame 9 0 []) = true) ∧
    portServes (run.at 0) 0 = false ∧ portServes (s.at 0) 0 = true ∧ frameTaken (s.at 0) (f 0) = true ∧
    frameTaken (s.at 0) { f 0 with header := { (f 0).header with version := 2 } } = false ∧
    contextFor (closed.at 0) .west (f 0).header = none ∧ contextFor (p.at 0) .west (f 0).header = some open_ ∧
    2 + 1024 < (f 1027).header.sequence.toNat ∧ ¬2 + 1024 < (f 1026).header.sequence.toNat ∧ find open_.waiting 4 ≠ none ∧
    find open_.waiting 1026 = none ∧ find open_.waiting open_.expected = none ∧
    contextFor (s.at 0) .west (f 0).header = some { recvOpen := true, recvIncarnation := 3 } := by decide +kernel

theorem witness_DeliveredFramesDriveTickets :
    let s := net ownerItem [(5, ownerTicket)]
    let own := net (runs (clearSlip 0 1 0 (obj 0 2))) [(5, senderTicket)]
    let offer := frame 3 0 (offered 1 255)
    let reach := fun (s : State) (f : VfFrame) => delivered s f && decide (ticketOf s f.header = (s.tickets.head?))
    reach s offer = true ∧ (find s.items 5) = some ownerItem ∧ ownerItem.live = true ∧ answerOf s offer = .grant ∧
    answerOf s (frame 3 0 (offered 2 255)) = .refuse 1 ∧ answerOf s (frame 3 0 (offered 1 254)) = .refuse 5 ∧
    answerOf (net ownerItem [(5, { ownerTicket with grantsOut := [7] })]) offer = .refuse 2 ∧ answerOf (net ownerItem []) offer = .hold ∧
    delivered (net ownerItem []) offer = true ∧ delivered (net ownerItem [(5, { ownerTicket with grantsOut := [7] })]) offer = true ∧
    reach own (frame 4 0 []) = true ∧ 7 ∈ senderTicket.offered ∧ reach own (frame 5 0 [5]) = true ∧ reach own (frame 6 0 []) = true ∧
    reach (net ownerItem [(5, { ownerTicket with grantsOut := [7] })]) (frame 7 0 [0x40, 4]) = true ∧
    reach (net ownerItem [(5, { ownerTicket with grantsOut := [7] })]) (frame 1 0 (List.replicate 33 0)) = true ∧
    (7 : Nat) ∈ ({ ownerTicket with grantsOut := [7] } : Ticket).grantsOut ∧ reach own (frame 8 0 ([0, 0, 0, 9] ++ List.replicate 31 0 ++ [1])) = true ∧
    payloadLE (frame 8 0 ([0, 0, 0, 9] ++ List.replicate 31 0 ++ [1])) 0 4 = 9 ∧
    bit (payloadLE (frame 8 0 ([0, 0, 0, 9] ++ List.replicate 31 0 ++ [1])) 4 32) 0 = true := by decide +kernel

theorem witness_FabricTimersAndAcknowledgements :
    let w : Unacked := { sequence := 6, frame := frame 4 6 [], plane := 2, port := 2, sentAt := 100 }
    let c : PeerContext := { sendOpen := true, sendIncarnation := 3, unacked := [w], misses := [(2, 1)], downSince := [(1, 50)], probedAt := [(1, 100)] }
    let s : State := { net ownerItem [(5, { senderTicket with offered := [], busyAt := [(7, 100)] })] with peers := [(peerKey .west 7, c)] }
    let down : PeerContext := { downSince := (List.range 8).map fun p => (p, 100) }
    let lost : State := { net ownerItem [] with peers := [(peerKey .west 9, down), (peerKey .east 9, down)] }
    let ack : VfFrame := { frame 2 0 [] with header := { (frame 2 0 []).header with acked := 6 } }
    let o : HeldOffer := { frame := frame 3 0 (offered 1 255), half := .west, port := 0, arrived := 100 }
    let probed : VfFrame := { frame 2 0 [] with header := { (frame 2 0 []).header with sourcePort := 5 } }
    frameFits frameAck 0 ack = true ∧ c.queued = [] ∧ ack.header.incarnation.toNat = c.sendIncarnation ∧ find c.probedAt (planeOf 0) = none ∧
    frameFits frameAck 0 probed = true ∧ probed.header.acked.toNat = 0 ∧ find c.probedAt (planeOf 1) ≠ none ∧ portServes (s.at 200) 1 = true ∧
    frameTaken (s.at 200) probed = true ∧ find c.downSince 2 = none ∧ 1 ≤ lookup 0 c.misses 2 ∧ portServes (s.at 200) 0 = true ∧ frameTaken (s.at 200) ack = true ∧ ((s.at 200).peer .west 7) = c ∧
    w.sequence = ack.header.acked.toNat ∧ s.power.powerGood = true ∧ halfOut s .west = false ∧
    c.unacked.find? (fun v => decide (v.sequence = 6) && decide (v.sentAt + 8000 ≤ (s.at 8100).now)) = some w ∧ 3 ∈ planesUp c ∧
    (s.at 8099).now < w.sentAt + 8000 ∧ probeDue (s.at (100 + 100 * ms)) .west 7 1 = true ∧ probeDue (s.at (99 + 100 * ms)) .west 7 1 = false ∧
    100 + 100000 ≤ (s.at 100100).now ∧ (s.at 100099).now < 100 + 100000 ∧ ticketTensor s ownerItem = some { one with cls := 2 } ∧
    (net ownerItem []).now < o.arrived + offerDeadline (net ownerItem []) o ∧
    (let u := lost.at (100 + 1000 * ms)
     downForSecond u .west 9 = true ∧ downForSecond u .east 9 = true) ∧ downForSecond (lost.at (99 + 1000 * ms)) .west 9 = false ∧
    lost.lostPeers.contains 9 = false ∧ isClear ownerItem.slip = true ∧ ownerItem.stage ≤ 2 ∧ previousEnded ownerItem = true ∧
    waitOverdue (s.at (30000 * ms)) 1 (some 0) false = true ∧ waitOverdue (s.at (30000 * ms - 1)) 1 (some 0) false = false := by decide +kernel

/-- Companion memory with group 0's entry at 4096 (serial 4, three members at 64) and its members. -/
def groupWrites : List CWrite := [⟨4096, 64, 64 + field 64 21 3 + field 96 32 4⟩, ⟨64, 12, 0 + field 32 32 7 + field 64 32 9⟩]

theorem witness_ClearItemsOpenAndFinish_read :
    let x := { fresh (clearSlip 0 0 (obj 0 1) (obj 0 2)) with groupRead := false }
    let tabled : Account := { clearAccount with params := { clearAccount.params with groupTable := 4096 } }
    let s : State := { net x [] with accounts := [(1, tabled)] }
    let u : State := { s with cmem := applyStores s.cmem groupWrites }
    let e := groupEntry u 1 0
    let g := readGroup u.cmem (some pair) e
    let blank : State := { s with cmem := applyStores s.cmem [] }
    find s.items 5 = some x ∧ x.stage ≤ 1 ∧ isClear x.slip = true ∧ s.account? 1 = some tabled ∧ g = { pair with serial := 4 } ∧
    (let v := u.setAccount 1 { tabled with groups := ins tabled.groups 0 g }
     lowestByte (offences v 1 x.slip ++ clearOffences v x.slip e g) = none) ∧
    (let g := readGroup blank.cmem (some pair) (groupEntry blank 1 0)
     let v := blank.setAccount 1 { tabled with groups := ins tabled.groups 0 g }
     (lowestByte (offences v 1 x.slip ++ clearOffences v x.slip (groupEntry blank 1 0) g)).isSome = true) := by decide +kernel

theorem witness_ClearItemsOpenAndFinish_start :
    let x := { fresh (clearSlip 0 0 (obj 0 1) (obj 0 2)) with groupRead := true, group := pair }
    let s := net x []
    let poor : State := { s with accounts := [(1, { clearAccount with params := { clearAccount.params with sramQuota := 0 } })] }
    let full : State := { s with accounts := [(1, { clearAccount with params := { clearAccount.params with tickets := 0 } })] }
    let lost : State := { s with hbmStacks := [(0, { fittedGib := 16, fenced := true })], accounts := [(1, { clearAccount with
      params := { clearAccount.params with sramQuota := 2 ^ 30 }, vault := [(1, { fmt := .bf16, rows := 1, cols := 1, sequence := 1, bytes := 2 ^ 35 })] })] }
    let u := fun s : State => s.serveRing x
    mayStart s x = true ∧ isClear x.slip = true ∧ ledgerFits (u s) x = true ∧ (isReduce 0 x.slip && decide (unmetCharge (u s) ≠ 0)) = false ∧
    bucketOpen (u s) 1 x.slip = false ∧ enginesFor (u s) 1 ≠ [] ∧ s.offers = [] ∧
    mayStart poor x = true ∧ ledgerFits (u poor) x = false ∧ mayStart full x = true ∧ ledgerFits (u full) x = true ∧ enginesFor (u full) 1 = [] ∧
    mayStart lost x = true ∧ ledgerFits (u lost) x = true ∧ (isReduce 0 x.slip && decide (unmetCharge (u lost) ≠ 0)) = true ∧
    bucketOpen (u (net x [(4, ownerTicket)])) 1 x.slip = true := by decide +kernel

theorem witness_ClearItemsOpenAndFinish_reduce :
    let b : Tensor := { one with cls := 2 }
    let s := net ownerItem [(5, ownerTicket)]
    let r := runs (clearSlip 1 0 (obj 0 1) (obj 0 2))
    let big : Tensor := { b with codes := [(0, 0x7F00)] }
    readsUnsound s ownerItem = false ∧ readsUnsound (net r []) r = false ∧ find s.tickets 5 = some ownerTicket ∧
    isReduce 0 ownerItem.slip = true ∧ isReduce 1 r.slip = true ∧ find s.tensors (slipB ownerItem.slip) = some b ∧ b.poison = 0 ∧
    ({ b with poison := 0x2502 } : Tensor).poison ≠ 0 ∧ encodable ownerTicket b = true ∧ encodable ownerTicket big = false ∧
    ({ ownerTicket with ownAdded := true, finished := 3 } : Ticket).contributors ≤ 3 ∧ find s.tensors (slipA ownerItem.slip) = some b ∧ b.fmt.scaled = false ∧
    ownerTicket.finished + 1 < ownerTicket.contributors ∧ senderTicket.role ≠ 0 ∧ senderTicket.grantsIn = [] ∧
    allAcked s { senderTicket with grantsIn := [7], sentAll := true } = true ∧
    firstHop (net r [(5, { ownerTicket with ring := true })]) { ownerTicket with ring := true } = false ∧ totalBlocks 1 1 ≤ 1 := by decide +kernel

theorem witness_ClearItemsOpenAndFinish_distribute :
    let x := runs (slip 3 0 0 (obj 0 3) 0 0 (9 + 2 ^ 52) 3)
    let y := runs (slip 3 0 (obj 0 3) 0 0 0 (9 + 2 ^ 52 + field 32 20 1) 3)
    let own : Ticket := { ownerTicket with distribute := true, grantsIn := [7, 9], lastFrom := [7, 9] }
    let recipient : Ticket := { ownerTicket with role := 1, owner := 1, distribute := true, passed := 1 }
    let a : Tensor := { one with cls := 3 }
    readsUnsound (net x []) x = false ∧ readsUnsound (net y []) y = false ∧ ((offersTo (net x []) { own with grantsIn := [7] }).all fun p => [7].contains p) = false ∧
    ((offersTo (net x []) own).all fun p => own.grantsIn.contains p) = true ∧ isDistribute x.slip = true ∧ isDistribute y.slip = true ∧ find (net x []).tensors (slipB x.slip) = some a ∧ a.poison = 0 ∧
    unsentReceivers own = [] ∧ offersTo (net x [(5, own)]) own = [7, 9] ∧ allAcked (net x [(5, own)]) own = true ∧
    find (net y []).tensors (slipA y.slip) = some a ∧ forwardsTo (net y [(5, recipient)]) recipient = none ∧ ceilDiv (imageBytes a.fmt 1 1) 32 = 1 ∧
    ceilDiv (imageBytes a.fmt 1 1) 32 ≤ recipient.passed ∧ ({ recipient with passed := 0 } : Ticket).passed < ceilDiv (imageBytes a.fmt 1 1) 32 ∧ imageScale recipient.bytes 0 a = some (some 0) := by decide +kernel

theorem witness_LedgerDoesNotDependOnOrder :
    let l : List (Nat × Val) := [(0, .nan), (1, F32.val 0x3F800000), (0, F32.val 0x00000001)]
    l.Perm l.reverse ∧ l ≠ l.reverse := ⟨List.reverse_perm _ |>.symm, by decide⟩

/-! ### Sharing, accounts, faults, the charter and dumps -/

theorem witness_GrantsGoToAgedWorkOrByDeficit :
    let r : List Ready := [⟨1, 500, 1, .foreground, 0⟩, ⟨2, 400, 1, .foreground, 0⟩, ⟨9, 0, 1, .foreground, 0⟩]
    let other : List Ready := [⟨0, 5, 1, .recovery, 0⟩, ⟨0, 6, 1, .background, 0⟩]
    let port := SharedUnit.port (BitVec.ofNat 16 (switchBlock 0)) 3
    let s : State := { up with accounts := [(1, {}), (2, {})] }
    let d := SharedUnit.dtb 0
    let g : State := { s with grants := [(0, {})] }
    let held (u : SharedUnit) : State := s.setGrant u { account := 1, start := 0, quantum := 2000000, active := true }
    unitOk d = true ∧ unitOk (.port (BitVec.ofNat 16 (switchBlock 0)) 65535) = true ∧ unitOk (.port 0 0) = false ∧ unitOk (.array 2687) = true ∧
    (blockIssues (s.at 900) (unitBlock d) && atBoundary (s.at 900) d && grantOver (s.at 900) d (admittedReady s r) 900) = true ∧
    oldestOf ((admittedReady s r).filter (isAged s d (400 + 100 * ms))) = some ⟨2, 400, 1, .foreground, 0⟩ ∧ (admittedReady s r).filter (isAged s d 900) = [] ∧
    otherReady d .recovery r = none ∧ (otherReady port .recovery other).isSome = true ∧ (otherReady port .background other).isSome = true ∧
    otherReady port .recovery [⟨0, 6, 1, .background, 0⟩] = none ∧ admittedReady s other = [] ∧ (blockIssues s (unitBlock port) && atBoundary s port && grantOver s port [] 0) = true ∧
    admittedReady s r ≠ [] ∧ admittedReady s [⟨9, 0, 1, .foreground, 0⟩] = [] ∧
    (roundRobin g d (admittedReady s r) [1, 2] (robinFuel (poolOf g d) (admittedReady s r) [1, 2]) (poolOf g d)).isSome = true ∧
    timeSliced d = true ∧ atBoundary (held d) d = true ∧ (grantOf (held d) d).active = true ∧ (grantOf (held d) d).start + (grantOf (held d) d).quantum ≤ 2000000 ∧
    ¬(grantOf (held d) d).start + (grantOf (held d) d).quantum ≤ 1999999 ∧ (blockIssues (held d) (unitBlock d) && atBoundary (held d) d &&
      grantOver ((held d).at 5) d r 5) = false := by decide +kernel

/-- The table's entries of accounts 2 (all zero), 3 (a reserved bit) and 4 (28,160 MiB of SRAM); account 1 holds one MiB. -/
def accountWrites : List CWrite := [⟨192, 8, 2 ^ 35⟩, ⟨256, 8, 28160⟩]
def admitted : State := { up with accounts := [(1, { params := { sramQuota := 1 } })], cmem := applyStores [] accountWrites }

theorem fits_of_one (a b c d e f : Nat) (h : 1 ≤ a) :
    ((List.zip [1, 0, 0, 0, 0, 0] [a, b, c, d, e, f]).all fun q => decide (q.1 ≤ q.2)) = true := by simp [h]

theorem within_of_zero : withinCapacity admitted 2 (paramsOfEntry 0) = true := by
  have h : reserved admitted 2 (paramsOfEntry 0) = [1, 0, 0, 0, 0, 0] := by decide
  unfold withinCapacity capacities
  rw [h]
  exact fits_of_one _ _ _ _ _ _ (by decide)

theorem witness_AccountCommandsTakeEffect :
    let s := admitted
    let a : Account := { params := { sramQuota := 1 } }
    let lone : State := { s with stewards := ⟨{}, {}⟩ }
    let t : State := { s with tallies := [(obj 1 3, tally3)], tensors := [(obj 1 9, { place := { extents := [(0, [2048])] } })] }
    endpointUp s .west = true ∧ endpointUp lone .west = true ∧ commandsTaken s = true ∧ commandsTaken lone = true ∧ s.hub.accountResult ≠ resBusy ∧
    charterHeld s = true ∧ charterHeld lone = false ∧ s.account? 2 = none ∧ entryOf s 2 = 0 ∧ entryOk (entryOf s 2) = true ∧ entryOk (entryOf s 3) = false ∧
    entryOk (entryOf s 4) = true ∧ withinCapacity s 4 (paramsOfEntry (entryOf s 4)) = false ∧ s.marginUsed = 0 ∧ 0 < t.marginUsed ∧
    s.account? 1 = some a ∧ a.removing = false ∧ modeChanged a.params (paramsOfEntry 0) = false ∧ modeChanged { a.params with clip := true } (paramsOfEntry 0) = true ∧
    belowCharges s 1 a (paramsOfEntry 0) = false ∧ belowCharges t 1 a (paramsOfEntry 0) = true ∧ raises a.params (paramsOfEntry 0) = false ∧
    raises a.params (paramsOfEntry (entryOf s 4)) = true ∧ s.items = [] ∧ find (item (runs copySlip)).items 5 = some { runs copySlip with account := 1 } ∧
    ({ up.hub with accountResult := resBusy } : HubRegs).accountResult = resBusy ∧ commandOf (0 : Word64).toNat = 0 ∧ 3 < commandOf (4 : Word64).toNat := by
  decide +kernel

theorem witness_FencedBlocksResumeElsewhere :
    let b : Word16 := BitVec.ofNat 16 (dtbBlock 0)
    let s : State := { item (runs digitalSlip) with dtbs := [(0, { item := some 5 })] }
    let f : State := { s with islands := [(dtbBlock 0, { fenced := true, fences := 1 })] }
    watched b.toNat = true ∧ s.power.powerGood = true ∧ (s.island b.toNat).fenced = false ∧ holdsWork s b.toNat = true ∧ holdsWork up b.toNat = false ∧
    (s.island b.toNat).pulseAt + ms ≤ ms ∧ ms - 1 < (s.island b.toNat).pulseAt + ms ∧ (f.island b.toNat).fenced = true ∧
    validBlock (BitVec.ofNat 16 (dtbBlock 1)).toNat = true ∧ mayRecover f (domainOf b.toNat) = true ∧
    targetOk f b.toNat [1] (some (BitVec.ofNat 16 (dtbBlock 1))) = true ∧ targetOk f b.toNat [1] none = true ∧ itemsOn f b.toNat = [5] ∧
    isClear (runs digitalSlip).slip = false ∧ (runs digitalSlip).recoveries < 3 ∧ ({ runs digitalSlip with recoveries := 3 } : Item).recoveries = 3 ∧
    halfOut f (halfOfBlock b.toNat) = false ∧ b.toNat ≠ stewardBlock .west ∧ b.toNat ≠ stewardBlock .east ∧ (f.island b.toNat).withdrawn = false ∧
    (f.island b.toNat).fencedAt + retestNs ≤ retestNs ∧ ¬(f.island b.toNat).fencedAt + retestNs ≤ retestNs - 1 ∧ (f.island b.toNat).fences < 3 ∧
    regionFenced s (blockLocation b.toNat) = false ∧ regionFenced { s with islands := [(switchBlock 0, { fenced := true })] } (blockLocation b.toNat) = true ∧
    [5].Nodup ∧ (let g := { f with stewards := ⟨{ holder := true }, { fenced := true, fences := 1 }⟩ }
      (BitVec.ofNat 16 (stewardBlock .east) : Word16).toNat = stewardBlock .east ∧ validBlock (stewardBlock .east) = true ∧ halfOut g .east = false ∧
      ((g.steward .east).fenced && !(g.steward .east).withdrawn && decide ((g.steward .east).fencedAt + retestNs ≤ retestNs) &&
        decide ((g.steward .east).fences < 3)) = true) := by
  decide +kernel

theorem witness_RegionsStacksAndHalvesAreFenced :
    let m : Word16 := BitVec.ofNat 16 (moverBlock 1)
    let s := stack {}
    let busy : State := { up with recovering := some ⟨.peer 7, 0x4006, 0, 0, 0, 0⟩ }
    let waits : State := { up with recoveryQueue := [⟨.region 0, 0x3001, switchBlock 0, 0, 0, 0⟩, ⟨.half .east, 0x4008, 0, 0, 0, 0⟩] }
    validBlock m.toNat = true ∧ blockLocation m.toNat = 1 ∧ regionFenced up 1 = false ∧ regionCause up 1 m.toNat = true ∧
    regionCause up 0 (dtbBlock 0) = false ∧ mayRecover up (.region 1) = true ∧ mayRecover busy (.region 1) = false ∧ hbmServes s 0 = true ∧
    hbmServes (stack { fenced := true }) 0 = false ∧ up.bridgeUp = true ∧ up.power.powerGood = true ∧ halfOut up .west = false ∧
    continues { up with islands := [(hubBlock .east, { epoch := 1 })] } .west = true ∧ continues up .east = false ∧ busy.recovering ≠ none ∧
    mayRecover s (domainOf (hbmBlock 0)) = true ∧ mayRecover { s with recovering := busy.recovering } (domainOf (hbmBlock 0)) = false ∧ charterHeld s = true ∧
    ledgersOn s [0] = [] ∧ (let x := { ownerItem with account := 1 }
      let l := net x [(5, { ownerTicket with state := 1, role := 0, extents := [(0, [3000])] })]
      5 ∈ ledgersOn l [0] ∧ find l.items 5 = some x ∧ isClear x.slip = true) ∧
    waits.recovering = none ∧ waits.recoveryQueue ≠ [] ∧ up.recoveryQueue = [] := by decide +kernel

/-- Companion memory that holds a record of the charter at 0, and the hub set to read it there. -/
def witnessed (w : Nat) (s : State) : State :=
  { s with cmem := applyStores [] [⟨0, 32, w⟩], hub := { s.hub with witnessWritten := true } }

theorem witness_CharterMovesWithTheEpoch_renewal :
    let s := witnessed (witnessWord 1 .west 0) up
    let u : State := s.at (10 * ms)
    let w := readLE s.cmem 0 32
    let x := s.steward .west
    stewardWorks s .west = true ∧ leaseRuns u .west = true ∧ x.renewedAt + 10 * ms ≤ 10 * ms ∧ ¬x.renewedAt + 10 * ms ≤ 10 * ms - 1 ∧
    witSound w = true ∧ ownRecord u .west w = true ∧ witEpoch w ≤ x.epoch ∧
    (let v := readLE (witnessed (witnessWord 2 .east 0) up).cmem 0 32
     witSound v = true ∧ x.epoch < witEpoch v) ∧
    believesHolder s .west = true ∧ x.renewedAt + 45 * ms ≤ 45 * ms ∧ ¬x.renewedAt + 45 * ms ≤ 45 * ms - 1 ∧
    x.epoch < (2 : Word64).toNat ∧ (1 : Word64).toNat ≤ x.epoch ∧ believesHolder s .east = false := by decide +kernel

theorem witness_CharterMovesWithTheEpoch_take :
    let s := witnessed (withComplement 64 4) { up with stewards := ⟨{ holder := true, epoch := 4 }, { peerFenced := true }⟩ }
    let w := readLE s.cmem 0 32
    let r := witnessed (witnessWord 4 .west 9) up
    let c : State := { r with stewards := ⟨{ holder := true }, { corruptWitness := true, rereadAt := 5 }⟩ }
    s.power.powerGood = true ∧ stewardWorks s .east = true ∧ believesHolder s .east = false ∧ s.hub.witnessWritten = true ∧
    (s.steward .east).corruptWitness = false ∧ 5 ≤ s.power.stage ∧ s.power.stage ≤ 7 ∧ witSound w = true ∧ mayTake s .east w 9 = true ∧
    witSound (readLE r.cmem 0 32) = true ∧ mayTake r .east (readLE r.cmem 0 32) 9 = false ∧ witSound 0 = false ∧ stewardWorks c .east = true ∧
    (c.steward .east).corruptWitness = true ∧ (c.steward .east).rereadAt + 10 * ms ≤ 5 + 10 * ms ∧ ¬(c.steward .east).rereadAt + 10 * ms ≤ 10 * ms := by
  decide +kernel

/-- A boot image of a kind and version with no code, its signatures good. -/
def image (kind version : Nat) : Memory := writeBytes [] 0 (toLE 16 (1 + field 8 8 kind + field 32 32 version))
def good : Verdict := ⟨true, true, true⟩

theorem witness_EpochsStewardsAndUpdates :
    let b : Word16 := BitVec.ofNat 16 (dtbBlock 3)
    let s : State := { up with islands := [(dtbBlock 3, { epoch := 4 })], flash := { slotA := image 2 1, slotB := image 2 2 } }
    let e := fun n : Nat => (BitVec.ofNat 64 n, BitVec.ofNat 64 (onesComplement 64 n))
    let done : Steward := { restarting := true }
    validBlock b.toNat = true ∧ halfOut s (halfOfBlock b.toNat) = false ∧ (e 4).2.toNat = onesComplement 64 (e 4).1.toNat ∧
    (0 : Word64).toNat ≠ onesComplement 64 (e 4).1.toNat ∧ (e 3).1.toNat < (s.island b.toNat).epoch ∧ (s.island b.toNat).epoch < (e 5).1.toNat ∧
    stewardsRun s = true ∧ stewardWorks s .west = true ∧ (s.steward .west).heartbeatAt + 5 * ms ≤ 5 * ms ∧ 5 * ms - 1 < (s.steward .west).heartbeatAt + 5 * ms ∧
    stewardWorks { s with stewards := ⟨{}, { fenced := true }⟩ } .east = false ∧ stewardsRun State.reset = false ∧ endpointUp s .west = true ∧
    restartBit (2 : Word64).toNat .east = true ∧ bit (1 : Word64).toNat 0 = true ∧ updating s = false ∧ charterHeld s = true ∧ s.power.stage = 7 ∧
    (holderOrWest s).other = .east ∧ slotRuns s true good = true ∧ slotRuns s true { good with signature := false } = false ∧
    done.restarting = true ∧ done.restartRequested = false ∧ ({ done with restartRequested := true } : Steward).restartRequested = true ∧
    ({} : Steward).restarting = false ∧ updating { s with hub := { fwState := 2 } } = true := by decide +kernel

theorem witness_DumpsAreTakenAndPresented :
    let d : Dump := ⟨1, 2, 0x4005, [7, 8]⟩
    let s : State := { up with dumpDue := [(2, 0x4005)], dumps := [d] }
    s.power.powerGood = true ∧ s.dumpDue = (2, 0x4005) :: [] ∧ up.dumpDue = [] ∧ up.hub.dumpRequest = false ∧ endpointUp s .west = true ∧
    bit (1 : Word64).toNat 0 = true ∧ bit (4 : Word64).toNat 0 = false ∧ pageAccess 0 4096 (2 ^ 28) = true ∧ pageAccess 1 4096 (2 ^ 28) = false ∧
    presented s = some d ∧ 1 < d.bytes.length := by decide +kernel

/-! ### Clocks, registers, links, attestation, board management and power -/

theorem witness_TimeBasesMarksAndExports :
    let b := dtbBlock 0
    let s : State := { up with rates := ⟨[(b, { hubCount := 5 })], []⟩, hub := { up.hub with telemetryInterval := 10, telemetryBase := 2 ^ 18 } }
    let hub := fun n => islandCount { s with now := n } (hubBlock .west)
    rateBlock .west b = true ∧ rateBlock .west (hubBlock .east) = true ∧ rateBlock .west (dtbBlock 95) = false ∧ islandFenced s b = false ∧
    islandFenced { s with islands := [(b, { fenced := true })] } b = true ∧ (hub 0 + hub 4) / 2 ≤ (rateOf s .west b).hubCount ∧
    (rateOf s .west b).hubCount < (hub 1000 + hub 2000) / 2 ∧
    s.power.powerGood = true ∧ halfOut s .west = false ∧ halfOut { s with halfFenced := ⟨true, false⟩ } .west = true ∧ endpointUp s .west = true ∧
    s.telemetry.companionAt.getD s.power.powerGoodAt + 100 * ms ≤ 100 * ms ∧ ¬s.telemetry.companionAt.getD s.power.powerGoodAt + 100 * ms ≤ 100 * ms - 1 ∧
    validBlock b = true ∧ halfOfBlock b = .west ∧ (s.island b).fenced = false ∧
    ({ s with islands := [(b, { fenced := true, counters := [(0, { value := 3, wrap := true })] })] } : State).island b ≠ {} ∧
    s.hub.telemetryInterval ≠ 0 ∧ stewardServes s = true ∧ s.telemetry.exportedAt + s.hub.telemetryInterval * ms ≤ 10 * ms ∧
    ¬s.telemetry.exportedAt + s.hub.telemetryInterval * ms ≤ 10 * ms - 1 ∧ uncounted (blockKind b) 0 = false := by decide +kernel

theorem witness_WindowAccessesAnswerByTheMap :
    let lone : State := { up with stewards := ⟨{}, {}⟩ }
    let busy : State := { up with peers := [(7, { sendOpen := true })] }
    let held : State := { up with lastWrite := some (64, 8) }
    endpointUp up .east = true ∧ endpointUp lone .west = true ∧ stewardServes lone = false ∧ stewardServes up = true ∧ regModuleId ∈ stewardRegisters ∧
    ownCommand regModuleId 0 = false ∧ ownCommand (regVfPortPhy 31) 0 = true ∧ up.accounts = [] ∧ run.accounts ≠ [] ∧
    (2 ≤ bits 2 5 0 ∧ bits 32 5 0 ≤ 32) ∧ bits 1 5 0 < 2 ∧ 32 < bits 33 5 0 ∧ (bits 0x1806 2 0 ≤ 6 ∧ bits 0x1806 12 8 ≤ 24) ∧ bits 0 2 0 = 0 ∧
    24 < bits 0x1901 12 8 ∧ bits 1000 9 0 ≤ 1000 ∧ 1000 < bits 1001 9 0 ∧ noContext up = true ∧ noContext busy = false ∧ bit 0x100 8 = true ∧
    bit 0x249 8 = false ∧ regIdentity ∈ hubRegisters ∧ regIdentity ≠ regSpdmW ∧ regIdentity ≠ regSpdmE ∧ ownCommand regIdentity 0 = false ∧
    bit 4096 13 = false ∧ up.hub.witnessWritten = false ∧ 3 ≤ (3 : Byte).toNat ∧ 4096 < 1 + 4096 ∧
    pageAccess 0x800 8 (2 ^ 30) = true ∧ reservedAccess 0x800 8 true = true ∧ reservedAccess 0x800 8 false = true ∧ pageAccess 0x100000 64 (2 ^ 30) = true ∧
    reservedAccess 0x100000 64 false = true ∧ reservedAccess 0x100000 64 true = false ∧ flashWriteOk 0 64 = true ∧
    flashWriteOk (2 ^ 25 - 64) 64 = true ∧ updating up = false ∧ updating { up with hub := { fwState := 4 } } = true ∧ alternateIsB up = true ∧
    alternateIsB { up with stewards := ⟨{ holder := true, slotB := true }, {}⟩ } = false ∧ lineWritten held 64 = true ∧ lineWritten held 128 = false := by
  decide +kernel

theorem witness_LinksAndPortsChangeWidth :
    let w : State := { up with links := ⟨{ trained := true, lanes := 0xFFE, width := 8 }, { trained := true }⟩ }
    let p := fun q : Port => ({ up with ports := [(3, q)] } : State)
    endpointUp up .west = true ∧ (up.links.get .west).trained = true ∧ bit (up.links.get .west).lanes 11 = true ∧ bit (w.links.get .west).lanes 0 = false ∧
    (w.links.get .west).width < 12 ∧ (w.links.get .west).retryAt + 600 * 1000 * ms ≤ 600000 * ms ∧ (0xFFF : BitVec 12).toNat = 0xFFF ∧
    (0x7FF : BitVec 12).toNat ≠ 0xFFF ∧ (up.links.get .west).oscillator = false ∧ bit (16 : Word64).toNat 4 = true ∧ bits 7 2 0 = 7 ∧ bits 6 2 0 ≠ 7 ∧
    stewardServes up = true ∧ stewardServes State.reset = false ∧ halfOut up (halfOfPort 3) = false ∧ ((p { state := 2 }).port 3).state = 2 ∧
    ((p { state := 3 }).port 3).state = 3 ∧ ((p { state := 1 }).port 3).state = 1 ∧ (up.port 3).state = 0 := by decide +kernel

theorem witness_RespondersAnswerThroughTheMailbox :
    let out : State := { up with halfFenced := ⟨false, true⟩ }
    endpointUp up .west = true ∧ halfOut up .west = false ∧ halfOut up .east = false ∧ 1 ≤ (4096 : BitVec 13).toNat ∧ (4096 : BitVec 13).toNat ≤ 4096 ∧
    (0 : BitVec 13).toNat = 0 ∧ 4096 < (4097 : BitVec 13).toNat ∧ endpointUp out .west = true ∧ halfOut out .east = true := by decide +kernel

theorem witness_I3cServesItsPages :
    let s : State := { up with i3c := { address := some 8, page := 3 } }
    up.power.inputInRange = true ∧ up.i3c.address = none ∧ s.i3c.address ≠ none ∧ bit (1 : Byte).toNat 0 = true ∧ bit (2 : Byte).toNat 0 = false ∧
    s.i3c.page = 3 ∧ State.reset.power.inputInRange = false ∧ up.power.powerGood = true ∧ halfOut up .east = false ∧ (0x3A : BitVec 7).toNat = 0x3A ∧
    up.i3c.updatedAt + 100 * ms ≤ 100 * ms ∧ 100 * ms - 1 < up.i3c.updatedAt + 100 * ms := by decide +kernel

/-- A record that is laid out as Table 14.7 says. -/
def record : ConfigRecord := { format := 1, product := 9, sku := 0x4208, hbmGib := 256, keyIndex := 2, length := 3796 }

theorem witness_StartsUpByStagesAndGoesDark :
    let off : State := { State.reset with power := { inputInRange := true } }
    let bad : Verdict := { good with signature := false }
    let s : State := { up with flash := { recordW := record, loaderW := image 1 1, loaderE := image 1 1, slotA := image 2 1 },
                               power := { up.power with stage := 0, readyPin := false } }
    off.power.enable = false ∧ off.power.thermtripN = true ∧ s.power.powerGood = true ∧ s.power.stage = 0 ∧
    loaderOk s .west ⟨good, good⟩ = true ∧ loaderOk s .west ⟨bad, bad⟩ = false ∧ loaderOk s .east ⟨bad, bad⟩ = false ∧ loaderOk s .east ⟨good, good⟩ = true ∧
    loaderOk s .east ⟨good, bad⟩ = false ∧ chooseRecord s.flash ⟨good, good⟩ = some record ∧ chooseRecord s.flash ⟨bad, bad⟩ = none ∧
    chooseSlot { s with power := { s.power with record := record } } ⟨good, bad⟩ = some false ∧
    chooseSlot { s with power := { s.power with record := record } } ⟨bad, bad⟩ = none ∧
    (validBlock (BitVec.ofNat 16 (dtbBlock 0) : Word16).toNat = true ∧ ([16, 16, 16, 16, 16, 16, 16, 16] : List Nat).length = 8) ∧
    testCodeOk (dtbBlock 0) 0x2601 = true ∧ testCodeOk (dtbBlock 0) 0x4007 = false ∧ off.power.powerGood = false ∧ off.power.stage ≠ 7 ∧
    ({ s.power with stage := 2 } : Power).stage = 2 ∧ charterHeld up = true ∧ up.power.enable = true ∧ up.power.stage = 7 ∧ up.items = [] ∧
    tolerated 37999 100000 = true ∧ tolerated 37999 100001 = false ∧ tolerated 55000 ms = true ∧ tolerated 55001 0 = false ∧ (8 * 115 : Int) ≤ 920 := by
  decide +kernel

theorem witness_ClocksFollowDroopAndTemperature :
    let b := dtbBlock 0
    let s : State := { up with islands := [(b, { droopSteps := 3, tempSteps := 2 })] }
    up.power.powerGood = true ∧ validBlock b = true ∧ (up.island b).droopSteps < min 8 (1 + (970 - 969) / 10) ∧ (s.island b).droopSteps = 3 ∧
    min 8 (1 + (970 - 900) / 10) = 8 ∧ min 8 (1 + (970 - 800) / 10) = 8 ∧ (s.island b).droopAt + 1000 ≤ 1000 ∧ 999 < (s.island b).droopAt + 1000 ∧
    (up.island b).tempSteps = 0 ∧ (s.island b).tempAt + 10000 ≤ 10000 ∧ 9999 < (s.island b).tempAt + 10000 ∧ (s.island b).tempAt + 100000 ≤ 100000 ∧
    (8 * 100 : Int) ≤ 800 ∧ (775 : Int) < 8 * 97 ∧ State.reset.power.powerGood = false := by decide +kernel

/-! ### The commands leave the queue, and the invariants hold of states that step -/

/-- Companion memory and one tally that a wait of 3 heads. -/
def settled : State :=
  { run with cmem := [⟨8, 1⟩], tallies := [(obj 1 3, { tally3 with queue := [⟨9, 3, true, false⟩] })], pending := [.rstdaa] }

theorem witness_CommandsLeaveTheQueue : exec .rstdaa settled = .next settled ∧ settled.pending ≠ [] := ⟨rfl, by decide⟩

theorem witness_CommandsTouchOnlyTheirParts : exec (.pauseFrame 0) run = .next run := by rfl

theorem witness_WellFormedCommandsComplete :
    (Instr.rstdaa.wf = true ∧ hbmPresent settled .rstdaa = true) ∧ ¬((Instr.i3cPageRead 0).wf = true ∧ hbmPresent settled (.i3cPageRead 0) = true) := by decide

theorem witness_StepsKeepMemoriesCanonical :
    MemoriesCanonical settled ∧ step settled = .next { settled with pending := [] } := by
  refine ⟨?_, rfl⟩
  unfold MemoriesCanonical; decide

theorem witness_StepsKeepTalliesServed : TalliesServed settled := by
  intro h r hr
  simp only [settled, find] at hr
  split at hr
  · cases hr; exact ⟨by decide, by decide, fun w hw => by cases hw; decide⟩
  · cases hr

/-! ### The manual's worked examples -/

def finite (neg : Bool) (m : Nat) (e : Int) : Val := .fin neg m e
def noNan (_ : Nat) : Nat := 0

/-- 01: DTB 17 of region 2 is 0x4111; stack 6 is 0xB302. -/
theorem test_block_identifiers : dtbBlock 65 = 0x4111 ∧ hbmBlock 6 = 0xB302 := by decide

/-- 02: the handle of weight 0x31 and of tally 7 of account 5; the bell's word; 0x0000_0001 announces three slips from 0xFFFF_FFFE. -/
theorem test_handles_and_indices :
    mkHandle 5 0 0x31 = 0x1400000000000031 ∧ tallyHandle 5 7 = 0x1500000000000007 ∧ withComplement 32 1 = 0xFFFFFFFE00000001 ∧ sub32 1 0xFFFFFFFE = 3 := by
  decide

/-- 03: an estimate of 2.9 under headroom 4 gives S = 2^-5, and one of 20 gives 2^-2. -/
theorem test_f8_scale : tensorScaleExp .f8 (F32.val 0x4039999A).toDy 2 = -5 ∧ tensorScaleExp .f8 ⟨20, 0⟩ 2 = -2 := by decide

/-- 03: block A (0.75 and 0.3) and block B (20 and 1) at S = 2^-5, in native and in Orvane mode. -/
theorem test_f8_blocks :
    convertGroup .f8 [finite false 3 (-2), F32.val 0x3E99999A] (-5) noNan = ⟨0x7B, [0x7C, 0x72]⟩ ∧
    groupCap .f8 [finite false 20 0, finite false 1 0] (-5) = 1 ∧
    convertGroup .f8 [finite false 20 0, finite false 1 0] (-5) noNan = ⟨0x80, [0x7A, 0x58]⟩ ∧
    convertGroupOrvane .f8 [finite false 20 0, finite false 1 0] (-5) noNan = ⟨0x7F, [0x7F, 0x60]⟩ := by decide

/-- 04: 13, -40, 8 and 63 split into their slices. -/
theorem test_weight_slices :
    slices .aw5 13 = [3, 3, 1] ∧ slices .aw5 8 = [2, 2, 0] ∧ slices .aw7 (-40) = [-3, -3, 2, 2, 0] ∧ slices .aw7 63 = [3, 3, 3, 3, 3] := by decide

/-- 04: 400 rows of 2 and then 300 of 7 take two phases, of sums 1,584 and 1,316. -/
theorem test_row_phases :
    ((packPhases 8 (((List.range 400).map fun k => (k, 2)) ++ (List.range 300).map fun k => (400 + k, 7)) [] 0).map fun p =>
      (p.map fun q => q.2.natAbs).sum) = [1584, 1316] := by decide +kernel

/-- 04: the input vector of the worked example: drive scale 2^-1, row 41 the outlier, codes 5, -3 and 7. -/
theorem test_drive_codes :
    let b : Tensor := { rows := 1, cols := 64, fmt := .bf16, codes := [(3, 0x4020), (10, 0xBFC0), (41, 0x41F0), (60, 0x4060)] }
    let w := slip 1 0 0 0 0 0 (field 32 8 1 + 0x40600000) 0
    driveExp b w 0 = -1 ∧ ((List.range 64).filter (isOutlier b w 0)) = [41] ∧ [3, 10, 60, 11].map (driveCode b w 0) = [5, -3, 7, 0] := by decide +kernel

/-- 05: true cells 189, 191 and 64 sixty-fourths hold 12.875; v* is 14, with slices 3 and 2. -/
theorem test_settle_example :
    let d : Deck := { struck := [(pairKey 3 0, 189), (pairKey 3 1, 191), (pairKey 3 2, 64)] }
    Dy.eqv (deckValue d .aw5 3 0) ⟨103, -3⟩ = true ∧ slices .aw5 14 = [3, 3, 2] := by decide

/-- 06: the products of the cancellation example. -/
def cancelling : List (Val × Val) :=
  (List.range 256).map fun k => if k = 0 then (finite false 256 0, finite false 256 0) else if k = 128 then (finite false 256 0, finite true 256 0)
    else (finite false 1 (-4), finite false 1 (-4))

theorem test_cancellation :
    chunkedValue false cancelling = 0 ∧ residentAnchor ⟨448, 0⟩ ⟨448, 0⟩ 256 = -44 ∧ residentValue (some (-44)) cancelling = 0x3F7E0000 := by decide +kernel

/-- 09: the four blocks of the three modules, at the agreed exponent -4. -/
theorem test_clear_encoding :
    convertGroup .f8w [finite false 3 0, finite true 1 (-1), finite false 1 0, finite false 5 (-2)] (-4) noNan = ⟨0x75, [0x7A, 0xF0, 0x74, 0x75]⟩ ∧
    convertGroup .f8w [finite true 5 (-1), finite false 3 (-3), .inf false, finite false 3 (-3)] (-4) noNan = ⟨0x75, [0xF9, 0x6E, 0x7C, 0x6E]⟩ ∧
    convertGroup .f8w [finite false 3 (-1), .zero, finite false 1 0] (-4) noNan = ⟨0x74, [0x7A, 0, 0x78]⟩ ∧
    convertGroup .f8w [finite false 1 (-2)] (-4) noNan = ⟨0x72, [0x78]⟩ ∧ convertGroup .f8w [.zero, finite false 3 (-134)] (-4) noNan = ⟨0, [0, 0x36]⟩ := by
  decide

/-- 09: the owner's ledger after the three contributions, element 33 rounded and counted as dust, element 2 poisoned. -/
theorem test_clear_ledger :
    let l : List (Nat × Val) := [(0, finite false 3 0), (1, finite true 1 (-1)), (2, finite false 1 0), (3, finite false 5 (-2)), (32, finite false 1 (-2)),
      (0, finite true 5 (-1)), (1, finite false 3 (-3)), (2, .inf false), (3, finite false 3 (-3)), (33, finite false 3 (-134)),
      (0, finite false 3 (-1)), (2, finite false 1 0)]
    let a := l.foldl (addElement (-4)) ⟨[], [], 0, []⟩
    lookup 0 a.ledger 0 = 2 ^ 133 ∧ lookup 0 a.ledger 1 = -2 ^ 129 ∧ lookup 0 a.ledger 3 = 13 * 2 ^ 129 ∧ lookup 0 a.ledger 32 = 2 ^ 130 ∧
    lookup 0 a.ledger 33 = 1 ∧ a.poisoned = [2] ∧ a.dust = 1 ∧ F32.ofDy ⟨1, -132⟩ = 0x00020000 ∧ F32.ofDy ⟨-2 ^ 129, -132⟩ = 0xBE000000 := by decide

/-- 10: step 5 of the worked example: a signal of 6 satisfies waits of 3 and 1 at once and leaves COUNT 3; step 6 finds 3 + 6 above 8. -/
theorem test_tally_example :
    let r : Tally := { ({ capacity := 8, account := 1, number := 3, queue := [⟨7, 3, true, false⟩, ⟨5, 1, false, false⟩] } : Tally).setCount 1 with number := 3 }
    let s := (tallied r (runs 0)).signalTally (obj 1 3) 6 0 9
    ((find s.1.tallies (obj 1 3)).map fun t => (t.count, t.queue)) = some (3, []) ∧ s.2 = none ∧ (s.1.signalTally (obj 1 3) 6 0 9).2 = some 0x2101 ∧
    ((find (s.1.signalTally (obj 1 3) 6 0 9).1.tallies (obj 1 3)).map fun t => (t.count, t.lastFault)) = some (3, 0x2101) := by decide +kernel

/-- 10: a DTB at the nominal clock has RATE 0x01AA_AAAB. -/
theorem test_rate_example : rateBetween {} 2000 1200 = 0x01AAAAAB := by decide

/-- 07: with 9,216 MiB stashed, layer 36 is kept in reserve and opens the run; then layer 37 is marked and layer 40 kept. -/
theorem test_vault_example :
    let stash := fun n : Nat => ({ fresh (slip 6 0 (obj 0 1) 0 0 0 n 0) with account := 1 } : Item)
    let a : Account := { params := { vaultQuota := 10240 }, vault := [(0, { bytes := 9216 * mib })] }
    let s : State := { up with accounts := [(1, a)] }
    let d := s.decideStash (stash 36) (256 * mib)
    d.2.decision = .reserve ∧ (d.1.decideStash (stash 37) (256 * mib)).2.decision = .marked ∧ (d.1.decideStash (stash 37) (256 * mib)).2.aux0 = 1 ∧
    (d.1.decideStash (stash 40) (256 * mib)).2.decision = .reserve ∧ (s.decideStash (stash 35) 0).2.decision = .ordinary := by decide

/-- 14: a boot image's fields, and the choice of the slot above the floor. -/
theorem test_slot_choice :
    let s : State := { up with flash := { slotA := image 2 0x00020300, slotB := image 2 0x00020501 },
                               power := { up.power with record := { record with minFwVersion := 0x00020400 } } }
    chooseSlot s ⟨good, good⟩ = some true := by decide +kernel

/-- 13: before the firmware is verified the port offers EXTEST; after it EXTEST selects BYPASS, and IDCODE stays. -/
theorem test_tap :
    tapSelects { up with power := { up.power with stage := 0 } } .west .extest = .extest ∧ tapSelects up .west .extest = .bypass ∧
    tapSelects up .east .idcode = .idcode := by decide

end Sys2Proof.Tests
end

/-! ### Frames and the running of an item's work -/

namespace Sys2Proof.Machine

open Sys2Proof

theorem Touches.mono {ps qs : List Part} {s t : State} (h : Touches ps s t) (hq : ps ⊆ qs) : Touches qs s t :=
  fun p hp => h p fun hm => hp (hq hm)

/-- A running item of the right kind does its work. -/
theorem working_runs {s : State} {id : Nat} {x : Item} (hr : ItemRuns s id x) {kind : Nat → Bool} (hk : kind x.slip = true) (f : Item → State) :
    s.working id kind f = .next (f x) := by
  simp [State.working, hr.1, hr.2, hk]

theorem running_reads {s : State} {id : Nat} {x : Item} (hr : ItemReads s id x) {kind : Nat → Bool} (hk : kind x.slip = true) (f : Item → State) :
    s.running id kind f = .next (f x) := by
  simp [State.running, working_runs hr.1 hk, hr.2]

theorem paramsOf_congr {s t : State} (h : t.accounts = s.accounts) (a : Nat) : paramsOf t a = paramsOf s a := by
  simp only [paramsOf, State.account?, h]

/-! ### Fault records (R365, R366) -/

/-- The record as the unit that makes it stamps it. -/
def stampedBy (s : State) (unit : Nat) (r : FaultRecord) : FaultRecord := { r with stamp := islandCount s unit, recordedAt := s.now }

theorem addFault_kept (i : Island) (r : FaultRecord) :
    addFault i r = { i with faults := (addFault i r).faults, overwritten := (addFault i r).overwritten } := by
  unfold addFault
  split
  · rfl
  · split <;> rfl

/-- What a register holds after a record depends on what it held. -/
theorem addFault_faults_congr {i j : Island} (h : i.faults = j.faults) (r : FaultRecord) : (addFault i r).faults = (addFault j r).faults := by
  unfold addFault
  rw [h]
  split
  · rfl
  · split <;> rfl

@[simp] theorem addFault_fenced (i : Island) (r : FaultRecord) : (addFault i r).fenced = i.fenced := by rw [addFault_kept]
@[simp] theorem addFault_struck (i : Island) (r : FaultRecord) : (addFault i r).struck = i.struck := by rw [addFault_kept]
@[simp] theorem addFault_fences (i : Island) (r : FaultRecord) : (addFault i r).fences = i.fences := by rw [addFault_kept]
@[simp] theorem addFault_withdrawn (i : Island) (r : FaultRecord) : (addFault i r).withdrawn = i.withdrawn := by rw [addFault_kept]

theorem recordBy_islands (s : State) (unit : Nat) {r : FaultRecord} (h : r.action ≠ 1) :
    (s.recordBy unit r).islands = (s.setIsland r.source (addFault (s.island r.source) (stampedBy s unit r))).islands := by
  unfold State.recordBy
  dsimp only
  rw [if_neg h]
  repeat' split
  all_goals rfl

/-- The record stands in its source's register. -/
theorem recordBy_island (s : State) (unit : Nat) {r : FaultRecord} (h : r.action ≠ 1) :
    (s.recordBy unit r).island r.source = addFault (s.island r.source) (stampedBy s unit r) := by
  unfold State.island
  rw [recordBy_islands s unit h]
  exact s.setIsland_same _ _

theorem recordBy_other (s : State) (unit : Nat) {r : FaultRecord} (h : r.action ≠ 1) {k : Nat} (hk : k ≠ r.source) :
    (s.recordBy unit r).island k = s.island k := by
  unfold State.island
  rw [recordBy_islands s unit h]
  exact s.setIsland_other _ hk

/-- A record of a block's or unit's own calls for no audit dump (R334). -/
theorem touches_recordBy_local {ps : List Part} {s0 s : State} (hk : Touches ps s0 s) (hi : Part.islands ∈ ps) (unit : Nat) {r : FaultRecord}
    (hc : r.code < 0x3001) : Touches ps s0 (s.recordBy unit r) := by
  have h1 : ¬ 0x4000 ≤ r.code := by omega
  have h2 : r.code ≠ 0x4009 := by omega
  have h3 : r.code ≠ 0x3001 := by omega
  unfold State.recordBy
  dsimp only
  simp only [h1, h2, h3, decide_false, Bool.false_and, Bool.false_eq_true, if_false]
  have h := touches_State_setIsland hk hi
  exact touches_ite (touches_State_bump (h _ _) hi _ _ _) (h _ _)

/-! ### Fences (R369, R374) -/

theorem fenceBlock_island (s : State) (b : Nat) : (s.fenceBlock b).island b =
    { s.island b with fenced := true, fencedAt := s.now, fences := (s.island b).fences + 1, withdrawn := (s.island b).withdrawn || decide (2 ≤ (s.island b).fences) } := by
  unfold State.fenceBlock
  dsimp only
  split
  all_goals exact s.setIsland_same _ _

theorem fenceBlock_other (s : State) {b k : Nat} (h : k ≠ b) : (s.fenceBlock b).island k = s.island k := by
  unfold State.fenceBlock
  dsimp only
  split
  all_goals exact s.setIsland_other _ h

/-- What stands in a block goes without a trace in any island. -/
theorem dropWork_islands (s : State) (b : Nat) : (s.dropWork b).islands = s.islands :=
  (touches_State_dropWork (ps := [.items, .decks, .aabs, .dtbs, .tellers, .banks]) .rfl (by decide) (by decide) (by decide) (by decide) (by decide)
    (by decide) b : Touches _ s _) .islands (by decide)

/-- The items that a block's stripping leaves to be accounted for. -/
def strippedFrom (s : State) (b : Nat) (ids : List Nat) : List Nat := ((s.island b).struck ++ itemsOn s b ++ ids.filter fun i => decide (i ≠ 0)).eraseDups

theorem strip_island (s : State) (b : Nat) (ids : List Nat) : (s.strip b ids).island b = { s.island b with struck := strippedFrom s b ids } := by
  have hi : (s.dropWork b).island b = s.island b := by unfold State.island; rw [dropWork_islands]
  unfold State.strip
  dsimp only
  rw [← strippedFrom.eq_def]
  split
  · next h =>
    have hs : (s.island b).struck = [] := List.eq_nil_iff_forall_not_mem.mpr fun a ha => by
      have hm : a ∈ strippedFrom s b ids := by simp [strippedFrom, ha]
      exact absurd (h ▸ hm) List.not_mem_nil
    rw [hi, h, ← hs]
  · rw [State.setIsland_same, hi]

theorem strip_other (s : State) {b k : Nat} (ids : List Nat) (h : k ≠ b) : (s.strip b ids).island k = s.island k := by
  have hi : (s.dropWork b).island k = s.island k := by unfold State.island; rw [dropWork_islands]
  unfold State.strip
  dsimp only
  split
  · exact hi
  · rw [State.setIsland_other _ _ h, hi]

theorem fenceFor_island (s : State) (b code : Nat) (ids : List Nat) :
    (s.fenceFor b code ids).island b = { (s.fenceBlock b).island b with struck := strippedFrom (s.fenceBlock b) b ids } := by
  have h : (s.fenceFor b code ids).islands = ((s.fenceBlock b).strip b ids).islands :=
    (touches_State_recoverFrom (ps := [.recovering, .recoveryQueue]) .rfl (by decide) (by decide) _ : Touches _ ((s.fenceBlock b).strip b ids) _)
      .islands (by decide)
  unfold State.island at *
  rw [h]
  exact strip_island _ _ _

end Sys2Proof.Machine

/-! ### What stands on a block (R29, R154) -/

namespace Sys2Proof.Machine

open Sys2Proof

theorem mem_tidy_mapValues {α : Type} [DecidableEq α] {d : α} {f : Nat → α → α} {t : Table α} {p : Nat × α} (h : p ∈ tidy d (mapValues f t)) :
    ∃ q ∈ t, p = (q.1, f q.1 q.2) := by
  obtain ⟨q, hq, rfl⟩ := List.mem_map.mp (mem_tidy h)
  exact ⟨q, hq, rfl⟩

section
variable {s : State} {b id : Nat}

theorem mem_itemsOn_aab (h : blockKind b = 0) : id ∈ itemsOn s b ↔
    (∃ p ∈ s.decks, deckAab p.1 = 42 * blockLocation b + blockIndex b ∧ id ∈ p.2.holds) ∨
    (∃ p ∈ (s.aab (42 * blockLocation b + blockIndex b)).inputs, p.2.1 = id) ∨
    (∃ p ∈ (s.aab (42 * blockLocation b + blockIndex b)).outputs, p.2.item = id) ∨
    ∃ d ∈ (s.aab (42 * blockLocation b + blockIndex b)).descriptors, descItem d = id := by
  simp [itemsOn, h, and_assoc]

theorem mem_itemsOn_dtb (h : blockKind b = 1) : id ∈ itemsOn s b ↔ (s.dtb (24 * blockLocation b + blockIndex b)).item = some id := by
  simp [itemsOn, h]

theorem mem_itemsOn_teller (h : blockKind b = 2) :
    id ∈ itemsOn s b ↔ ∃ p ∈ (s.teller (48 * blockLocation b + blockIndex b)).threads, p.2.item = some id := by
  simp [itemsOn, h]

theorem mem_itemsOn_bank (h : blockKind b = 3) :
    id ∈ itemsOn s b ↔ (∃ p ∈ s.banks, bankGroupBlock p.1 = b ∧ ∃ q ∈ p.2.requests, q.item = id) ∧ id ≠ 0 := by
  simp [itemsOn, h, and_assoc]

theorem itemsOn_other (h : 4 ≤ blockKind b) : itemsOn s b = [] := by
  unfold itemsOn
  dsimp only
  split
  case h_5 => rfl
  all_goals omega

end

/-- The four kinds of block that hold work, and all others. -/
theorem kind_cases (b : Nat) : blockKind b = 0 ∨ blockKind b = 1 ∨ blockKind b = 2 ∨ blockKind b = 3 ∨ 4 ≤ blockKind b := by omega

/-- Nothing stands on a block that did not stand there before. -/
def NothingNew (s t : State) : Prop := ∀ b id, id ∈ itemsOn t b → id ∈ itemsOn s b

theorem NothingNew.trans {s t u : State} (h : NothingNew s t) (k : NothingNew t u) : NothingNew s u := fun b id hi => h b id (k b id hi)

theorem NothingNew.empty {s t : State} (h : NothingNew s t) {b : Nat} (hs : itemsOn s b = []) : itemsOn t b = [] :=
  List.eq_nil_iff_forall_not_mem.mpr fun id hi => List.not_mem_nil (hs ▸ h b id hi)

/-- The tables that hold the blocks' work. -/
def workParts : List Part := [.decks, .aabs, .dtbs, .tellers, .banks]

/-- What stands on a block is written in the tables of its kind. -/
theorem itemsOn_congr {s t : State} {b : Nat} (h0 : blockKind b = 0 → t.decks = s.decks ∧ t.aabs = s.aabs) (h1 : blockKind b = 1 → t.dtbs = s.dtbs)
    (h2 : blockKind b = 2 → t.tellers = s.tellers) (h3 : blockKind b = 3 → t.banks = s.banks) : itemsOn t b = itemsOn s b := by
  rcases kind_cases b with h | h | h | h | h
  · simp [itemsOn, h, State.aab, h0 h]
  · simp [itemsOn, h, State.dtb, h1 h]
  · simp [itemsOn, h, State.teller, h2 h]
  · simp [itemsOn, h, h3 h]
  · rw [itemsOn_other h, itemsOn_other h]

theorem mem_itemsOn_congr {s t : State} {b id : Nat} (hi : id ∈ itemsOn t b) (h0 : blockKind b = 0 → t.decks = s.decks ∧ t.aabs = s.aabs)
    (h1 : blockKind b = 1 → t.dtbs = s.dtbs) (h2 : blockKind b = 2 → t.tellers = s.tellers) (h3 : blockKind b = 3 → t.banks = s.banks) :
    id ∈ itemsOn s b := itemsOn_congr h0 h1 h2 h3 ▸ hi

theorem itemsOn_of_touches {ps : List Part} {s t : State} (h : Touches ps s t) (hp : ∀ p ∈ workParts, p ∉ ps) (b : Nat) : itemsOn t b = itemsOn s b :=
  itemsOn_congr (fun _ => ⟨h .decks (hp _ (by decide)), h .aabs (hp _ (by decide))⟩) (fun _ => h .dtbs (hp _ (by decide)))
    (fun _ => h .tellers (hp _ (by decide))) (fun _ => h .banks (hp _ (by decide)))

theorem NothingNew.of_touches {ps : List Part} {s t : State} (h : Touches ps s t) (hp : ∀ p ∈ workParts, p ∉ ps) : NothingNew s t :=
  fun b _ hi => itemsOn_of_touches h hp b ▸ hi

/-- An item that is released stands nowhere any more, and no other comes to stand anywhere. -/
theorem nothingNew_release (s : State) (x : Nat) : NothingNew s (s.release x) := by
  intro b id hi
  rcases kind_cases b with h | h | h | h | h
  · rw [mem_itemsOn_aab h] at hi ⊢
    rcases hi with ⟨p, hp, ha, hh⟩ | hi
    · obtain ⟨q, hq, rfl⟩ := mem_tidy_mapValues hp
      refine .inl ⟨q, hq, ha, ?_⟩
      dsimp only at hh
      split at hh
      · exact (List.mem_filter.mp hh).1
      · exact hh
    · refine .inr ?_
      simp only [State.release, State.aab, lookup_tidy] at hi
      rw [lookup_mapValues _ _ _ _ rfl] at hi
      rcases hi with ⟨p, hp, e⟩ | ⟨p, hp, e⟩ | ⟨p, hp, e⟩
      · exact .inl ⟨p, (List.mem_filter.mp hp).1, e⟩
      · exact .inr (.inl ⟨p, (List.mem_filter.mp hp).1, e⟩)
      · exact .inr (.inr ⟨p, (List.mem_filter.mp hp).1, e⟩)
  · rw [mem_itemsOn_dtb h] at hi ⊢
    simp only [State.release, State.dtb, lookup_tidy] at hi
    rw [lookup_mapValues _ _ _ _ (by simp)] at hi
    split at hi
    · simp [Dtb.freed] at hi
    · exact hi
  · rw [mem_itemsOn_teller h] at hi ⊢
    simp only [State.release, State.teller, lookup_tidy] at hi
    rw [lookup_mapValues _ _ _ _ rfl] at hi
    obtain ⟨p, hp, e⟩ := hi
    obtain ⟨q, hq, rfl⟩ := List.mem_map.mp hp
    refine ⟨q, hq, ?_⟩
    dsimp only at e
    split at e
    · simp at e
    · exact e
  · exact (mem_itemsOn_bank h).mpr ((mem_itemsOn_bank (s := s.release x) h).mp hi)
  · rw [itemsOn_other h] at hi
    exact absurd hi List.not_mem_nil

/-- The items whose tiles a fenced array had in hand, redone from the start of those tiles. -/
theorem foldl_adjust_items {f : Item → Item} (l : List Nat) (s : State) :
    l.foldl (fun (t : State) id => { t with items := adjust t.items id f }) s = { s with items := l.foldl (fun m id => adjust m id f) s.items } := by
  induction l generalizing s with
  | nil => rfl
  | cons a rest ih => exact ih _

section
variable (s : State) {b : Nat}

theorem dropWork_aab (h : blockKind b = 0) : s.dropWork b =
    ({ s with
        items := (itemsOn s b).foldl (fun m id => adjust m id (Item.redoTiles s)) s.items
        decks := tidy {} (mapValues (fun k d => if deckAab k = 42 * blockLocation b + blockIndex b then { d with holds := [], working := false } else d)
          s.decks) } : State).setAab (42 * blockLocation b + blockIndex b)
      { s.aab (42 * blockLocation b + blockIndex b) with arrays := [], inputs := [], outputs := [], descriptors := [] } := by
  simp only [State.dropWork, h, foldl_adjust_items]
  rfl

theorem dropWork_dtb (h : blockKind b = 1) : s.dropWork b =
    s.setDtb (24 * blockLocation b + blockIndex b) (s.dtb (24 * blockLocation b + blockIndex b)).freed := by
  simp only [State.dropWork, h]

theorem dropWork_teller (h : blockKind b = 2) : s.dropWork b = s.setTeller (48 * blockLocation b + blockIndex b) {} := by
  simp only [State.dropWork, h]

theorem dropWork_bank (h : blockKind b = 3) : s.dropWork b =
    { s with banks := tidy {} (mapValues (fun k x =>
        if bankGroupBlock k = b then { x with readPort := [], writePort := [], stages := [], data := none } else x) s.banks) } := by
  simp only [State.dropWork, h]

theorem dropWork_other (h : 4 ≤ blockKind b) : s.dropWork b = s := by
  unfold State.dropWork
  dsimp only
  split
  case h_5 => rfl
  all_goals omega

end

/-- After a block's work is discarded nothing stands on it, and nothing comes to stand on any other. -/
theorem mem_itemsOn_dropWork {s : State} {b k id : Nat} (hi : id ∈ itemsOn (s.dropWork b) k) : k ≠ b ∧ id ∈ itemsOn s k := by
  rcases kind_cases b with h | h | h | h | h
  · rw [dropWork_aab s h] at hi
    by_cases hk : blockKind k = 0
    · rw [mem_itemsOn_aab hk] at hi ⊢
      rcases hi with ⟨p, hp, ha, hh⟩ | hi
      · obtain ⟨q, hq, rfl⟩ := mem_tidy_mapValues hp
        dsimp only at ha hh
        split at hh
        · exact absurd hh List.not_mem_nil
        · next hn => exact ⟨fun e => hn (e ▸ ha), .inl ⟨q, hq, ha, hh⟩⟩
      · by_cases hn : 42 * blockLocation k + blockIndex k = 42 * blockLocation b + blockIndex b
        · simp [hn] at hi
        · rw [State.setAab_other _ _ hn] at hi
          exact ⟨fun e => hn (by rw [e]), .inr hi⟩
    · exact ⟨fun e => hk (e ▸ h), mem_itemsOn_congr hi (fun e => absurd e hk) (fun _ => rfl) (fun _ => rfl) (fun _ => rfl)⟩
  · rw [dropWork_dtb s h] at hi
    by_cases hk : blockKind k = 1
    · rw [mem_itemsOn_dtb hk] at hi ⊢
      by_cases hn : 24 * blockLocation k + blockIndex k = 24 * blockLocation b + blockIndex b
      · simp [hn, Dtb.freed] at hi
      · rw [State.setDtb_other _ _ hn] at hi
        exact ⟨fun e => hn (by rw [e]), hi⟩
    · exact ⟨fun e => hk (e ▸ h), mem_itemsOn_congr hi (fun _ => ⟨rfl, rfl⟩) (fun e => absurd e hk) (fun _ => rfl) (fun _ => rfl)⟩
  · rw [dropWork_teller s h] at hi
    by_cases hk : blockKind k = 2
    · rw [mem_itemsOn_teller hk] at hi ⊢
      by_cases hn : 48 * blockLocation k + blockIndex k = 48 * blockLocation b + blockIndex b
      · simp [hn] at hi
      · rw [State.setTeller_other _ _ hn] at hi
        exact ⟨fun e => hn (by rw [e]), hi⟩
    · exact ⟨fun e => hk (e ▸ h), mem_itemsOn_congr hi (fun _ => ⟨rfl, rfl⟩) (fun _ => rfl) (fun e => absurd e hk) (fun _ => rfl)⟩
  · rw [dropWork_bank s h] at hi
    by_cases hk : blockKind k = 3
    · rw [mem_itemsOn_bank hk] at hi ⊢
      obtain ⟨⟨p, hp, hb, r, hr, e⟩, h0⟩ := hi
      obtain ⟨q, hq, rfl⟩ := mem_tidy_mapValues hp
      dsimp only at hb hr
      split at hr
      · simp [Bank.requests] at hr
      · next hn => exact ⟨fun e => hn (e ▸ hb), ⟨q, hq, hb, r, hr, e⟩, h0⟩
    · exact ⟨fun e => hk (e ▸ h), mem_itemsOn_congr hi (fun _ => ⟨rfl, rfl⟩) (fun _ => rfl) (fun _ => rfl) (fun e => absurd e hk)⟩
  · rw [dropWork_other s h] at hi
    exact ⟨fun e => by rw [e, itemsOn_other h] at hi; exact List.not_mem_nil hi, hi⟩

theorem mem_itemsOn_strip {s : State} {b k id : Nat} {ids : List Nat} (hi : id ∈ itemsOn (s.strip b ids) k) : k ≠ b ∧ id ∈ itemsOn s k := by
  refine mem_itemsOn_dropWork ?_
  unfold State.strip at hi
  dsimp only at hi
  split at hi <;> exact hi

/-- A block that has been stripped holds nothing. -/
theorem itemsOn_strip (s : State) (b : Nat) (ids : List Nat) : itemsOn (s.strip b ids) b = [] :=
  List.eq_nil_iff_forall_not_mem.mpr fun _ hi => (mem_itemsOn_strip hi).1 rfl

theorem nothingNew_strip (s : State) (b : Nat) (ids : List Nat) : NothingNew s (s.strip b ids) := fun _ _ hi => (mem_itemsOn_strip hi).2

theorem itemsOn_fenceBlock (s : State) (b k : Nat) : itemsOn (s.fenceBlock b) k = itemsOn s k :=
  itemsOn_of_touches (ps := [.flash, .islands]) (touches_State_fenceBlock .rfl (by decide) (by decide) b) (by decide) k

/-- A block that has been fenced holds nothing, and every item that used it is to be accounted for (R29). -/
theorem itemsOn_fenceFor (s : State) (b code : Nat) (ids : List Nat) : itemsOn (s.fenceFor b code ids) b = [] :=
  (itemsOn_of_touches (ps := [.recovering, .recoveryQueue]) (touches_State_recoverFrom .rfl (by decide) (by decide) _) (by decide) b).trans
    (itemsOn_strip _ b ids)

theorem mem_struck_fenceFor {s : State} {b id : Nat} (code : Nat) (ids : List Nat) (h : id ∈ itemsOn s b) :
    id ∈ ((s.fenceFor b code ids).island b).struck := by
  rw [fenceFor_island]
  simp [strippedFrom, itemsOn_fenceBlock, h]

end Sys2Proof.Machine

/-! ### Tile instructions and context images (R194 to R224) -/

namespace Sys2Proof.Machine

open Sys2Proof

theorem exec_tileInstructionIssue (dtb : Fin 96) (id row col start : Nat) (range : KRange) (check : BlockCheck) (s : State) :
    exec (.tileInstructionIssue dtb id row col start range check) s = execTileInstructionIssue dtb id row col start range check s := rfl
theorem exec_contextRestore (dtb : Fin 96) (id row col : Nat) (s : State) :
    exec (.contextRestore dtb id row col) s = execContextRestore dtb id row col s := rfl

/-- The cells that a block's own check finds a fault in are those of its DTB. -/
theorem dtbBlock_parts (dtb : Fin 96) :
    blockKind (dtbBlock dtb.val) = 1 ∧ 24 * blockLocation (dtbBlock dtb.val) + blockIndex (dtbBlock dtb.val) = dtb.val := by
  have h := dtb.isLt
  simp only [dtbBlock, blockId, blockKind, blockLocation, blockIndex]
  omega

@[simp] theorem endSegment_nextStep (orvane : Bool) (cells : List Nat) (last : Bool) (d : Dtb) : (endSegment orvane cells last d).nextStep = d.nextStep := by
  unfold endSegment
  dsimp only
  split <;> rfl

/-- A tile instruction moves the block's next K-step to its range's end, whatever it accumulates (R195). -/
@[simp] theorem runRange_nextStep (orvane : Bool) (p : Product) (anchor : Option Int) (row col start n : Nat) (d : Dtb) :
    (runRange orvane p anchor row col start n d).nextStep = start + n := by
  unfold runRange
  dsimp only
  split
  · cases anchor <;> rfl
  · split
    · simp
    · rfl

@[simp] theorem rampDown_nextStep (cycle : Nat) (d : Dtb) : (d.rampDown cycle).nextStep = d.nextStep := by
  unfold Dtb.rampDown
  dsimp only
  split <;> rfl

@[simp] theorem rampUp_nextStep (cycle need cycles : Nat) (d : Dtb) : (d.rampUp cycle need cycles).nextStep = d.nextStep := by
  unfold Dtb.rampUp
  dsimp only
  split
  · rfl
  · split <;> rfl

/-- A tile instruction may issue: its K-range, its DTB, its item and its operands (R195, R196, R199). -/
def TileReady (s : State) (dtb : Nat) (x : Item) (p : Product) (row col start n cycle : Nat) : Prop :=
  rangeOk p.length start n = true ∧ blockIssues s (dtbBlock dtb) = true ∧ x.work.final = false ∧ row < ceilDiv p.rows 256 ∧
    col < ceilDiv p.cols 128 ∧ (s.dtb dtb).busyUntil ≤ cycle ∧ rangeBytes p row col n ≤ operandSpace

/-- The cells after the instruction, ramped (R194, R198 to R203). -/
def cellsAfter (s : State) (x : Item) (p : Product) (row col start n cycle : Nat) (d : Dtb) : Dtb :=
  ((runRange (paramsOf s x.account).orvane p x.work.anchor row col start n d).rampDown cycle).rampUp cycle (rowGroups p row) (instructionCycles p n)

@[simp] theorem cellsAfter_nextStep (s : State) (x : Item) (p : Product) (row col start n cycle : Nat) (d : Dtb) :
    (cellsAfter s x p row col start n cycle d).nextStep = start + n := by
  simp [cellsAfter]

theorem cellsAfter_congr {s t : State} (h : t.accounts = s.accounts) (x : Item) (p : Product) (row col start n cycle : Nat) (d : Dtb) :
    cellsAfter t x p row col start n cycle d = cellsAfter s x p row col start n cycle d := by
  rw [cellsAfter, cellsAfter, paramsOf_congr h]

/-- The state in which an instruction's cells are written: the block's own check recorded, its work counted. -/
def State.tileCounted (s : State) (dtb account id n cycle : Nat) (check : BlockCheck) (d : Dtb) : State :=
  (((s.blockCheck (dtbBlock dtb) account id check).bump (dtbBlock dtb) 0 1).bump (dtbBlock dtb) 1 (ceilDiv n 128)).bump (dtbBlock dtb) 5 (d.ballastCycles cycle)

section
variable {s : State} {dtb id row col start n group cycle : Nat} {check : BlockCheck} {x : Item} {p : Product} (hp : productOf s x = some p)
include hp

theorem tileInstruction_waits (h : ¬TileReady s dtb x p row col start n cycle ∨ blockPresent s dtb id row col start group x p = none) :
    tileInstruction dtb id row col start n group cycle check s x = s := by
  unfold tileInstruction
  rw [hp]
  dsimp only
  split
  · rfl
  · next hg =>
    have hr : TileReady s dtb x p row col start n cycle := by simpa [TileReady, and_assoc] using hg
    rw [h.resolve_left (not_not_intro hr)]

theorem tileInstruction_issues (hr : TileReady s dtb x p row col start n cycle) {d : Dtb} (hd : blockPresent s dtb id row col start group x p = some d) :
    tileInstruction dtb id row col start n group cycle check s x =
      if recurs check = true then s.blockCheck (dtbBlock dtb) x.account id check
      else
        let e := cellsAfter (s.tileCounted dtb x.account id n cycle check d) x p row col start n cycle d
        if e.nextStep = groupEnd p.length e.first e.group then (s.tileCounted dtb x.account id n cycle check d).endGroup dtb id row col x p e
        else (s.tileCounted dtb x.account id n cycle check d).setDtb dtb e := by
  obtain ⟨h1, h2, h3, h4, h5, h6, h7⟩ := hr
  unfold tileInstruction
  rw [hp]
  dsimp only
  rw [if_neg (by simp [h1, h2, h3, h4, h5, h6, h7]), hd]
  rfl

end

/-- A check that does not recur leaves at most a record behind. -/
theorem touches_blockCheck {check : BlockCheck} (h : recurs check = false) (s : State) (block account item : Nat) :
    Touches [.islands] s (s.blockCheck block account item check) := by
  cases check with
  | ok => exact .rfl
  | cleared sub => exact touches_recordBy_local .rfl (by decide) _ (by simp)
  | recurring sub => simp [recurs] at h

theorem touches_tileCounted {check : BlockCheck} (h : recurs check = false) (s : State) (dtb account id n cycle : Nat) (d : Dtb) :
    Touches [.islands] s (s.tileCounted dtb account id n cycle check d) :=
  touches_State_bump (touches_State_bump (touches_State_bump (touches_blockCheck h s _ _ _) (by decide) _ _ _) (by decide) _ _ _) (by decide) _ _ _

theorem dtb_free_of_itemsOn {s : State} {dtb : Fin 96} (h : itemsOn s (dtbBlock dtb.val) = []) : (s.dtb dtb.val).item = none := by
  obtain ⟨hk, hn⟩ := dtbBlock_parts dtb
  refine Option.eq_none_iff_forall_ne_some.mpr fun id e => ?_
  have hm : id ∈ itemsOn s (dtbBlock dtb.val) := (mem_itemsOn_dtb hk).mpr (by rw [hn, e])
  rw [h] at hm
  exact List.not_mem_nil hm

/-- A fault that recurs fences the block, and its cells are free (R29, R367). -/
theorem blockCheck_recurs {check : BlockCheck} (h : recurs check = true) (s : State) (dtb : Fin 96) (account item : Nat) :
    ((s.blockCheck (dtbBlock dtb.val) account item check).dtb dtb.val).item = none ∧
    ((s.blockCheck (dtbBlock dtb.val) account item check).island (dtbBlock dtb.val)).fenced = true := by
  cases check with
  | ok => simp [recurs] at h
  | cleared sub => simp [recurs] at h
  | recurring sub =>
    unfold State.blockCheck
    dsimp only
    exact ⟨dtb_free_of_itemsOn (itemsOn_fenceFor _ _ _ _), by rw [fenceFor_island, fenceBlock_island]⟩

theorem mem_insertNat (l : List Nat) (n : Nat) : n ∈ insertNat l n := by
  induction l with
  | nil => simp [insertNat]
  | cons a rest ih =>
    unfold insertNat
    split
    · simp
    · split
      · simp_all
      · exact List.mem_cons_of_mem _ ih

/-- At the end of its group a block is finished, or its partial waits with the item (R209, R212). -/
theorem endGroup_item (s : State) (dtb id row col : Nat) (x : Item) (p : Product) (d : Dtb) :
    ∃ y, find (s.endGroup dtb id row col x p d).items id = some y ∧
      (blockNumber p.cols row col ∈ y.work.units ∨ find y.work.nodes (nodeKey (blockNumber p.cols row col) d.first) = some d.reduced) := by
  refine ⟨_, State.setItem_same _ _ _, ?_⟩
  dsimp only
  split
  · exact .inl (mem_insertNat _ _)
  · exact .inr (find_ins_same _ _ _)

theorem endGroup_dtb (s : State) (dtb id row col : Nat) (x : Item) (p : Product) (d : Dtb) : (s.endGroup dtb id row col x p d).dtb dtb = d.freed :=
  s.setDtb_same dtb d.freed

theorem beside_endGroup (s : State) (dtb id row col : Nat) (x : Item) (p : Product) (d : Dtb) :
    Beside State.dtb dtb s (s.endGroup dtb id row col x p d) := beside_setDtb s dtb d.freed

theorem otherItems_endGroup (s : State) (dtb id row col : Nat) (x : Item) (p : Product) (d : Dtb) : OtherItems id s (s.endGroup dtb id row col x p d) :=
  fun _ hi => State.setItem_other _ _ hi

/-- What stands beside a DTB's cells stays while only islands change. -/
theorem beside_dtb {n : Nat} {s u t : State} (h : Touches [.islands] s u) (k : Beside State.dtb n u t) : Beside State.dtb n s t := fun m hm =>
  (k m hm).trans (by rw [State.dtb, State.dtb, h .dtbs (by decide)])

theorem bump_dtb (s : State) (b slot n dtb : Nat) : (s.bump b slot n).dtb dtb = s.dtb dtb := rfl

/-! ### Context images -/

section
variable {s : State} {dtb id row col : Nat} {x : Item} {p : Product} {c : ContextImage} (hp : productOf s x = some p)
  (hc : imageToRestore s id (blockNumber p.cols row col) x = some c) (hd : (s.dtb dtb).item = none) (hi : blockIssues s (dtbBlock dtb) = true)
include hp hc hd hi

/-- An image that passes its checks fills the cells (R222, R223). -/
theorem restoreEffect_sound (h1 : c.epochC = onesComplement 64 c.epoch) (h2 : crc32 c.planes = c.check) :
    restoreEffect dtb id row col s x =
      (s.setDtb dtb (blockOfImage x.account id row col (blockNumber p.cols row col) c (s.dtb dtb))).bump (dtbBlock dtb) 4 1 := by
  simp [restoreEffect, hp, hc, hd, hi, h1, h2]

/-- An image that fails a check leaves its slot, and its block starts again from the first K-step of its group (R223). -/
theorem restoreEffect_unsound (h : c.epochC ≠ onesComplement 64 c.epoch ∨ crc32 c.planes ≠ c.check) : ∃ u : State, ∃ y : Item,
    find u.items id = some y ∧ find y.work.images (nodeKey (blockNumber p.cols row col) c.first) = none ∧
    restoreEffect dtb id row col s x = u.setDtb dtb (freshBlock s
      { x with work := { x.work with images := del x.work.images (nodeKey (blockNumber p.cols row col) c.first) } } id row col c.first c.group p (s.dtb dtb)) := by
  let y : Item := { x with work := { x.work with images := del x.work.images (nodeKey (blockNumber p.cols row col) c.first) } }
  have hy : ∀ u : State, u.items = (s.setItem id y).items → find u.items id = some { y with epoch := hubEpoch s } := fun u hu => hu ▸ s.setItem_same id y
  have hk (r : FaultRecord) : ((s.setItem id y).recordFault r).items = (s.setItem id y).items :=
    (touches_State_recordFault (ps := [.islands, .dumpDue]) .rfl (by decide) (by decide) r : Touches _ (s.setItem id y) _) .items (by decide)
  by_cases h1 : c.epochC = onesComplement 64 c.epoch
  · refine ⟨_, _, hy _ (hk { code := 0x2501, source := dtbBlock dtb, detail1 := x.account, item := id }), find_del_same _ _, ?_⟩
    simp [restoreEffect, hp, hc, hd, hi, h1, h.resolve_left (not_not_intro h1), y]
  · refine ⟨_, _, hy ((s.setItem id y).complementFault (dtbBlock dtb) 7 x.account id 0) (hk _), find_del_same _ _, ?_⟩
    simp [restoreEffect, hp, hc, hd, hi, h1, y]

end

end Sys2Proof.Machine

namespace Sys2Proof

open Sys2Proof.Machine

/-- Settles O22: an instruction that may issue writes its DTB's cells and nothing else of the block, but where its group ends. -/
theorem tileInstructionsAdvanceOneBlock : Obligations.TileInstructionsAdvanceOneBlock := by
  intro s dtb id row col x p hr hg hdig hp
  have hkind : (isGemm x.slip && isDigital s x.slip) = true := by simp [hg, hdig]
  refine ⟨fun start n group cycle check => ?_, fun c hc hfree hissues => ?_⟩
  · have hexec := (exec_tileInstructionIssue dtb id row col start ⟨n, group, cycle⟩ check s).trans
      (running_reads hr (kind := fun w => isGemm w && isDigital s w) hkind _)
    refine ⟨fun h => hexec.trans (congrArg _ (tileInstruction_waits hp h)), fun d hready hd => ?_⟩
    dsimp only at hexec
    rw [tileInstruction_issues hp hready hd] at hexec
    intro e
    have hcells : cellsAfter s x p row col start n cycle d = e := rfl
    clear_value e
    have he : e.nextStep = start + n := hcells ▸ cellsAfter_nextStep s x p row col start n cycle d
    have hrun (hc : recurs check = false) : Touches [.islands] s (s.tileCounted dtb.val x.account id n cycle check d) ∧
        cellsAfter (s.tileCounted dtb.val x.account id n cycle check d) x p row col start n cycle d = e :=
      have ht := touches_tileCounted hc s dtb.val x.account id n cycle d
      ⟨ht, (cellsAfter_congr (ht .accounts (by decide)) x p row col start n cycle d).trans hcells⟩
    generalize s.tileCounted dtb.val x.account id n cycle check d = u at hexec hrun
    refine ⟨fun hc hne => ?_, fun hc hend => ?_, fun hc => ?_⟩
    · obtain ⟨ht, hu⟩ := hrun hc
      simp only [hc, Bool.false_eq_true, if_false, hu, he, hne] at hexec
      exact ⟨_, hexec, touches_State_setDtb (ht.mono (by decide)) (by decide) _ _, beside_dtb ht (beside_setDtb _ _ _), State.setDtb_same _ _ _, he⟩
    · obtain ⟨ht, hu⟩ := hrun hc
      simp only [hc, Bool.false_eq_true, if_false, hu, he, hend, if_true] at hexec
      refine ⟨_, hexec, touches_State_endGroup (ht.mono (by decide)) (by decide) (by decide) _ _ _ _ _ _ _, beside_dtb ht (beside_endGroup _ _ _ _ _ _ _ _),
        by rw [endGroup_dtb]; rfl, ?_, endGroup_item _ _ _ _ _ _ _ _⟩
      intro i hi
      exact (otherItems_endGroup u dtb.val id row col x p e i hi).trans (congrArg (find · i) (ht .items (by decide)))
    · rw [if_pos hc] at hexec
      exact ⟨_, hexec, blockCheck_recurs hc s dtb x.account id⟩
  · have hexec := (exec_contextRestore dtb id row col s).trans
      (working_runs hr.1 (kind := fun w => isGemm w && isDigital s w) hkind _)
    refine ⟨fun h1 h2 => ?_, fun h => ?_⟩
    · rw [restoreEffect_sound hp hc hfree hissues h1 h2] at hexec
      exact ⟨_, hexec, touches_State_bump (touches_State_setDtb .rfl (by decide) _ _) (by decide) _ _ _,
        beside_trans (beside_setDtb _ _ _) fun _ _ => bump_dtb _ _ _ _ _, (bump_dtb _ _ _ _ _).trans (State.setDtb_same _ _ _)⟩
    · obtain ⟨u, y, hy, himg, he⟩ := restoreEffect_unsound hp hc hfree hissues h
      rw [he] at hexec
      exact ⟨_, hexec, congrArg Dtb.item (State.setDtb_same _ _ _), congrArg Dtb.nextStep (State.setDtb_same _ _ _), y, hy, himg⟩

end Sys2Proof

/-! ### What the end of an item leaves of the blocks' islands, of accounts and of tensors (R77, R377) -/

namespace Sys2Proof.Machine

open Sys2Proof

/-- What each step keeps, so does the whole course of them. -/
theorem foldl_keeps {α : Type} {R : State → State → Prop} (hr : ∀ s, R s s) (ht : ∀ {s t u}, R s t → R t u → R s u) (l : List α)
    (g : State → α → State) (hg : ∀ t a, R t (g t a)) (s : State) : R s (l.foldl g s) := by
  induction l generalizing s with
  | nil => exact hr s
  | cons a rest ih => exact ht (hg s a) (ih _)

/-- Every block's island is as before but for its telemetry counts. -/
def IslandsCount (s t : State) : Prop := ∀ b, t.island b = { s.island b with counters := (t.island b).counters }

theorem IslandsCount.of_eq {s t : State} (h : t.islands = s.islands) : IslandsCount s t := fun b => by rw [State.island, State.island, h]
theorem IslandsCount.trans {s t u : State} (h : IslandsCount s t) (k : IslandsCount t u) : IslandsCount s u := fun b => by rw [k b, h b]

theorem islandsCount_foldl {α : Type} (l : List α) (g : State → α → State) (hg : ∀ t a, IslandsCount t (g t a)) (s : State) :
    IslandsCount s (l.foldl g s) :=
  foldl_keeps (fun _ => .of_eq rfl) .trans l g hg s

theorem islandsCount_bump (s : State) (b slot n : Nat) : IslandsCount s (s.bump b slot n) := fun k => by
  by_cases h : k = b
  · rw [h, State.bump_island]
  · rw [State.bump_other _ _ _ h]

theorem islandsCount_settleTally (s : State) (h : Nat) (t : Tally) : IslandsCount s (s.settleTally h t) := by
  unfold State.settleTally
  dsimp only
  exact ((IslandsCount.of_eq (t := s.setTally h _) rfl).trans (islandsCount_bump _ _ _ _)).trans (islandsCount_foldl _ State.wake (fun _ _ => .of_eq rfl) _)

theorem islandsCount_leaveQueue (s : State) (h item : Nat) : IslandsCount s (s.leaveQueue h item) := by
  unfold State.leaveQueue
  split
  · exact .of_eq rfl
  · dsimp only
    split
    · exact (IslandsCount.of_eq (t := { s with heldWaits := _ }) rfl).trans (islandsCount_settleTally _ _ _)
    · exact .of_eq rfl

theorem islandsCount_leaveQueues (s : State) (x : Item) (item : Nat) : IslandsCount s (s.leaveQueues x item) := by
  unfold State.leaveQueues
  dsimp only
  split <;> split
  · exact (islandsCount_leaveQueue _ _ _).trans (islandsCount_leaveQueue _ _ _)
  · exact islandsCount_leaveQueue _ _ _
  · exact islandsCount_leaveQueue _ _ _
  · exact .of_eq rfl

theorem islandsCount_openSend (s : State) (h : Half) (peer : Nat) : IslandsCount s (s.openSend h peer) :=
  .of_eq ((touches_State_openSend (ps := [.free, .peers]) .rfl (by decide) (by decide) h peer : Touches _ s _) .islands (by decide))

theorem islandsCount_launch (s : State) (h : Half) (peer : Nat) (f : VfFrame) : IslandsCount s (s.launch h peer f) :=
  (islandsCount_bump _ _ _ _).trans (islandsCount_bump _ _ _ _)

theorem islandsCount_send (s : State) (h : Half) (peer : Nat) (f : VfFrame) : IslandsCount s (s.send h peer f) := by
  unfold State.send
  dsimp only
  split
  · exact (islandsCount_openSend s h peer).trans (islandsCount_launch _ _ _ _)
  · exact islandsCount_openSend s h peer

theorem islandsCount_abortTicket (s : State) (id fault : Nat) : IslandsCount s (s.abortTicket id fault) := by
  unfold State.abortTicket
  split
  · exact islandsCount_foldl _ _ (fun _ _ => (islandsCount_send _ _ _ _).trans (islandsCount_bump _ _ _ _)) _
  · exact .of_eq rfl

/-- What leaves with an item beside its waits and its ticket touches no island. -/
theorem islandsCount_leaveItem (s : State) (id status fault : Nat) (x : Item) : IslandsCount s (s.leaveItem id status fault x) := by
  unfold State.leaveItem
  dsimp only
  refine ((islandsCount_leaveQueues s x id).trans (islandsCount_abortTicket _ id fault)).trans (.of_eq ?_)
  split
  · rfl
  · exact (touches_State_dropOutputs (ps := [.free, .cmem, .lastWrite, .accounts, .tensors, .tallies]) .rfl (by decide) (by decide) (by decide)
      (by decide) (by decide) (by decide) x status : Touches _ ((s.leaveQueues x id).abortTicket id fault) _) .islands (by decide)

theorem timedFor_touches (s : State) (x : Item) : Touches [.free] s (timedFor s x).1 := by
  unfold timedFor
  split
  · exact touches_State_timed .rfl (by decide) x false
  · exact .rfl

theorem markEnded_touches (s : State) (id status fault : Nat) (x : Item) : Touches [.rings, .items] s (s.markEnded id status fault x) :=
  touches_State_markEnded .rfl (by decide) (by decide) id status fault x

/-- An item that ends: what it is timed by, what leaves with it, and the journal's mark. -/
theorem endItem_cases (s : State) (id status fault : Nat) : s.endItem id status fault = s ∨
    ∃ x, s.endItem id status fault = ((timedFor s x).1.leaveItem id status fault (timedFor s x).2).markEnded id status fault (timedFor s x).2 := by
  cases hx : find s.items id with
  | none => exact .inl (endItem_none hx status fault)
  | some x =>
    cases hl : x.live with
    | false => exact .inl (endItem_dead hx hl status fault)
    | true => exact .inr ⟨x, endItem_live hx hl status fault⟩

theorem islandsCount_endItem (s : State) (id status fault : Nat) : IslandsCount s (s.endItem id status fault) := by
  rcases endItem_cases s id status fault with h | ⟨x, h⟩ <;> rw [h]
  · exact .of_eq rfl
  · exact ((IslandsCount.of_eq (timedFor_touches s x .islands (by decide))).trans (islandsCount_leaveItem _ _ _ _ _)).trans
      (.of_eq (markEnded_touches _ _ _ _ _ .islands (by decide)))

/-- What an item's outputs become: of the tables of accounts and of tensors at most one changes, each in one way. -/
theorem dropOutputs_cases (s : State) (x : Item) (status : Nat) : ∃ u : State, u.accounts = s.accounts ∧ u.tensors = s.tensors ∧
    (s.dropOutputs x status = u ∨
     (∃ t, find s.tensors (slipA x.slip) = some t ∧
       s.dropOutputs x status = { u with free := u.free + 1, tensors := ins u.tensors (slipA x.slip) (t.undefinedBut x.work.tiles u.free) }) ∨
     (∃ a vault, s.account? x.account = some a ∧ s.dropOutputs x status = u.setAccount x.account { a with vault := vault }) ∨
     s.dropOutputs x status = u.undefineOutputs x.slip) := by
  unfold State.dropOutputs
  dsimp only
  generalize hu : (if (isMove x.slip 2 && decide (x.stage = 2)) = true then _ else s) = u
  have hk : u.accounts = s.accounts ∧ u.tensors = s.tensors := by
    subst hu
    split
    · split <;> exact ⟨rfl, rfl⟩
    · exact ⟨rfl, rfl⟩
  obtain ⟨ha, ht⟩ := hk
  split
  · split
    · next t h => exact ⟨u, ha, ht, .inr (.inl ⟨t, ht ▸ h, rfl⟩)⟩
    · exact ⟨u, ha, ht, .inl rfl⟩
  · split
    · exact ⟨u, ha, ht, .inl rfl⟩
    · split
      · refine ⟨_, ?_, ?_, .inl rfl⟩
        · exact ha
        · exact ht
      · split
        · split
          · next a h => exact ⟨u, ha, ht, .inr (.inr (.inl ⟨a, _, by rwa [State.account?, ← ha], rfl⟩))⟩
          · exact ⟨u, ha, ht, .inl rfl⟩
        · exact ⟨u, ha, ht, .inr (.inr (.inr rfl))⟩

/-- An item leaves its queues and its ticket, then its outputs where it was no rejection, then what it holds. -/
theorem leaveItem_cases (s : State) (id status fault : Nat) (x : Item) : ∃ u : State,
    Touches [.out, .free, .tallies, .items, .heldWaits, .islands, .tickets, .peers] s u ∧
    (s.leaveItem id status fault x = u.release id ∨ s.leaveItem id status fault x = (u.dropOutputs x status).release id) := by
  refine ⟨(s.leaveQueues x id).abortTicket id fault, by simp, ?_⟩
  unfold State.leaveItem
  dsimp only
  split
  · exact .inl rfl
  · exact .inr rfl

/-! ### What stands on a block -/

theorem nothingNew_leaveItem (s : State) (id status fault : Nat) (x : Item) : NothingNew s (s.leaveItem id status fault x) := by
  obtain ⟨u, hu, h | h⟩ := leaveItem_cases s id status fault x <;> rw [h]
  · exact (NothingNew.of_touches hu (by decide)).trans (nothingNew_release u id)
  · have hd : Touches [.free, .cmem, .lastWrite, .accounts, .tensors, .tallies] u (u.dropOutputs x status) := by simp
    exact ((NothingNew.of_touches hu (by decide)).trans (.of_touches hd (by decide))).trans (nothingNew_release _ id)

theorem nothingNew_endItem (s : State) (id status fault : Nat) : NothingNew s (s.endItem id status fault) := by
  rcases endItem_cases s id status fault with h | ⟨x, h⟩ <;> rw [h]
  · exact fun _ _ hi => hi
  · exact ((NothingNew.of_touches (timedFor_touches s x) (by decide)).trans (nothingNew_leaveItem _ _ _ _ _)).trans
      (.of_touches (markEnded_touches _ _ _ _ _) (by decide))

/-! ### Accounts -/

/-- Every account keeps its parameters, its step record and its staged words. -/
def AccountsFollow (s t : State) : Prop := ∀ n a, s.account? n = some a →
  ∃ a', t.account? n = some a' ∧ a'.params = a.params ∧ a'.step = a.step ∧ a'.staged = a.staged

theorem AccountsFollow.of_eq {s t : State} (h : t.accounts = s.accounts) : AccountsFollow s t :=
  fun n a ha => ⟨a, by rw [State.account?, h]; exact ha, rfl, rfl, rfl⟩

theorem AccountsFollow.trans {s t u : State} (h : AccountsFollow s t) (k : AccountsFollow t u) : AccountsFollow s u := fun n a ha =>
  let ⟨b, hb, p1, q1, r1⟩ := h n a ha
  let ⟨c, hc, p2, q2, r2⟩ := k n b hb
  ⟨c, hc, p2.trans p1, q2.trans q1, r2.trans r1⟩

/-- One account changes, in nothing that is to be kept. -/
theorem accountsFollow_setAccount {s : State} {n : Nat} {a b : Account} (ha : s.account? n = some a)
    (h : b.params = a.params ∧ b.step = a.step ∧ b.staged = a.staged) : AccountsFollow s (s.setAccount n b) := fun m c hc => by
  by_cases hm : m = n
  · subst hm
    obtain rfl : a = c := Option.some.inj (ha.symm.trans hc)
    exact ⟨b, State.setAccount_same s m b, h⟩
  · exact ⟨c, (State.setAccount_other s b hm).trans hc, rfl, rfl, rfl⟩

theorem accountsFollow_dropOutputs (s : State) (x : Item) (status : Nat) : AccountsFollow s (s.dropOutputs x status) := by
  obtain ⟨u, ha, -, h | ⟨t, -, h⟩ | ⟨a, vault, hx, h⟩ | h⟩ := dropOutputs_cases s x status <;> rw [h]
  · exact .of_eq ha
  · exact .of_eq ha
  · exact (AccountsFollow.of_eq ha).trans (accountsFollow_setAccount (a := a) (by rw [State.account?, ha]; exact hx) ⟨rfl, rfl, rfl⟩)
  · exact .of_eq (((touches_State_undefineOutputs (ps := [.free, .tensors]) .rfl (by decide) (by decide) x.slip : Touches _ u _) .accounts (by decide)).trans ha)

theorem accountsFollow_endItem (s : State) (id status fault : Nat) : AccountsFollow s (s.endItem id status fault) := by
  rcases endItem_cases s id status fault with h | ⟨x, h⟩ <;> rw [h]
  · exact .of_eq rfl
  · refine ((AccountsFollow.of_eq (timedFor_touches s x .accounts (by decide))).trans ?_).trans (.of_eq (markEnded_touches _ _ _ _ _ .accounts (by decide)))
    obtain ⟨u, hu, h⟩ := leaveItem_cases (timedFor s x).1 id status fault (timedFor s x).2
    have hu' := AccountsFollow.of_eq (hu .accounts (by decide))
    rcases h with h | h <;> rw [h]
    · exact hu'
    · exact hu'.trans ((accountsFollow_dropOutputs u _ status).trans (.of_eq rfl))

/-! ### Tensors' classes -/

/-- Every tensor keeps its class, and none comes or goes. -/
def ClassesKept (s t : State) : Prop := ∀ h, (find t.tensors h).map Tensor.cls = (find s.tensors h).map Tensor.cls

theorem ClassesKept.of_eq {s t : State} (h : t.tensors = s.tensors) : ClassesKept s t := fun _ => by rw [h]
theorem ClassesKept.trans {s t u : State} (h : ClassesKept s t) (k : ClassesKept t u) : ClassesKept s u := fun n => (k n).trans (h n)

theorem classesKept_ins {s t : State} {h : Nat} {v w : Tensor} (hv : find s.tensors h = some v) (hc : w.cls = v.cls)
    (ht : t.tensors = ins s.tensors h w) : ClassesKept s t := fun k => by
  rw [ht, find_ins]
  split
  · next e => simp [e, hv, hc]
  · rfl

theorem classesKept_foldl {α : Type} (l : List α) (g : State → α → State) (hg : ∀ t a, ClassesKept t (g t a)) (s : State) :
    ClassesKept s (l.foldl g s) :=
  foldl_keeps (fun _ => .of_eq rfl) .trans l g hg s

theorem classesKept_undefineTensor (s : State) (h : Nat) : ClassesKept s (s.undefineTensor h) := by
  unfold State.undefineTensor
  split
  · exact .of_eq rfl
  · next t ht =>
    split
    · exact .of_eq rfl
    · exact classesKept_ins (w := t.undefined s.free) ht rfl rfl

theorem classesKept_undefineOutputs (s : State) (w : Nat) : ClassesKept s (s.undefineOutputs w) := by
  unfold State.undefineOutputs
  split
  · exact .of_eq rfl
  · exact classesKept_foldl _ _ classesKept_undefineTensor s

theorem classesKept_dropOutputs (s : State) (x : Item) (status : Nat) : ClassesKept s (s.dropOutputs x status) := by
  obtain ⟨u, -, ht, h | ⟨t, hx, h⟩ | ⟨a, vault, -, h⟩ | h⟩ := dropOutputs_cases s x status <;> rw [h]
  · exact .of_eq ht
  · exact classesKept_ins (w := t.undefinedBut x.work.tiles u.free) hx rfl (by rw [ht])
  · exact .of_eq ht
  · exact (ClassesKept.of_eq ht).trans (classesKept_undefineOutputs u x.slip)

theorem classesKept_endItem (s : State) (id status fault : Nat) : ClassesKept s (s.endItem id status fault) := by
  rcases endItem_cases s id status fault with h | ⟨x, h⟩ <;> rw [h]
  · exact .of_eq rfl
  · refine ((ClassesKept.of_eq (timedFor_touches s x .tensors (by decide))).trans ?_).trans (.of_eq (markEnded_touches _ _ _ _ _ .tensors (by decide)))
    obtain ⟨u, hu, h⟩ := leaveItem_cases (timedFor s x).1 id status fault (timedFor s x).2
    have hu' := ClassesKept.of_eq (hu .tensors (by decide))
    rcases h with h | h <;> rw [h]
    · exact hu'
    · exact hu'.trans ((classesKept_dropOutputs u _ status).trans (.of_eq rfl))

theorem tensorIs_cls (o : Option Tensor) (n : Nat) : tensorIs o (fun x => decide (x.cls = n)) = decide (o.map Tensor.cls = some n) := by
  cases o <;> simp [tensorIs]

/-- Whether a RUN is an update follows from its tensor's class. -/
theorem isUpdate_congr {s t : State} (h : ClassesKept s t) (w : Nat) : isUpdate t w = isUpdate s w := by
  have hc : (t.tensor? (slipA w)).map Tensor.cls = (s.tensor? (slipA w)).map Tensor.cls := by
    unfold State.tensor?
    split
    · rfl
    · exact h _
  rw [isUpdate, isUpdate, tensorIs_cls, tensorIs_cls, hc]

end Sys2Proof.Machine

/-! ### Items that a fault strikes (R29, R377, R378) -/

namespace Sys2Proof.Machine

open Sys2Proof

/-- A strike ends an item, writes its journal entry, or finds it not running. -/
theorem strikeItem_cases (s : State) (id code : Nat) :
    s.strikeItem id code = s ∨ (∃ fault, s.strikeItem id code = s.endItem id stRetryable fault) ∨ ∃ y, s.strikeItem id code = s.setItem id y := by
  unfold State.strikeItem
  split
  · exact .inl rfl
  · split
    · exact .inl rfl
    · split
      · exact .inr (.inl ⟨_, rfl⟩)
      · split
        · exact .inr (.inl ⟨_, rfl⟩)
        · split
          · exact .inr (.inr ⟨_, rfl⟩)
          · exact .inr (.inr ⟨_, rfl⟩)

theorem islandsCount_strikeItem (s : State) (id code : Nat) : IslandsCount s (s.strikeItem id code) := by
  obtain h | ⟨f, h⟩ | ⟨y, h⟩ := strikeItem_cases s id code <;> rw [h]
  · exact .of_eq rfl
  · exact islandsCount_endItem s id _ f
  · exact .of_eq rfl

theorem nothingNew_strikeItem (s : State) (id code : Nat) : NothingNew s (s.strikeItem id code) := by
  obtain h | ⟨f, h⟩ | ⟨y, h⟩ := strikeItem_cases s id code <;> rw [h]
  · exact .of_touches (ps := []) .rfl (by decide)
  · exact nothingNew_endItem s id _ f
  · exact .of_touches (ps := [.items]) (touches_State_setItem .rfl (by decide) id y) (by decide)

theorem accountsFollow_strikeItem (s : State) (id code : Nat) : AccountsFollow s (s.strikeItem id code) := by
  obtain h | ⟨f, h⟩ | ⟨y, h⟩ := strikeItem_cases s id code <;> rw [h]
  · exact .of_eq rfl
  · exact accountsFollow_endItem s id _ f
  · exact .of_eq rfl

theorem classesKept_strikeItem (s : State) (id code : Nat) : ClassesKept s (s.strikeItem id code) := by
  obtain h | ⟨f, h⟩ | ⟨y, h⟩ := strikeItem_cases s id code <;> rw [h]
  · exact .of_eq rfl
  · exact classesKept_endItem s id _ f
  · exact .of_eq rfl

theorem othersFollow_strikeItem (s : State) (id code : Nat) : OthersFollow id s (s.strikeItem id code) := by
  obtain h | ⟨f, h⟩ | ⟨y, h⟩ := strikeItem_cases s id code <;> rw [h]
  · exact (ItemsFollow.of_eq rfl).others id
  · exact endItem_others s id _ f
  · exact othersFollow_setItem s id y

/-- Items struck one after another for a fault. -/
def State.strikeItems (s : State) (ids : List Nat) (code : Nat) : State := ids.foldl (fun s id => s.strikeItem id code) s

theorem strikeItems_touches (s : State) (ids : List Nat) (code : Nat) : Touches endParts s (s.strikeItems ids code) :=
  touches_foldl _ _ (fun _ a h => by apply touches_State_strikeItem h <;> decide) .rfl

theorem islandsCount_strikeItems (s : State) (ids : List Nat) (code : Nat) : IslandsCount s (s.strikeItems ids code) :=
  islandsCount_foldl _ _ (fun _ _ => islandsCount_strikeItem _ _ _) s

theorem Item.SameWork.fields {x y : Item} (h : x.SameWork y) : y.slip = x.slip ∧ y.stage = x.stage ∧ y.status = x.status := by
  unfold Item.SameWork at h
  rw [h]
  exact ⟨rfl, rfl, rfl⟩

/-- An item that is not among those struck goes on as it was. -/
theorem strikeItems_others {ids : List Nat} {s : State} {id : Nat} {x : Item} (h : id ∉ ids) (hx : find s.items id = some x) (code : Nat) :
    ∃ y, find (s.strikeItems ids code).items id = some y ∧ x.SameWork y := by
  induction ids generalizing s x with
  | nil => exact ⟨x, hx, .refl x⟩
  | cons a rest ih =>
    obtain ⟨h1, h2⟩ := List.ne_and_not_mem_of_not_mem_cons h
    obtain ⟨y, hy, e⟩ := othersFollow_strikeItem s a code id x h1 hx
    obtain ⟨z, hz, f⟩ := ih h2 hy
    exact ⟨z, hz, e.trans f⟩

/-- The stage at which a struck item goes on: an update starts again (Table 12.4). -/
def resumeStage (s : State) (x : Item) : Nat := if isRun x.slip = true ∧ isUpdate s x.slip = true then 1 else 2

/-- What a strike makes of a running item: a CLEAR, or one struck three times, ends; any other goes on with one more RECOVERIES and its
first FAULT (R377). -/
def Resumes (stage code : Nat) (x y : Item) : Prop :=
  (isClear x.slip = true ∨ x.recoveries = 3 → y.stage = 6 ∧ y.status = stRetryable) ∧
  (isClear x.slip = false → x.recoveries < 3 → y.recoveries = x.recoveries + 1 ∧ y.slip = x.slip ∧
    y.fault = (if x.fault = 0 then code else x.fault) ∧ y.stage = stage)

theorem Resumes.follow {stage code : Nat} {x y z : Item} (h : Resumes stage code x y) (k : y.SameWork z) : Resumes stage code x z := by
  unfold Item.SameWork at k
  rw [k]
  exact h

theorem Resumes.from {stage code : Nat} {x x' y : Item} (k : x.SameWork x') (h : Resumes stage code x' y) : Resumes stage code x y := by
  unfold Item.SameWork at k
  rw [k] at h
  exact h

theorem strikeItem_resumes {s : State} {id : Nat} {x : Item} (hr : ItemRuns s id x) (code : Nat) :
    ∃ y, find (s.strikeItem id code).items id = some y ∧ Resumes (resumeStage s x) code x y := by
  obtain ⟨hx, hs⟩ := hr
  have hl : x.live = true := by simp [Item.live, hs]
  unfold State.strikeItem
  rw [hx]
  dsimp only
  rw [if_neg (not_not_intro hs)]
  split
  · next hc =>
    obtain ⟨y, hy, h6, hst, -⟩ := endItem_ends hx hl stRetryable code
    exact ⟨y, hy, fun _ => ⟨h6, hst⟩, fun h => by simp [hc] at h⟩
  · next hc =>
    split
    · next h3 =>
      obtain ⟨y, hy, h6, hst, -⟩ := endItem_ends hx hl stRetryable x.fault
      exact ⟨y, hy, fun _ => ⟨h6, hst⟩, fun _ h => by omega⟩
    · next h3 =>
      split
      · next hup =>
        refine ⟨_, State.setItem_same _ _ _, fun h => absurd h (by simp [hc, h3]), fun _ h => ⟨?_, rfl, rfl, ?_⟩⟩
        · simp only [Item.strike]; omega
        · rw [resumeStage, if_pos (by simpa using hup)]
      · next hup =>
        refine ⟨_, State.setItem_same _ _ _, fun h => absurd h (by simp [hc, h3]), fun _ h => ⟨?_, rfl, rfl, ?_⟩⟩
        · simp only [Item.strike]; omega
        · rw [resumeStage, if_neg (by simpa using hup)]; exact hs

/-- Each of the items struck, each once, resumes or ends by Table 12.4. -/
theorem strikeItems_resume {ids : List Nat} {s : State} {id : Nat} {x : Item} (hn : ids.Nodup) (hm : id ∈ ids) (hr : ItemRuns s id x) (code : Nat) :
    ∃ y, find (s.strikeItems ids code).items id = some y ∧ Resumes (resumeStage s x) code x y := by
  induction ids generalizing s x with
  | nil => exact absurd hm List.not_mem_nil
  | cons a rest ih =>
    obtain ⟨ha, hn⟩ := List.nodup_cons.mp hn
    by_cases h : id = a
    · subst h
      obtain ⟨y, hy, e⟩ := strikeItem_resumes hr code
      obtain ⟨z, hz, f⟩ := strikeItems_others ha hy code
      exact ⟨z, hz, e.follow f⟩
    · obtain ⟨x', hx', e⟩ := othersFollow_strikeItem s a code id x h hr.1
      obtain ⟨hslip, hstage, -⟩ := e.fields
      obtain ⟨y, hy, f⟩ := ih hn ((List.mem_cons.mp hm).resolve_left h) ⟨hx', hstage.trans hr.2⟩
      rw [resumeStage, hslip, isUpdate_congr (classesKept_strikeItem s a code)] at f
      exact ⟨y, hy, f.from e⟩

theorem endedAs_strikeItem {s : State} {id status : Nat} (h : EndedAs id status s) (a code : Nat) : EndedAs id status (s.strikeItem a code) := by
  obtain ⟨y, hy, h6, hst⟩ := h
  by_cases ha : id = a
  · subst ha
    refine ⟨y, ?_, h6, hst⟩
    simp [State.strikeItem, hy, h6]
  · obtain ⟨z, hz, e⟩ := othersFollow_strikeItem s a code id y ha hy
    obtain ⟨-, hstage, hstatus⟩ := e.fields
    exact ⟨z, hz, hstage.trans h6, hstatus.trans hst⟩

/-- A running CLEAR among the items struck ends without success (R291). -/
theorem strikeItems_end_clear {ids : List Nat} {s : State} {id : Nat} {x : Item} (hm : id ∈ ids) (hr : ItemRuns s id x) (hc : isClear x.slip = true)
    (code : Nat) : EndedAs id stRetryable (s.strikeItems ids code) := by
  induction ids generalizing s x with
  | nil => exact absurd hm List.not_mem_nil
  | cons a rest ih =>
    by_cases h : id = a
    · subst h
      obtain ⟨y, hy, e, -⟩ := strikeItem_resumes hr code
      obtain ⟨h6, hst⟩ := e (.inl hc)
      exact foldl_keeps (R := fun s t => EndedAs id stRetryable s → EndedAs id stRetryable t) (fun _ h => h) (fun h k e => k (h e)) rest _
        (fun _ b h => endedAs_strikeItem h b code) _ ⟨y, hy, h6, hst⟩
    · obtain ⟨x', hx', e⟩ := othersFollow_strikeItem s a code id x h hr.1
      obtain ⟨hslip, hstage, -⟩ := e.fields
      exact ih ((List.mem_cons.mp hm).resolve_left h) ⟨hx', hstage.trans hr.2⟩ (hslip ▸ hc)

end Sys2Proof.Machine

/-! ### Liveness, recovery and self-test of blocks (R28, R29, R32, R368, R369, R374, R377, R378) -/

namespace Sys2Proof.Machine

open Sys2Proof

theorem exec_livenessPulse (block : Word16) (t : Nat) (s : State) : exec (.livenessPulse block t) s = execLivenessPulse block t s := rfl
theorem exec_livenessTimeout (block : Word16) (t : Nat) (s : State) : exec (.livenessTimeout block t) s = execLivenessTimeout block t s := rfl
theorem exec_blockRecovery (block : Word16) (target : Option Word16) (s : State) :
    exec (.blockRecovery block target) s = execBlockRecovery block target s := rfl
theorem exec_fenceSelfTest (block : Word16) (passes : Bool) (t : Nat) (s : State) :
    exec (.fenceSelfTest block passes t) s = execFenceSelfTest block passes t s := rfl

theorem guardWf_ok {ok : Bool} (h : ok = true) (r : Result) : guardWf ok r = r := if_pos h

/-- A silent block in a region that is being fenced is recorded with that region's report (R28). -/
theorem silentBlock_fenced {s : State} {b : Nat} (h : regionFenced s (blockLocation b) = true) :
    silentBlock b s = s.recordBy (switchBlock (blockLocation b)) { code := 0x2601, source := b, action := 5 } := if_pos h

/-- A silent block is recorded and fenced (R368). -/
theorem silentBlock_serving {s : State} {b : Nat} (h : regionFenced s (blockLocation b) = false) :
    silentBlock b s = ((s.recordBy (switchBlock (blockLocation b)) { code := 0x2601, source := b, action := 3 }).bump
      (switchBlock (blockLocation b)) 2 1).fenceFor b 0x2601 [] := if_neg (by simp [h])

/-- The fence of a silent block: its island holds the record and the fence, and what it held is to be accounted for (R29, R368, R374). -/
theorem silentBlock_island {s : State} {b : Nat} (h : regionFenced s (blockLocation b) = false) :
    let i := s.island b
    let e := (silentBlock b s).island b
    e.fenced = true ∧ e.fences = i.fences + 1 ∧ e.withdrawn = (i.withdrawn || decide (2 ≤ i.fences)) ∧
    (∀ id ∈ itemsOn s b, id ∈ e.struck) ∧
    e.faults = (addFault i (stampedBy s (switchBlock (blockLocation b)) { code := 0x2601, source := b, action := 3 })).faults := by
  intro i e
  let r : FaultRecord := { code := 0x2601, source := b, action := 3 }
  let v := (s.recordBy (switchBlock (blockLocation b)) r).bump (switchBlock (blockLocation b)) 2 1
  have hv : Touches [.islands] s v := touches_State_bump (touches_recordBy_local .rfl (by decide) _ (by simp [r])) (by decide) _ _ _
  have hrec : (s.recordBy (switchBlock (blockLocation b)) r).island b = addFault i (stampedBy s (switchBlock (blockLocation b)) r) :=
    recordBy_island s _ (by simp [r])
  have hvi : v.island b = { addFault i (stampedBy s (switchBlock (blockLocation b)) r) with counters := (v.island b).counters } :=
    hrec ▸ islandsCount_bump (s.recordBy (switchBlock (blockLocation b)) r) (switchBlock (blockLocation b)) 2 1 b
  have he : e = (v.fenceFor b 0x2601 []).island b := congrArg (State.island · b) (silentBlock_serving h)
  have hm : ∀ id ∈ itemsOn s b, id ∈ e.struck := fun id hid =>
    he ▸ mem_struck_fenceFor 0x2601 [] (by rw [itemsOn_of_touches hv (by decide)]; exact hid)
  rw [fenceFor_island, fenceBlock_island, hvi] at he
  refine ⟨by rw [he], ?_, ?_, hm, by rw [he]⟩
  · rw [he]; exact congrArg (· + 1) (addFault_fences i _)
  · rw [he]; simp [i]

section
variable {s : State} {block : Word16} {time : Nat} (hw : watched block.toNat = true) (hp : s.power.powerGood = true)
  (hf : (s.island block.toNat).fenced = false)
include hw hp hf

theorem livenessPulse_next : exec (.livenessPulse block time) s = .next (if holdsWork s block.toNat = true then
    (s.at time).setIsland block.toNat { s.island block.toNat with pulseAt := time } else s.at time) := by
  rw [exec_livenessPulse, execLivenessPulse, guardWf_ok hw]
  change Host.Outcome.next (if (s.power.powerGood && !(s.island block.toNat).fenced && holdsWork s block.toNat) = true then
    (s.at time).setIsland block.toNat { s.island block.toNat with pulseAt := time } else s.at time) = _
  simp [hp, hf]

theorem livenessTimeout_next : exec (.livenessTimeout block time) s = .next (if holdsWork s block.toNat = true ∧
    (s.island block.toNat).pulseAt + ms ≤ time then silentBlock block.toNat (s.at time) else s.at time) := by
  rw [exec_livenessTimeout, execLivenessTimeout, guardWf_ok hw]
  change Host.Outcome.next (if (s.power.powerGood && !(s.island block.toNat).fenced && holdsWork s block.toNat &&
    decide ((s.island block.toNat).pulseAt + ms ≤ time)) = true then silentBlock block.toNat (s.at time) else s.at time) = _
  simp [hp, hf]

end

/-! ### Recovery of a block -/

theorem mayRecover_congr {s t : State} (h : t.recovering = s.recovering) (d : Domain) : mayRecover t d = mayRecover s d := by
  simp only [mayRecover, h]

theorem endRecovery_recovering {s : State} {d : Domain} (h : mayRecover s d = true) : (s.endRecovery d).recovering = none := by
  simp [State.endRecovery, h]

theorem endRecovery_touches (s : State) (d : Domain) : Touches [.recovering] s (s.endRecovery d) := touches_State_endRecovery .rfl (by decide) d

/-- The record of where a block's work went stands in its register and takes nothing from it. -/
theorem reboundFault_struck (s : State) (b region : Nat) (accounts : List Nat) :
    ((s.reboundFault b region accounts).island b).struck = (s.island b).struck :=
  foldl_keeps (R := fun s t => (t.island b).struck = (s.island b).struck) (fun _ => rfl) (fun h k => k.trans h) accounts _
    (fun t a => (congrArg Island.struck (recordBy_island t (issuer t) (r := { code := 0x4006, source := b, action := 6, detail0 := region, detail1 := a })
      (by simp))).trans (addFault_struck _ _)) s

/-- Where the struck items' accounts went, recorded where it was another region. -/
def State.rebound (s : State) (b : Nat) (accounts : List Nat) : Option Word16 → State
  | some w => if blockLocation w.toNat = blockLocation b then s else s.reboundFault b (blockLocation w.toNat) accounts
  | none => s

theorem rebound_keeps (s : State) (b : Nat) (accounts : List Nat) (target : Option Word16) :
    Touches [.islands, .dumpDue] s (s.rebound b accounts target) ∧ ((s.rebound b accounts target).island b).struck = (s.island b).struck := by
  unfold State.rebound
  split
  · split
    · exact ⟨.rfl, rfl⟩
    · exact ⟨touches_State_reboundFault .rfl (by decide) (by decide) _ _ _, reboundFault_struck _ _ _ _⟩
  · exact ⟨.rfl, rfl⟩

/-- The block whose items are to be accounted for, with its list of them emptied. -/
def State.unstruck (s : State) (b : Nat) : State := if (s.island b).struck = [] then s else s.setIsland b { s.island b with struck := [] }

theorem unstruck_touches (s : State) (b : Nat) : Touches [.islands] s (s.unstruck b) := by
  unfold State.unstruck
  exact touches_ite .rfl (touches_State_setIsland .rfl (by decide) _ _)

theorem unstruck_struck (s : State) (b : Nat) : ((s.unstruck b).island b).struck = [] := by
  unfold State.unstruck
  split
  · assumption
  · rw [State.setIsland_same]

theorem resumeFrom_eq (s : State) (b code : Nat) : s.resumeFrom b code = (s.unstruck b).strikeItems (s.island b).struck code := rfl

theorem resumeFrom_touches (s : State) (b code : Nat) : Touches endParts s (s.resumeFrom b code) :=
  ((unstruck_touches s b).mono (by decide)).trans (strikeItems_touches _ _ _)

theorem resumeFrom_struck (s : State) (b code : Nat) : ((s.resumeFrom b code).island b).struck = [] := by
  rw [resumeFrom_eq, islandsCount_strikeItems _ _ _ b]
  exact unstruck_struck s b

theorem resumeFrom_resumes {s : State} {b id : Nat} {x : Item} (hn : (s.island b).struck.Nodup) (hm : id ∈ (s.island b).struck)
    (hr : ItemRuns s id x) (code : Nat) : ∃ y, find (s.resumeFrom b code).items id = some y ∧ Resumes (resumeStage s x) code x y := by
  have hu := unstruck_touches s b
  have hr' : ItemRuns (s.unstruck b) id x := ⟨by rw [hu .items (by decide)]; exact hr.1, hr.2⟩
  obtain ⟨y, hy, h⟩ := strikeItems_resume hn hm hr' code
  rw [resumeStage, isUpdate_congr (.of_eq (hu .tensors (by decide)))] at h
  exact ⟨y, hy, h⟩

/-- BLOCK_RECOVERY of a block that may recover to its target, and of one that may not (R369, R382). -/
theorem blockRecovery_next {s : State} {block : Word16} {target : Option Word16} (hw : watched block.toNat = true)
    (ht : ∀ w, target = some w → validBlock w.toNat = true) :
    let b := block.toNat
    let accounts := accountsOf s (s.island b).struck
    exec (.blockRecovery block target) s = .next (if ((s.island b).fenced && !regionFenced s (blockLocation b) && mayRecover s (domainOf b) &&
      targetOk s b accounts target) = true then ((s.resumeFrom b (fenceCode s b)).rebound b accounts target).endRecovery (domainOf b) else s) := by
  intro b accounts
  rw [exec_blockRecovery]
  unfold execBlockRecovery
  dsimp only
  rw [guardWf_ok]
  · cases target <;> rfl
  · cases target with
    | none => simp [hw]
    | some w => simp [hw, ht w rfl]

/-! ### Self-test of a fenced block or steward (R374) -/

/-- FENCE_SELF_TEST of a block, or of a half's steward. -/
theorem fenceSelfTest_next {s : State} {block : Word16} (hv : validBlock block.toNat = true) (hp : s.power.powerGood = true)
    (hh : halfOut s (halfOfBlock block.toNat) = false) (passes : Bool) (time : Nat) : exec (.fenceSelfTest block passes time) s =
      .next (if block.toNat = stewardBlock .west then selfTestSteward .west passes time (s.at time)
        else if block.toNat = stewardBlock .east then selfTestSteward .east passes time (s.at time)
        else selfTestBlock block.toNat passes time (s.at time)) := by
  rw [exec_fenceSelfTest, execFenceSelfTest, guardWf_ok hv]
  exact congrArg _ (if_neg (show ¬(!s.power.powerGood || halfOut s (halfOfBlock block.toNat)) = true by simp [hp, hh]))

theorem fenceSelfTest_steward {s : State} {block : Word16} {h : Half} (hb : block.toNat = stewardBlock h) (hv : validBlock block.toNat = true)
    (hp : s.power.powerGood = true) (hh : halfOut s (halfOfBlock block.toNat) = false) (passes : Bool) (time : Nat) :
    exec (.fenceSelfTest block passes time) s = .next (selfTestSteward h passes time (s.at time)) := by
  rw [fenceSelfTest_next hv hp hh, hb]
  cases h with
  | west => rfl
  | east => rfl

/-- A fenced block that may return returns; an HBM controller with its stack (R374). -/
theorem selfTestBlock_returns {s : State} {b : Nat} {passes : Bool} {time : Nat}
    (h : ((s.island b).fenced && !(s.island b).withdrawn && decide ((s.island b).fencedAt + retestNs ≤ time) && passes &&
      decide ((s.island b).fences < 3)) = true) :
    ∃ t, selfTestBlock b passes time s = t ∧ Touches [.islands, .hbmStacks] s t ∧ Beside State.island b s t ∧
      t.island b = { s.island b with fenced := false, pulseAt := time } := by
  refine ⟨_, rfl, touches_selfTestBlock .rfl (by decide) (by decide) _ _ _, ?_⟩
  unfold selfTestBlock
  dsimp only
  rw [if_pos h]
  split <;> exact ⟨beside_setIsland s b _, State.setIsland_same s b _⟩

/-- A fenced steward may return on the same terms (R32, R374). -/
theorem selfTestSteward_eq {s : State} {h : Half} {passes : Bool} {time : Nat} (hh : halfOut s h = false) : selfTestSteward h passes time s =
    if ((s.steward h).fenced && !(s.steward h).withdrawn && decide ((s.steward h).fencedAt + retestNs ≤ time) && passes &&
      decide ((s.steward h).fences < 3)) = true then
      (s.setSteward h.other { s.steward h.other with peerFenced := false }).setSteward h { (s.steward h).rejoin with heartbeatAt := time }
    else s := by
  unfold selfTestSteward
  dsimp only
  rw [hh, Bool.not_false, Bool.and_true]

end Sys2Proof.Machine

namespace Sys2Proof

open Sys2Proof.Machine

/-- Settles O49: the liveness of a block, its recovery through the items struck, and its self-test, one command each. -/
theorem fencedBlocksResumeElsewhere : Obligations.FencedBlocksResumeElsewhere := by
  refine ⟨?_, ?_, ?_⟩
  · intro s block time b u i recorded hw hp hf
    have hpulse := livenessPulse_next (time := time) hw hp hf
    have htimeout := livenessTimeout_next (time := time) hw hp hf
    refine ⟨fun hh => ?_, fun hh ht hr => ?_, fun hh ht hr => ?_, fun h => ?_⟩
    · rw [if_pos hh] at hpulse
      exact ⟨_, hpulse, touches_State_setIsland .rfl (by decide) _ _, beside_setIsland _ _ _, State.setIsland_same _ _ _⟩
    · rw [if_pos ⟨hh, ht⟩, silentBlock_fenced (s := s.at time) hr] at htimeout
      have hi := recordBy_island u (switchBlock (blockLocation b)) (r := { code := 0x2601, source := b, action := 5 }) (by simp)
      exact ⟨_, htimeout, touches_recordBy_local .rfl (by decide) _ (by simp), (congrArg Island.fenced hi).trans ((addFault_fenced _ _).trans hf),
        _, congrArg Island.faults hi, rfl, rfl, rfl⟩
    · rw [if_pos ⟨hh, ht⟩] at htimeout
      obtain ⟨h1, h2, h3, h4, h5⟩ := silentBlock_island (s := u) (b := b) hr
      have hs := silentBlock_serving (s := u) (b := b) hr
      refine ⟨_, htimeout, ?_, h1, h2, h3, ?_, h4, _, h5, rfl, rfl, rfl⟩
      · rw [hs]
        exact touches_State_fenceFor (touches_State_bump (touches_recordBy_local .rfl (by decide) _ (by simp)) (by decide) _ _ _) (by decide)
          (by decide) (by decide) (by decide) (by decide) (by decide) (by decide) (by decide) (by decide) (by decide) _ _ _
      · rw [hs]
        exact itemsOn_fenceFor _ _ _ _
    · rw [if_neg] at htimeout
      · exact htimeout
      · rintro ⟨h1, h2⟩
        rcases h with h | h
        · exact absurd (h.symm.trans h1) Bool.false_ne_true
        · exact absurd h2 (Nat.not_le.mpr h)
  · intro s block target b ids hw ht hn may
    have hexec := blockRecovery_next (s := s) hw ht
    dsimp only at hexec
    refine ⟨fun hmay => ?_, fun hmay => ?_⟩
    · rw [if_pos hmay] at hexec
      have hdom : mayRecover s (domainOf b) = true := by
        simp only [may, Bool.and_eq_true] at hmay
        exact hmay.1.2
      have h1 := resumeFrom_touches s b (fenceCode s b)
      obtain ⟨h2, hstruck⟩ := rebound_keeps (s.resumeFrom b (fenceCode s b)) b (accountsOf s ids) target
      have h3 := endRecovery_touches ((s.resumeFrom b (fenceCode s b)).rebound b (accountsOf s ids) target) (domainOf b)
      refine ⟨_, hexec, ?_, endRecovery_recovering ?_, fun id hid x hx => ?_⟩
      · rw [State.island, h3 .islands (by decide)]
        exact hstruck.trans (resumeFrom_struck s b _)
      · rw [mayRecover_congr (h2 .recovering (by decide)), mayRecover_congr (h1 .recovering (by decide))]
        exact hdom
      · obtain ⟨y, hy, hend, hgo⟩ := resumeFrom_resumes hn hid hx (fenceCode s b)
        rw [← h2 .items (by decide), ← h3 .items (by decide)] at hy
        exact ⟨fun h => ⟨y, hy, hend h⟩, fun hc h3 => ⟨y, hy, hgo hc h3⟩⟩
    · exact hexec.trans (congrArg _ (if_neg (ne_true_of_eq_false hmay)))
  · intro s block passes time b u i hv hp hh
    refine ⟨fun hwest heast => ⟨fun hb => ?_, fun hb => ?_⟩, fun h hsb hout => ⟨fun hb => ?_, fun hb => ?_⟩⟩
    · obtain ⟨t, ht, h⟩ := selfTestBlock_returns (s := u) hb
      exact ⟨t, by rw [fenceSelfTest_next hv hp hh, if_neg hwest, if_neg heast, ht], h⟩
    · rw [fenceSelfTest_next hv hp hh, if_neg hwest, if_neg heast]
      exact congrArg _ (if_neg (ne_true_of_eq_false hb))
    · refine ⟨_, (fenceSelfTest_steward hsb hv hp hh passes time).trans (congrArg _ ((selfTestSteward_eq (s := u) hout).trans (if_pos hb))),
        touches_State_setSteward (touches_State_setSteward .rfl (by decide) _ _) (by decide) _ _, ?_⟩
      rw [State.setSteward_same]
      exact ⟨rfl, rfl, rfl, rfl⟩
    · rw [fenceSelfTest_steward hsb hv hp hh, selfTestSteward_eq (s := u) hout]
      exact congrArg _ (if_neg (ne_true_of_eq_false hb))

end Sys2Proof

/-! ### What a recovery leaves of fences, of the blocks' work and of accounts (R370, R371) -/

namespace Sys2Proof.Machine

open Sys2Proof

/-- Every block's island is as before but for its telemetry counts and its list of items to be accounted for. -/
def IslandsFollow (s t : State) : Prop := ∀ b, t.island b = { s.island b with counters := (t.island b).counters, struck := (t.island b).struck }

theorem IslandsFollow.of_eq {s t : State} (h : t.islands = s.islands) : IslandsFollow s t := fun b => by rw [State.island, State.island, h]
theorem IslandsFollow.trans {s t u : State} (h : IslandsFollow s t) (k : IslandsFollow t u) : IslandsFollow s u := fun b => by rw [k b, h b]
theorem IslandsCount.follow {s t : State} (h : IslandsCount s t) : IslandsFollow s t := fun b => by rw [h b]

theorem IslandsFollow.faults {s t : State} (h : IslandsFollow s t) (b : Nat) : (t.island b).faults = (s.island b).faults := by rw [h b]
theorem IslandsFollow.fenced {s t : State} (h : IslandsFollow s t) (b : Nat) : (t.island b).fenced = (s.island b).fenced := by rw [h b]

theorem islandsFollow_strip (s : State) (b : Nat) (ids : List Nat) : IslandsFollow s (s.strip b ids) := fun k => by
  by_cases h : k = b
  · rw [h, strip_island]
  · rw [strip_other s ids h]

theorem islandsFollow_unstruck (s : State) (b : Nat) : IslandsFollow s (s.unstruck b) := by
  unfold State.unstruck
  split
  · exact .of_eq rfl
  · intro k
    by_cases h : k = b
    · rw [h, State.setIsland_same]
    · rw [State.setIsland_other _ _ h]

/-- What a recovery leaves: fences and fault records stand, nothing comes to stand on a block, and accounts keep what they are. -/
structure Aftermath (s t : State) : Prop where
  islands : IslandsFollow s t
  work : NothingNew s t
  accounts : AccountsFollow s t

/-- The tables that an aftermath speaks of. -/
def aftermathParts : List Part := .accounts :: .islands :: workParts

theorem Aftermath.of_touches {ps : List Part} {s t : State} (h : Touches ps s t) (hp : ∀ p ∈ aftermathParts, p ∉ ps) : Aftermath s t :=
  ⟨.of_eq (h .islands (hp _ (by decide))), .of_touches h fun p hm => hp p (by simp [aftermathParts, hm]), .of_eq (h .accounts (hp _ (by decide)))⟩

theorem Aftermath.refl (s : State) : Aftermath s s := .of_touches (ps := []) .rfl (by decide)

theorem Aftermath.trans {s t u : State} (h : Aftermath s t) (k : Aftermath t u) : Aftermath s u :=
  ⟨h.islands.trans k.islands, h.work.trans k.work, h.accounts.trans k.accounts⟩

theorem aftermath_foldl {α : Type} (l : List α) (g : State → α → State) (hg : ∀ t a, Aftermath t (g t a)) (s : State) : Aftermath s (l.foldl g s) :=
  foldl_keeps .refl .trans l g hg s

theorem aftermath_strikeItem (s : State) (id code : Nat) : Aftermath s (s.strikeItem id code) :=
  ⟨(islandsCount_strikeItem s id code).follow, nothingNew_strikeItem s id code, accountsFollow_strikeItem s id code⟩

theorem aftermath_strikeItems (s : State) (ids : List Nat) (code : Nat) : Aftermath s (s.strikeItems ids code) :=
  aftermath_foldl ids _ (fun t id => aftermath_strikeItem t id code) s

theorem aftermath_resumeFrom (s : State) (b code : Nat) : Aftermath s (s.resumeFrom b code) := by
  have hu := unstruck_touches s b
  exact Aftermath.trans ⟨islandsFollow_unstruck s b, .of_touches hu (by decide), .of_eq (hu .accounts (by decide))⟩ (aftermath_strikeItems _ _ code)

/-- A change of the accounts alone that keeps of each what is to be kept. -/
theorem aftermath_of_accounts {s t : State} (h : Touches [.accounts] s t) (ha : AccountsFollow s t) : Aftermath s t :=
  ⟨.of_eq (h .islands (by decide)), .of_touches h (by decide), ha⟩

theorem aftermath_loseAccount (s : State) (code : Nat) (l : Loss) (readable : Bool) (a : Nat) : Aftermath s (s.loseAccount code l readable a) := by
  refine aftermath_of_accounts (by simp) ?_
  unfold State.loseAccount
  split
  · exact .of_eq rfl
  · next x hx =>
    dsimp only
    split
    · next y hy =>
      refine AccountsFollow.trans ?_ (accountsFollow_setAccount hy ?_)
      · exact accountsFollow_setAccount hx ⟨rfl, rfl, rfl⟩
      · exact ⟨rfl, rfl, rfl⟩
    · exact accountsFollow_setAccount hx ⟨rfl, rfl, rfl⟩

/-! The three steps of a loss: tensors, images, accounts. -/

def State.loseTensor (s : State) (code : Nat) (l : Loss) (readable : Bool) (h : Nat) : State := match find s.tensors h with
  | some t => s.setTensor h (lostTensor s code l readable h t)
  | none => s

def State.loseTensors (s : State) (code : Nat) (l : Loss) (readable : Bool) (hs : List Nat) : State :=
  hs.foldl (fun s h => s.loseTensor code l readable h) s

def State.loseImages (s : State) (code : Nat) (l : Loss) (readable : Bool) (hs : List Nat) : State :=
  hs.foldl (fun s h => { s with images := adjust s.images h (lostImage s code l readable h) }) s

def State.loseAccounts (s : State) (code : Nat) (l : Loss) (readable : Bool) (as : List Nat) : State :=
  as.foldl (fun s a => s.loseAccount code l readable a) s

theorem loseTensors_touches (s : State) (code : Nat) (l : Loss) (readable : Bool) (hs : List Nat) :
    Touches [.tensors] s (s.loseTensors code l readable hs) :=
  touches_foldl _ _ (fun t h ht => by
    unfold State.loseTensor
    split
    · exact touches_State_setTensor ht (by decide) _ _
    · exact ht) .rfl

theorem loseImages_touches (s : State) (code : Nat) (l : Loss) (readable : Bool) (hs : List Nat) :
    Touches [.images] s (s.loseImages code l readable hs) :=
  touches_foldl _ _ (fun t h ht => by simp [ht]) .rfl

theorem loseAccounts_touches (s : State) (code : Nat) (l : Loss) (readable : Bool) (as : List Nat) :
    Touches [.accounts] s (s.loseAccounts code l readable as) :=
  touches_foldl _ _ (fun _ a ht => touches_State_loseAccount ht (by decide) code l readable a) .rfl

theorem aftermath_loseAccounts (s : State) (code : Nat) (l : Loss) (readable : Bool) (as : List Nat) :
    Aftermath s (s.loseAccounts code l readable as) :=
  aftermath_foldl as _ (fun t a => aftermath_loseAccount t code l readable a) s

theorem touches_nextFree (s : State) : Touches [.free] s { s with free := s.free + 1 } := by simp

/-- A loss: first tensors, then images, then accounts (R370, R371). -/
theorem poisonLost_eq (s : State) (code : Nat) (l : Loss) (readable : Bool) : ∃ u : State,
    Touches [.images] (s.loseTensors code l readable (s.tensors.map Prod.fst)) u ∧
    s.poisonLost code l readable =
      let v := u.loseAccounts code l readable (u.accounts.map Prod.fst)
      { v with free := v.free + 1 } :=
  ⟨_, loseImages_touches _ code l readable _, rfl⟩

theorem aftermath_poisonLost (s : State) (code : Nat) (l : Loss) (readable : Bool) : Aftermath s (s.poisonLost code l readable) := by
  obtain ⟨u, hu, h⟩ := poisonLost_eq s code l readable
  rw [h]
  exact (((Aftermath.of_touches (loseTensors_touches s code l readable _) (by decide)).trans (.of_touches hu (by decide))).trans
    (aftermath_loseAccounts u code l readable _)).trans (.of_touches (touches_nextFree _) (by decide))

theorem aftermath_cutReservations (s : State) : Aftermath s s.cutReservations := by
  refine aftermath_of_accounts (by simp) ?_
  unfold State.cutReservations
  dsimp only
  split
  · exact .of_eq rfl
  · intro n a ha
    rw [State.account?, find_mapValues, ← State.account?, ha]
    exact ⟨_, rfl, rfl, rfl, rfl⟩

theorem aftermath_rebuildTallies (s : State) (r : Nat) : Aftermath s (s.rebuildTallies r) :=
  .of_touches (ps := [.free, .tallies, .heldWaits]) (by simp) (by decide)

theorem aftermath_recoverRegion (s : State) (r words : Nat) : Aftermath s (s.recoverRegion r words) :=
  (((aftermath_poisonLost s _ _ _).trans ((aftermath_cutReservations _).trans (aftermath_rebuildTallies _ r))).trans
    (aftermath_foldl _ _ (fun t b => aftermath_resumeFrom t b _) _)).trans (aftermath_foldl _ _ (fun t id => aftermath_strikeItem t id _) _)

theorem nothingNew_assayHomes (s : State) (hbms : List Nat) : NothingNew s (s.assayHomes hbms) := by
  intro b id hi
  by_cases h : blockKind b = 0
  · rw [mem_itemsOn_aab h] at hi ⊢
    refine hi.imp_left ?_
    rintro ⟨p, hp, ha, hh⟩
    obtain ⟨q, hq, e⟩ := List.mem_map.mp hp
    obtain ⟨hn, hd⟩ : p.1 = q.1 ∧ p.2.holds = q.2.holds := by
      rw [← e]
      split <;> exact ⟨rfl, rfl⟩
    exact ⟨q, hq, hn ▸ ha, hd ▸ hh⟩
  · exact mem_itemsOn_congr hi (fun e => absurd e h) (fun _ => rfl) (fun _ => rfl) (fun _ => rfl)

theorem aftermath_assayHomes (s : State) (hbms : List Nat) : Aftermath s (s.assayHomes hbms) :=
  ⟨.of_eq rfl, nothingNew_assayHomes s hbms, .of_eq rfl⟩

theorem aftermath_dropImages (s : State) : Aftermath s s.dropImages := .of_touches (ps := [.free, .items]) (by simp) (by decide)

theorem aftermath_recoverStacks (s : State) (hbms : List Nat) (code : Nat) : Aftermath s (s.recoverStacks hbms code) :=
  (((aftermath_assayHomes s hbms).trans (aftermath_dropImages _)).trans (aftermath_poisonLost _ _ _ _)).trans (aftermath_strikeItems _ _ code)

theorem aftermath_recoverHalf (s : State) (h : Half) (code : Nat) : Aftermath s (s.recoverHalf h code) :=
  (((aftermath_poisonLost s _ _ _).trans (aftermath_recoverStacks _ _ code)).trans
    (aftermath_foldl _ _ (fun t r => aftermath_recoverRegion t r 0) _)).trans (aftermath_strikeItems _ _ code)

theorem aftermath_endRecovery (s : State) (d : Domain) : Aftermath s (s.endRecovery d) := .of_touches (endRecovery_touches s d) (by decide)

theorem aftermath_queueRecovery (s : State) (r : Recovery) : Aftermath s (s.queueRecovery r) :=
  .of_touches (ps := [.recoveryQueue]) (by simp) (by decide)

theorem charterHeld_congr {s t : State} (h : t.stewards = s.stewards) : charterHeld t = charterHeld s := by
  unfold charterHeld holderHalf believesHolder
  rw [h]

theorem recoverRegion_touches (s : State) (r words : Nat) : Touches (.images :: endParts) s (s.recoverRegion r words) := by simp [endParts]
theorem recoverStacks_touches (s : State) (hbms : List Nat) (code : Nat) : Touches (.images :: endParts) s (s.recoverStacks hbms code) := by simp [endParts]
theorem recoverHalf_touches (s : State) (h : Half) (code : Nat) : Touches (.images :: endParts) s (s.recoverHalf h code) := by simp [endParts]

end Sys2Proof.Machine

/-! ### The fence of a region (R28, R370) -/

namespace Sys2Proof.Machine

open Sys2Proof

theorem exec_regionFence (region : Fin 4) (failed : Word16) (words time : Nat) (s : State) :
    exec (.regionFence region failed words time) s = execRegionFence region failed words time s := rfl

theorem mayRecoverDevice_congr {s t : State} (hr : t.recovering = s.recovering) (hs : t.stewards = s.stewards) (d : Domain) :
    mayRecoverDevice t d = (mayRecover s d && charterHeld s) := by
  rw [mayRecoverDevice, mayRecover_congr hr, charterHeld_congr hs]

/-- The recovery that is abandoned is one of this domain, which may begin all the same. -/
theorem mayRecover_abandon (s : State) (r : Nat) : mayRecover (s.abandon (inRegion r)) (.region r) = mayRecover s (.region r) := by
  unfold State.abandon mayRecover
  cases hq : s.recovering with
  | none => rfl
  | some q => by_cases h : q.domain = .region r <;> simp [inRegion, h]

/-! What the blocks of a region hold goes at its fence; no item moves on or ends by that. -/

/-- Every item is where it was in its course. -/
def StagesKept (s t : State) : Prop :=
  ∀ id x, find s.items id = some x → ∃ y, find t.items id = some y ∧ y.stage = x.stage ∧ y.status = x.status

theorem StagesKept.of_eq {s t : State} (h : t.items = s.items) : StagesKept s t := fun id x hx => ⟨x, by rw [h]; exact hx, rfl, rfl⟩

theorem StagesKept.trans {s t u : State} (h : StagesKept s t) (k : StagesKept t u) : StagesKept s u := fun id x hx =>
  let ⟨y, hy, p1, q1⟩ := h id x hx
  let ⟨z, hz, p2, q2⟩ := k id y hy
  ⟨z, hz, p2.trans p1, q2.trans q1⟩

theorem redoTiles_kept (s : State) (x : Item) : (x.redoTiles s).stage = x.stage ∧ (x.redoTiles s).status = x.status := by
  unfold Item.redoTiles
  split <;> exact ⟨rfl, rfl⟩

theorem stagesKept_redoTiles (s t : State) (id : Nat) : StagesKept t { t with items := adjust t.items id (Item.redoTiles s) } := fun i x hx => by
  by_cases h : i = id
  · subst h
    exact ⟨_, by rw [find_adjust_same, hx]; rfl, redoTiles_kept s x⟩
  · exact ⟨x, by rw [find_adjust_other _ _ h]; exact hx, rfl, rfl⟩

theorem stagesKept_dropWork (s : State) (b : Nat) : StagesKept s (s.dropWork b) := by
  rcases kind_cases b with h | h | h | h | h
  · have hr := foldl_keeps (R := StagesKept) (fun _ => .of_eq rfl) .trans (itemsOn s b) _ (fun t id => stagesKept_redoTiles s t id) s
    rw [foldl_adjust_items] at hr
    rw [dropWork_aab s h]
    exact hr.trans (.of_eq rfl)
  · exact .of_eq (by rw [dropWork_dtb s h]; rfl)
  · exact .of_eq (by rw [dropWork_teller s h]; rfl)
  · exact .of_eq (by rw [dropWork_bank s h])
  · exact .of_eq (by rw [dropWork_other s h])

theorem stagesKept_strip (s : State) (b : Nat) (ids : List Nat) : StagesKept s (s.strip b ids) := by
  refine (stagesKept_dropWork s b).trans (.of_eq ?_)
  unfold State.strip
  dsimp only
  split <;> rfl

theorem stagesKept_stripRegion (s : State) (r : Nat) : StagesKept s (s.stripRegion r) :=
  foldl_keeps (fun _ => .of_eq rfl) .trans _ _ (fun t b => stagesKept_strip t b []) s

theorem islandsFollow_stripRegion (s : State) (r : Nat) : IslandsFollow s (s.stripRegion r) :=
  foldl_keeps (fun _ => .of_eq rfl) .trans _ _ (fun t b => islandsFollow_strip t b []) s

/-- Blocks that are stripped one after another hold nothing. -/
theorem itemsOn_foldl_strip {l : List Nat} {k : Nat} (hk : k ∈ l) (s : State) : itemsOn (l.foldl (fun s b => s.strip b []) s) k = [] := by
  induction l generalizing s with
  | nil => exact absurd hk List.not_mem_nil
  | cons a rest ih =>
    by_cases h : k ∈ rest
    · exact ih h _
    · obtain rfl : k = a := (List.mem_cons.mp hk).resolve_right h
      exact (foldl_keeps (R := NothingNew) (fun _ _ _ hi => hi) .trans rest _ (fun t b => nothingNew_strip t b []) _).empty (itemsOn_strip s k [])

theorem itemsOn_stripRegion (s : State) {r k : Nat} (hk : k ∈ blocksOf r) : itemsOn (s.stripRegion r) k = [] := itemsOn_foldl_strip hk s

/-! The fence, and what follows it. -/

/-- The record of a region's fence. -/
def regionFault (r failed words : Nat) : FaultRecord :=
  { code := 0x3001, source := switchBlock r, sub := blockKind failed, action := 5, detail0 := failed, detail1 := words }

/-- The recovery of a region that waits. -/
def regionRecovery (r failed words recorded : Nat) : Recovery :=
  { domain := .region r, code := 0x3001, block := failed, recorded := recorded, bound := boundRegion, words := words }

/-- A region that has just been fenced, its own recoveries abandoned and its fence recorded. -/
def reportedRegion (r failed words : Nat) (s : State) : State :=
  ((s.fenceBlock (switchBlock r)).abandon (inRegion r)).recordBy (hubBlock (halfOfRegion r)) (regionFault r failed words)

/-- The same region when what its blocks held is discarded. -/
def fencedRegion (r failed words : Nat) (s : State) : State := (reportedRegion r failed words s).stripRegion r

theorem regionFence_eq (r failed words : Nat) (s : State) : regionFence r failed words s =
    if mayRecoverDevice (fencedRegion r failed words s) (.region r) = true then
      ((fencedRegion r failed words s).recoverRegion r words).endRecovery (.region r)
    else (fencedRegion r failed words s).queueRecovery (regionRecovery r failed words (fencedRegion r failed words s).now) := rfl

section
variable (r failed words : Nat) (s : State)

theorem reportedRegion_touches : Touches [.flash, .islands, .recovering, .recoveryQueue, .dumpDue] s (reportedRegion r failed words s) :=
  touches_State_recordBy (touches_State_abandon (touches_State_fenceBlock .rfl (by decide) (by decide) _) (by decide) (by decide) _)
    (by decide) (by decide) _ _

theorem stripRegion_touches : Touches [.items, .islands, .decks, .aabs, .dtbs, .tellers, .banks] s (s.stripRegion r) := by simp

theorem fencedRegion_touches :
    Touches ([.flash, .recovering, .recoveryQueue, .dumpDue] ++ [.items, .islands, .decks, .aabs, .dtbs, .tellers, .banks]) s
      (fencedRegion r failed words s) :=
  ((reportedRegion_touches r failed words s).mono (by decide)).trans ((stripRegion_touches r _).mono (by decide))

/-- The recoveries that a region's fence abandons, and no other, are gone. -/
theorem fencedRegion_recoveries : (fencedRegion r failed words s).recovering = (s.abandon (inRegion r)).recovering ∧
    (fencedRegion r failed words s).recoveryQueue = s.recoveryQueue.filter fun q => decide (q.domain ≠ .region r) := by
  have hf : Touches [.flash, .islands] s (s.fenceBlock (switchBlock r)) := touches_State_fenceBlock .rfl (by decide) (by decide) _
  have hr : (s.fenceBlock (switchBlock r)).recovering = s.recovering := hf .recovering (by decide)
  have hq : (s.fenceBlock (switchBlock r)).recoveryQueue = s.recoveryQueue := hf .recoveryQueue (by decide)
  have h : Touches [.items, .islands, .decks, .aabs, .dtbs, .tellers, .banks, .dumpDue] ((s.fenceBlock (switchBlock r)).abandon (inRegion r))
      (fencedRegion r failed words s) :=
    (touches_State_recordBy .rfl (by decide) (by decide) _ _).trans ((stripRegion_touches r _).mono (by decide))
  refine ⟨(h .recovering (by decide)).trans ?_, (h .recoveryQueue (by decide)).trans ?_⟩
  · simp only [State.abandon, hr]
  · simp [State.abandon, hq, inRegion]

theorem mayRecoverDevice_fencedRegion :
    mayRecoverDevice (fencedRegion r failed words s) (.region r) = (mayRecover s (.region r) && charterHeld s) := by
  rw [mayRecoverDevice, mayRecover_congr (fencedRegion_recoveries r failed words s).1, mayRecover_abandon,
    charterHeld_congr (fencedRegion_touches r failed words s .stewards (by decide))]

/-- The switch's island holds the record and the fence. -/
theorem fencedRegion_island : ((fencedRegion r failed words s).island (switchBlock r)).fenced = true ∧
    ∃ f : FaultRecord, ((fencedRegion r failed words s).island (switchBlock r)).faults = (addFault (s.island (switchBlock r)) f).faults ∧
      f.code = 0x3001 ∧ f.source = switchBlock r ∧ f.detail0 = failed ∧ f.detail1 = words := by
  let v := (s.fenceBlock (switchBlock r)).abandon (inRegion r)
  have hf : v.island (switchBlock r) = _ := fenceBlock_island s (switchBlock r)
  have hr : (reportedRegion r failed words s).island (switchBlock r) =
      addFault (v.island (switchBlock r)) (stampedBy v (hubBlock (halfOfRegion r)) (regionFault r failed words)) :=
    recordBy_island v _ (r := regionFault r failed words) (by simp [regionFault])
  have hs : IslandsFollow (reportedRegion r failed words s) (fencedRegion r failed words s) := islandsFollow_stripRegion _ r
  refine ⟨?_, stampedBy v (hubBlock (halfOfRegion r)) (regionFault r failed words), ?_, rfl, rfl, rfl, rfl⟩
  · rw [hs.fenced, hr, addFault_fenced, hf]
  · rw [hs.faults, hr]
    exact addFault_faults_congr (by rw [hf]) _

/-- What a region's fence leaves of its record, its fence and its blocks' work, whether its recovery ends at once or waits. -/
theorem aftermath_regionFence : Aftermath (fencedRegion r failed words s) (regionFence r failed words s) := by
  rw [regionFence_eq]
  split
  · exact (aftermath_recoverRegion _ _ _).trans (aftermath_endRecovery _ _)
  · exact aftermath_queueRecovery _ _

theorem itemsOn_regionFence {k : Nat} (hk : k ∈ blocksOf r) : itemsOn (regionFence r failed words s) k = [] :=
  (aftermath_regionFence r failed words s).work.empty (itemsOn_stripRegion _ hk)

theorem accountsFollow_regionFence : AccountsFollow s (regionFence r failed words s) :=
  (AccountsFollow.of_eq (fencedRegion_touches r failed words s .accounts (by decide))).trans (aftermath_regionFence r failed words s).accounts

/-- A recovery that may begin is over at once. -/
theorem regionFence_recovers (hm : mayRecover s (.region r) = true) (hc : charterHeld s = true) : (regionFence r failed words s).recovering = none := by
  have hd := mayRecoverDevice_fencedRegion r failed words s
  rw [hm, hc, Bool.true_and] at hd
  rw [regionFence_eq, if_pos hd]
  refine endRecovery_recovering ?_
  rw [mayRecover_congr (recoverRegion_touches _ _ _ .recovering (by decide))]
  exact (Bool.and_eq_true_iff.mp hd).1

/-- A recovery that may not begin waits, and no item ends. -/
theorem regionFence_queues (h : mayRecover s (.region r) = false ∨ charterHeld s = false) :
    StagesKept s (regionFence r failed words s) ∧
    (regionFence r failed words s).recoveryQueue = s.recoveryQueue.filter (fun q => decide (q.domain ≠ .region r)) ++
      [regionRecovery r failed words s.now] := by
  have hd := mayRecoverDevice_fencedRegion r failed words s
  rw [show (mayRecover s (.region r) && charterHeld s) = false by rcases h with h | h <;> simp [h]] at hd
  have ht := fencedRegion_touches r failed words s
  rw [regionFence_eq, if_neg (ne_true_of_eq_false hd)]
  constructor
  · exact (StagesKept.of_eq (reportedRegion_touches r failed words s .items (by decide))).trans ((stagesKept_stripRegion _ r).trans (.of_eq rfl))
  · have hn : (fencedRegion r failed words s).now = s.now := ht .now (by decide)
    rw [hn, ← (fencedRegion_recoveries r failed words s).2]
    rfl

end

/-- REGION_FENCE of a block of the region. -/
theorem regionFence_next {s : State} {region : Fin 4} {failed : Word16} (hv : validBlock failed.toNat = true)
    (hl : blockLocation failed.toNat = region.val) (words time : Nat) : exec (.regionFence region failed words time) s =
      .next (if (s.power.powerGood && !regionFenced s region.val && regionCause (s.at time) region.val failed.toNat) = true then
        regionFence region.val failed.toNat words (s.at time) else s.at time) := by
  rw [exec_regionFence, execRegionFence, guardWf_ok (by simp [hv, hl])]
  rfl

end Sys2Proof.Machine

/-! ### The fence of an HBM stack (R291, R371, R373) -/

namespace Sys2Proof.Machine

open Sys2Proof

/-! Tensors that the loss of one stack reaches. -/

theorem find_loseTensor (s : State) (code : Nat) (l : Loss) (readable : Bool) (a h : Nat) :
    find (s.loseTensor code l readable a).tensors h =
      if h = a then (find s.tensors h).map (lostTensor s code l readable h) else find s.tensors h := by
  unfold State.loseTensor
  by_cases e : h = a
  · subst e
    rw [if_pos rfl]
    cases ht : find s.tensors h with
    | none => exact ht
    | some t => exact find_ins_same _ _ _
  · rw [if_neg e]
    split
    · exact find_ins_other _ _ e
    · rfl

/-- The loss of a stack takes what had extents there (R371). -/
theorem takes_stack (k : Nat) (p : Place) : Loss.takes { hbms := [k] } p = true ↔ p.sram = none ∧ lookup [] p.extents k ≠ [] := by
  cases hs : p.sram <;> simp [Loss.takes, hs]

/-- A tensor as the loss of stack `k` leaves it: poisoned where it had extents there and is no class weight, which is formed again instead
(R243, R371); one that the loss does not reach stays where it is. -/
def LostTo (k : Nat) (v w : Tensor) : Prop :=
  w = { v with place := w.place, poison := w.poison, fallbackFmt := w.fallbackFmt } ∧
  w.poison = (if v.cls ≠ 1 ∧ v.place.sram = none ∧ lookup [] v.place.extents k ≠ [] then 0x4007 else v.poison) ∧
  (v.cls ≠ 1 → ¬(v.place.sram = none ∧ lookup [] v.place.extents k ≠ []) → w.place = v.place)

theorem lostTensor_lostTo (s : State) (k h : Nat) (v : Tensor) : LostTo k v (lostTensor s 0x4007 { hbms := [k] } false h v) := by
  unfold lostTensor
  by_cases hc : v.cls = 1
  · rw [if_pos hc]
    exact ⟨rfl, by simp [hc], fun h => absurd hc h⟩
  · rw [if_neg hc]
    by_cases ht : v.place.sram = none ∧ lookup [] v.place.extents k ≠ []
    · refine ⟨rfl, ?_, fun _ h => absurd ht h⟩
      simp [bytesLost, (takes_stack k v.place).mpr ht, hc, ht.1, ht.2]
    · have hn : Loss.takes { hbms := [k] } v.place = false := eq_false_of_ne_true (mt (takes_stack k v.place).mp ht)
      exact ⟨rfl, by simp [bytesLost, hn, hc, ht], fun _ _ => by simp [movedPlace, hn]⟩

/-- A tensor that the loss meets once more is as after the first time. -/
theorem LostTo.again {k : Nat} {v w x : Tensor} (h : LostTo k v w) (g : LostTo k w x) : LostTo k v x := by
  obtain ⟨hw, hp, hk⟩ := h
  obtain ⟨gx, gp, gk⟩ := g
  have hcls : w.cls = v.cls := by rw [hw]
  rw [hcls] at gp gk
  refine ⟨by rw [gx, hw], ?_, fun hc ht => ?_⟩
  · rw [gp, hp]
    by_cases hc : v.cls = 1
    · simp [hc]
    · by_cases ht : v.place.sram = none ∧ lookup [] v.place.extents k ≠ []
      · simp [hc, ht]
      · simp [hc, ht, hk hc ht]
  · have e := hk hc ht
    rw [gk hc (e.symm ▸ ht), e]

/-- A tensor stays lost while the loss goes through the rest. -/
theorem loseTensors_again {hs : List Nat} {s : State} {k h : Nat} {v w : Tensor} (hw : find s.tensors h = some w) (hl : LostTo k v w) :
    ∃ x, find (s.loseTensors 0x4007 { hbms := [k] } false hs).tensors h = some x ∧ LostTo k v x := by
  induction hs generalizing s w with
  | nil => exact ⟨w, hw, hl⟩
  | cons a rest ih =>
    have hf := find_loseTensor s 0x4007 { hbms := [k] } false a h
    rw [hw] at hf
    split at hf
    · exact ih hf (hl.again (lostTensor_lostTo s k h w))
    · exact ih hf hl

theorem loseTensors_lostTo {hs : List Nat} {s : State} {k h : Nat} {v : Tensor} (hm : h ∈ hs) (hv : find s.tensors h = some v) :
    ∃ x, find (s.loseTensors 0x4007 { hbms := [k] } false hs).tensors h = some x ∧ LostTo k v x := by
  induction hs generalizing s with
  | nil => exact absurd hm List.not_mem_nil
  | cons a rest ih =>
    have hf := find_loseTensor s 0x4007 { hbms := [k] } false a h
    rw [hv] at hf
    split at hf
    · exact loseTensors_again (hs := rest) (s := s.loseTensor 0x4007 { hbms := [k] } false a) hf (lostTensor_lostTo s k h v)
    · next e => exact ih ((List.mem_cons.mp hm).resolve_left e) hf

theorem poisonLost_lostTo {s : State} {k h : Nat} {v : Tensor} (hv : find s.tensors h = some v) :
    ∃ x, find (s.poisonLost 0x4007 { hbms := [k] } false).tensors h = some x ∧ LostTo k v x := by
  obtain ⟨u, hu, e⟩ := poisonLost_eq s 0x4007 { hbms := [k] } false
  obtain ⟨x, hx, hl⟩ := loseTensors_lostTo (k := k) (List.mem_map_of_mem (f := Prod.fst) (mem_of_find hv)) hv
  refine ⟨x, ?_, hl⟩
  have h1 := loseAccounts_touches u 0x4007 { hbms := [k] } false (u.accounts.map Prod.fst) .tensors (by decide)
  have h2 := hu .tensors (by decide)
  rw [e]
  exact (congrArg (find · h) (h1.trans h2)).trans hx

/-! The items whose ledgers a lost stack held. -/

theorem ledgersOn_congr {s t : State} (h : t.tickets = s.tickets) (hbms : List Nat) : ledgersOn t hbms = ledgersOn s hbms := by
  unfold ledgersOn
  rw [h]

/-- Before the items are struck: homes to be assayed, images dropped, objects moved and poisoned. -/
def State.loseStacks (s : State) (hbms : List Nat) (code : Nat) : State := ((s.assayHomes hbms).dropImages).poisonLost code { hbms := hbms } false

theorem recoverStacks_eq (s : State) (hbms : List Nat) (code : Nat) :
    s.recoverStacks hbms code = (s.loseStacks hbms code).strikeItems (ledgersOn s hbms) code := rfl

/-- An item whose context images on lost stacks are gone. -/
def keepImages (n i : Nat) (x : Item) : Item :=
  { x with work := { x.work with images := x.work.images.filter fun q => !Config.lostBytes n (2 ^ 80 + 2 ^ 40 * i + q.1) } }

theorem loseStacks_items (s : State) (hbms : List Nat) (code : Nat) : (s.loseStacks hbms code).items = mapValues (keepImages s.free) s.items := by
  have h : Touches [.free, .accounts, .tensors, .images] ((s.assayHomes hbms).dropImages) (s.loseStacks hbms code) :=
    touches_State_poisonLost .rfl (by decide) (by decide) (by decide) (by decide) _ _ _
  exact h .items (by decide)

/-- A running CLEAR whose ledger lay on a lost stack ends without success (R291). -/
theorem recoverStacks_end_clear {s : State} {hbms : List Nat} {id : Nat} {x : Item} (hm : id ∈ ledgersOn s hbms) (hr : ItemRuns s id x)
    (hc : isClear x.slip = true) (code : Nat) : EndedAs id stRetryable (s.recoverStacks hbms code) := by
  obtain ⟨hx, hs⟩ := hr
  have hf : find (s.loseStacks hbms code).items id = some (keepImages s.free id x) := by rw [loseStacks_items, find_mapValues, hx]; rfl
  exact strikeItems_end_clear hm ⟨hf, hs⟩ hc code

theorem recoverStacks_lostTo {s : State} {k h : Nat} {v : Tensor} (hl : ledgersOn s [k] = []) (hv : find s.tensors h = some v) :
    ∃ x, find (s.recoverStacks [k] 0x4007).tensors h = some x ∧ LostTo k v x := by
  rw [recoverStacks_eq, hl]
  exact poisonLost_lostTo (s := (s.assayHomes [k]).dropImages) hv

/-! The fence, and what follows it. -/

/-- A stack that has just been fenced, emptied and recorded. -/
def lostStack (k : Nat) (s : State) : State :=
  let v := s.recordBy (hubBlock (if k < 4 then .west else .east))
    { code := 0x4007, source := hbmBlock k, sub := k, action := 3, detail0 := stackExtents s k }
  (v.fenceBlock (hbmBlock k)).setStack k
    { v.stack k with fenced := true, bytes := [], zeroTags := [], upsets := [], poisoned := [], data := none }

/-- The recovery of a stack that waits. -/
def stackRecovery (k recorded : Nat) : Recovery :=
  { domain := domainOf (hbmBlock k), code := 0x4007, block := hbmBlock k, recorded := recorded, bound := boundHbm }

theorem hbmFence_eq (k : Nat) (s : State) : hbmFence k s =
    if mayRecoverDevice (lostStack k s) (domainOf (hbmBlock k)) = true then
      ((lostStack k s).recoverStacks [k] 0x4007).endRecovery (domainOf (hbmBlock k))
    else (lostStack k s).queueRecovery (stackRecovery k (lostStack k s).now) := rfl

section
variable (k : Nat) (s : State)

theorem lostStack_touches : Touches [.islands, .flash, .hbmStacks, .dumpDue] s (lostStack k s) :=
  touches_State_setStack (touches_State_fenceBlock (touches_State_recordBy .rfl (by decide) (by decide) _ _) (by decide) (by decide) _) (by decide) _ _

theorem lostStack_stack : ((lostStack k s).stack k).fenced = true ∧ ((lostStack k s).stack k).bytes = [] ∧ Beside State.stack k s (lostStack k s) := by
  refine ⟨?_, ?_, fun j hj => ?_⟩
  · rw [lostStack, State.setStack_same]
  · rw [lostStack, State.setStack_same]
  · rw [lostStack, State.setStack_other _ _ hj]
    have h : Touches [.flash, .islands, .dumpDue] s ((s.recordBy (hubBlock (if k < 4 then .west else .east))
        { code := 0x4007, source := hbmBlock k, sub := k, action := 3, detail0 := stackExtents s k }).fenceBlock (hbmBlock k)) :=
      touches_State_fenceBlock (touches_State_recordBy .rfl (by decide) (by decide) _ _) (by decide) (by decide) _
    exact congrArg (fun t => lookup {} t j) (h .hbmStacks (by decide))

/-- The stack's island holds the record and the fence. -/
theorem lostStack_island : ((lostStack k s).island (hbmBlock k)).fenced = true ∧
    ∃ f : FaultRecord, ((lostStack k s).island (hbmBlock k)).faults = (addFault (s.island (hbmBlock k)) f).faults ∧
      f.code = 0x4007 ∧ f.source = hbmBlock k ∧ f.sub = k := by
  let f : FaultRecord := { code := 0x4007, source := hbmBlock k, sub := k, action := 3, detail0 := stackExtents s k }
  let unit := hubBlock (if k < 4 then .west else .east)
  have hr : (s.recordBy unit f).island (hbmBlock k) = addFault (s.island (hbmBlock k)) (stampedBy s unit f) :=
    recordBy_island s unit (r := f) (by simp [f])
  have h : (lostStack k s).island (hbmBlock k) = _ := fenceBlock_island (s.recordBy unit f) (hbmBlock k)
  exact ⟨by rw [h], stampedBy s unit f, by rw [h, hr], rfl, rfl, rfl⟩

theorem mayRecoverDevice_lostStack : mayRecoverDevice (lostStack k s) (domainOf (hbmBlock k)) = (mayRecover s (domainOf (hbmBlock k)) && charterHeld s) :=
  mayRecoverDevice_congr (lostStack_touches k s .recovering (by decide)) (lostStack_touches k s .stewards (by decide)) _

/-- Neither recovery nor a wait for it changes a stack or a fence. -/
theorem aftermath_hbmFence : Aftermath (lostStack k s) (hbmFence k s) ∧ (hbmFence k s).hbmStacks = (lostStack k s).hbmStacks := by
  rw [hbmFence_eq]
  split
  · exact ⟨(aftermath_recoverStacks _ _ _).trans (aftermath_endRecovery _ _),
      (endRecovery_touches _ _ .hbmStacks (by decide)).trans (recoverStacks_touches _ _ _ .hbmStacks (by decide))⟩
  · exact ⟨aftermath_queueRecovery _ _, rfl⟩

end

section
variable {k : Nat} {s : State} (h : (mayRecover s (domainOf (hbmBlock k)) && charterHeld s) = true)
include h

theorem hbmFence_recovers : hbmFence k s = ((lostStack k s).recoverStacks [k] 0x4007).endRecovery (domainOf (hbmBlock k)) := by
  rw [hbmFence_eq, if_pos ((mayRecoverDevice_lostStack k s).trans h)]

theorem hbmFence_end_clear {id : Nat} {x : Item} (hm : id ∈ ledgersOn s [k]) (hr : ItemRuns s id x) (hc : isClear x.slip = true) :
    EndedAs id stRetryable (hbmFence k s) := by
  have ht := lostStack_touches k s
  rw [← ledgersOn_congr (ht .tickets (by decide))] at hm
  have hr' : ItemRuns (lostStack k s) id x := ⟨(congrArg (find · id) (ht .items (by decide))).trans hr.1, hr.2⟩
  obtain ⟨y, hy, e⟩ := recoverStacks_end_clear hm hr' hc 0x4007
  rw [hbmFence_recovers h]
  exact ⟨y, (congrArg (find · id) (endRecovery_touches _ _ .items (by decide))).trans hy, e⟩

theorem hbmFence_lostTo (hl : ledgersOn s [k] = []) {n : Nat} {v : Tensor} (hv : find s.tensors n = some v) :
    ∃ w, find (hbmFence k s).tensors n = some w ∧ LostTo k v w := by
  have ht := lostStack_touches k s
  rw [← ledgersOn_congr (ht .tickets (by decide))] at hl
  obtain ⟨w, hw, e⟩ := recoverStacks_lostTo hl ((congrArg (find · n) (ht .tensors (by decide))).trans hv)
  rw [hbmFence_recovers h]
  exact ⟨w, (congrArg (find · n) (endRecovery_touches _ _ .tensors (by decide))).trans hw, e⟩

end

theorem hbmFence_queues {k : Nat} {s : State} (h : (mayRecover s (domainOf (hbmBlock k)) && charterHeld s) = false) :
    Touches [.islands, .flash, .hbmStacks, .recoveryQueue, .dumpDue] s (hbmFence k s) ∧
    (hbmFence k s).recoveryQueue = s.recoveryQueue ++ [stackRecovery k s.now] := by
  have ht := lostStack_touches k s
  rw [hbmFence_eq, if_neg (ne_true_of_eq_false ((mayRecoverDevice_lostStack k s).trans h))]
  refine ⟨touches_State_queueRecovery (ht.mono (by decide)) (by decide) _, ?_⟩
  have hq : (lostStack k s).recoveryQueue = s.recoveryQueue := ht .recoveryQueue (by decide)
  have hn : (lostStack k s).now = s.now := ht .now (by decide)
  rw [hn, ← hq]
  rfl

theorem hbmFenced_next (stack : Fin 8) (time : Nat) (s : State) :
    exec (.hbmFenced stack time) s = .next (if hbmServes s stack.val = true then hbmFence stack.val (s.at time) else s.at time) := rfl

end Sys2Proof.Machine

/-! ### The loss of the bridge (R371, R390) -/

namespace Sys2Proof.Machine

open Sys2Proof

theorem exec_bridgeLost (time : Nat) (s : State) : exec (.bridgeLost time) s = .next (if (s.power.powerGood && s.bridgeUp) = true then
    loseBridge (s.at time) else s.at time) := rfl

/-- Every fault record stands. -/
def FaultsKept (s t : State) : Prop := ∀ b, (t.island b).faults = (s.island b).faults

theorem FaultsKept.of_eq {s t : State} (h : t.islands = s.islands) : FaultsKept s t := (IslandsFollow.of_eq h).faults
theorem FaultsKept.trans {s t u : State} (h : FaultsKept s t) (k : FaultsKept t u) : FaultsKept s u := fun b => (k b).trans (h b)

theorem faultsKept_fenceBlock (s : State) (b : Nat) : FaultsKept s (s.fenceBlock b) := fun k => by
  by_cases h : k = b
  · rw [h, fenceBlock_island]
  · rw [fenceBlock_other s h]

theorem faultsKept_foldl {α : Type} (l : List α) (g : State → α → State) (hg : ∀ t a, FaultsKept t (g t a)) (s : State) : FaultsKept s (l.foldl g s) :=
  foldl_keeps (fun _ => .of_eq rfl) .trans l g hg s

/-! A half's fence. -/

/-- A region that goes with its half. -/
def State.fenceWith (s : State) (r : Nat) : State := if regionFenced s r then s else (s.fenceBlock (switchBlock r)).stripRegion r

/-- A stack that goes with its half. -/
def State.fenceStack (s : State) (k : Nat) : State := s.setStack k { s.stack k with fenced := true }

/-- A half that has just been marked, its own recoveries abandoned and its steward fenced. -/
def State.markHalf (s : State) (h : Half) : State :=
  let v := ({ s with halfFenced := s.halfFenced.set h true } : State).abandon (inHalf h)
  v.setSteward h { v.steward h with fenced := true, fencedAt := v.now, holder := false, mirror := some v.items }

theorem fenceHalf_eq (s : State) (h : Half) : s.fenceHalf h =
    (stacksOf h).foldl State.fenceStack ((regionsOf h).foldl State.fenceWith (s.markHalf h)) := rfl

theorem fenceWith_touches (s : State) (r : Nat) :
    Touches [.flash, .items, .islands, .decks, .aabs, .dtbs, .tellers, .banks] s (s.fenceWith r) :=
  touches_ite .rfl (touches_State_stripRegion (touches_State_fenceBlock .rfl (by decide) (by decide) _) (by decide) (by decide) (by decide) (by decide)
    (by decide) (by decide) (by decide) r)

theorem fenceHalf_touches (s : State) (h : Half) :
    Touches [.hbmStacks, .flash, .items, .islands, .decks, .aabs, .dtbs, .tellers, .banks] (s.markHalf h) (s.fenceHalf h) := by
  rw [fenceHalf_eq]
  refine touches_foldl _ _ (fun t k ht => touches_State_setStack ht (by decide) _ _) ?_
  exact touches_foldl _ _ (fun t r ht => ht.trans ((fenceWith_touches t r).mono (by decide))) .rfl

theorem faultsKept_fenceWith (s : State) (r : Nat) : FaultsKept s (s.fenceWith r) := by
  unfold State.fenceWith
  split
  · exact .of_eq rfl
  · exact (faultsKept_fenceBlock s _).trans (islandsFollow_stripRegion _ r).faults

theorem faultsKept_fenceHalf (s : State) (h : Half) : FaultsKept s (s.fenceHalf h) := by
  rw [fenceHalf_eq]
  exact ((FaultsKept.of_eq (t := s.markHalf h) rfl).trans (faultsKept_foldl _ _ faultsKept_fenceWith _)).trans
    (faultsKept_foldl _ State.fenceStack (fun _ _ => .of_eq rfl) _)

theorem halfOut_fenceHalf (s : State) (h k : Half) : halfOut (s.fenceHalf h) k = true ↔ k = h ∨ halfOut s k = true := by
  have e : (s.fenceHalf h).halfFenced = s.halfFenced.set h true := fenceHalf_touches s h .halfFenced (by decide)
  rw [halfOut, e]
  cases h <;> cases k <;> simp [halfOut, Both.get, Both.set]

theorem halfOut_foldl_fenceHalf (l : List Half) (s : State) (k : Half) :
    halfOut (l.foldl State.fenceHalf s) k = true ↔ k ∈ l ∨ halfOut s k = true := by
  induction l generalizing s with
  | nil => simp
  | cons a rest ih =>
    rw [List.foldl_cons, ih, halfOut_fenceHalf, List.mem_cons, or_left_comm, or_assoc]

/-! The record of the half that continues. -/

theorem bridgeBlock_injective : Function.Injective bridgeBlock := by
  intro h k
  cases h <;> cases k <;> decide

theorem bridgeFault_other (s : State) {h k : Half} (hk : k ≠ h) : (s.bridgeFault h).island (bridgeBlock k) = s.island (bridgeBlock k) :=
  recordBy_other s _ (by simp) (bridgeBlock_injective.ne hk)

theorem bridgeFault_island (s : State) (h : Half) : ∃ r : FaultRecord,
    (s.bridgeFault h).island (bridgeBlock h) = addFault (s.island (bridgeBlock h)) r ∧ r.code = 0x4008 :=
  ⟨_, recordBy_island s (hubBlock h) (r := { code := 0x4008, source := bridgeBlock h, action := 3, detail0 := _ }) (by simp), rfl⟩

theorem foldl_bridgeFault_other {l : List Half} {s : State} {k : Half} (hk : k ∉ l) :
    (l.foldl State.bridgeFault s).island (bridgeBlock k) = s.island (bridgeBlock k) := by
  induction l generalizing s with
  | nil => rfl
  | cons a rest ih =>
    obtain ⟨h1, h2⟩ := List.ne_and_not_mem_of_not_mem_cons hk
    exact (ih h2).trans (bridgeFault_other s h1)

theorem foldl_bridgeFault_island {l : List Half} {s : State} {h : Half} (hn : l.Nodup) (hm : h ∈ l) : ∃ r : FaultRecord,
    (l.foldl State.bridgeFault s).island (bridgeBlock h) = addFault (s.island (bridgeBlock h)) r ∧ r.code = 0x4008 := by
  induction l generalizing s with
  | nil => exact absurd hm List.not_mem_nil
  | cons a rest ih =>
    obtain ⟨ha, hn⟩ := List.nodup_cons.mp hn
    by_cases e : h = a
    · subst e
      obtain ⟨r, hr, hc⟩ := bridgeFault_island s h
      exact ⟨r, (foldl_bridgeFault_other ha).trans hr, hc⟩
    · obtain ⟨r, hr, hc⟩ := ih (s := s.bridgeFault a) hn ((List.mem_cons.mp hm).resolve_left e)
      exact ⟨r, by rw [List.foldl_cons, hr, bridgeFault_other s e], hc⟩

/-! The loss, and what follows it. -/

/-- The halves in service that continue alone. -/
def stayingHalves (s : State) : List Half := halves.filter fun h => !halfOut s h && continues s h
/-- The halves in service that do not. -/
def leavingHalves (s : State) : List Half := halves.filter fun h => !halfOut s h && !(stayingHalves s).contains h

/-- A half that has been fenced is recovered, or waits for it. -/
def State.recoverLeft (s : State) (h : Half) : State :=
  if mayRecoverDevice s (.half h) then (s.recoverHalf h 0x4008).endRecovery (.half h)
  else s.queueRecovery { domain := .half h, code := 0x4008, block := bridgeBlock h, recorded := s.now, bound := boundRegion }

theorem loseBridge_eq (s : State) : loseBridge s = (leavingHalves s).foldl State.recoverLeft
    ((stayingHalves s).foldl State.bridgeFault ((leavingHalves s).foldl State.fenceHalf { s with bridgeUp := false })) := rfl

theorem mem_stayingHalves {s : State} {h : Half} : h ∈ stayingHalves s ↔ halfOut s h = false ∧ continues s h = true := by
  cases h <;> simp [stayingHalves, halves]

theorem mem_leavingHalves {s : State} {h : Half} : h ∈ leavingHalves s ↔ halfOut s h = false ∧ continues s h = false := by
  have hm : h ∈ halves := by cases h <;> decide
  rw [leavingHalves, List.mem_filter]
  simp +contextual [hm, mem_stayingHalves]

theorem recoverLeft_touches (s : State) (h : Half) : Touches ([.images, .recovering, .recoveryQueue] ++ endParts) s (s.recoverLeft h) :=
  touches_ite (((recoverHalf_touches s h _).mono (by decide)).trans ((endRecovery_touches _ _).mono (by decide)))
    (touches_State_queueRecovery .rfl (by decide) _)

theorem faultsKept_recoverLeft (s : State) (h : Half) : FaultsKept s (s.recoverLeft h) := by
  unfold State.recoverLeft
  split
  · exact ((aftermath_recoverHalf s h _).trans (aftermath_endRecovery _ _)).islands.faults
  · exact .of_eq rfl

/-- What follows the fences and records of a lost bridge leaves them as they are. -/
theorem loseBridge_after (s : State) (l : List Half) :
    Touches ([.images, .recovering, .recoveryQueue] ++ endParts) s (l.foldl State.recoverLeft s) ∧ FaultsKept s (l.foldl State.recoverLeft s) :=
  ⟨touches_foldl _ _ (fun t h ht => ht.trans (recoverLeft_touches t h)) .rfl, faultsKept_foldl _ _ faultsKept_recoverLeft s⟩

theorem foldl_bridgeFault_touches (l : List Half) (s : State) : Touches [.islands, .dumpDue] s (l.foldl State.bridgeFault s) :=
  touches_foldl _ _ (fun _ h ht => touches_State_bridgeFault ht (by decide) (by decide) h) .rfl

theorem loseBridge_bridgeUp (s : State) : (loseBridge s).bridgeUp = false := by
  have hf : ((leavingHalves s).foldl State.fenceHalf { s with bridgeUp := false }).bridgeUp = false :=
    foldl_keeps (R := fun s t => t.bridgeUp = s.bridgeUp) (fun _ => rfl) (fun h k => k.trans h) (leavingHalves s) State.fenceHalf
      (fun t h => fenceHalf_touches t h .bridgeUp (by decide)) { s with bridgeUp := false }
  rw [loseBridge_eq]
  exact ((loseBridge_after _ _).1 .bridgeUp (by decide)).trans ((foldl_bridgeFault_touches _ _ .bridgeUp (by decide)).trans hf)

/-- Of the halves in service exactly those that may not continue are fenced. -/
theorem loseBridge_halfOut (s : State) (h : Half) : halfOut (loseBridge s) h = (halfOut s h || !continues s h) := by
  have e : (loseBridge s).halfFenced = ((leavingHalves s).foldl State.fenceHalf { s with bridgeUp := false }).halfFenced := by
    rw [loseBridge_eq]
    exact ((loseBridge_after _ _).1 .halfFenced (by decide)).trans (foldl_bridgeFault_touches _ _ .halfFenced (by decide))
  have hl : halfOut (loseBridge s) h = true ↔ h ∈ leavingHalves s ∨ halfOut s h = true := by
    rw [halfOut, e]
    exact halfOut_foldl_fenceHalf (leavingHalves s) { s with bridgeUp := false } h
  rw [mem_leavingHalves] at hl
  rw [Bool.eq_iff_iff, hl]
  cases halfOut s h <;> simp

/-- A half that continues records the loss. -/
theorem loseBridge_fault {s : State} {h : Half} (hs : halfOut s h = false) (hc : continues s h = true) : ∃ r : FaultRecord,
    ((loseBridge s).island (bridgeBlock h)).faults = (addFault (s.island (bridgeBlock h)) r).faults ∧ r.code = 0x4008 := by
  have hn : (stayingHalves s).Nodup := List.Pairwise.filter _ (show halves.Nodup by decide)
  obtain ⟨r, hr, e⟩ := foldl_bridgeFault_island (s := (leavingHalves s).foldl State.fenceHalf { s with bridgeUp := false }) hn
    (mem_stayingHalves.mpr ⟨hs, hc⟩)
  have hf : FaultsKept { s with bridgeUp := false } ((leavingHalves s).foldl State.fenceHalf { s with bridgeUp := false }) :=
    faultsKept_foldl _ _ faultsKept_fenceHalf _
  refine ⟨r, ?_, e⟩
  rw [loseBridge_eq, (loseBridge_after _ _).2, hr]
  exact addFault_faults_congr (hf _) r

/-! ### Queued recoveries (R382) -/

theorem queuedRecoveryStart_idle {s : State} (h : s.recovering ≠ none ∨ s.recoveryQueue = []) (time : Nat) :
    exec (.queuedRecoveryStart time) s = .next (s.at time) := by
  change execQueuedRecoveryStart time s = _
  unfold execQueuedRecoveryStart
  dsimp only
  split
  · next r rest hr hq => exact (h.elim (absurd hr) fun e => by simp [e] at hq)
  · rfl

/-- The first queued recovery begins. -/
def State.beginRecovery (s : State) (r : Recovery) (rest : List Recovery) : State := { s with recovering := some r, recoveryQueue := rest }

theorem beginRecovery_touches (s : State) (r : Recovery) (rest : List Recovery) : Touches [.recovering, .recoveryQueue] s (s.beginRecovery r rest) := by
  simp [State.beginRecovery]

theorem queuedRecoveryStart_next {s : State} {r : Recovery} {rest : List Recovery} (hr : s.recovering = none) (hq : s.recoveryQueue = r :: rest)
    (time : Nat) : exec (.queuedRecoveryStart time) s = .next (if (deviceLevel r && !charterHeld s) = true then s.at time
      else ((s.at time).beginRecovery r rest).runRecovery r) := by
  change execQueuedRecoveryStart time s = _
  unfold execQueuedRecoveryStart
  dsimp only
  rw [show (s.at time).recovering = none from hr, show (s.at time).recoveryQueue = r :: rest from hq]
  rfl

/-- A recovery at the device level that is of a region, a stack or a half is over at once. -/
def Completes (r : Recovery) : Prop := (∃ k, r.domain = .region k ∧ r.code = 0x3001) ∨ r.code = 0x4007 ∨ ∃ h, r.domain = .half h ∧ r.code = 0x4008

theorem runRecovery_completes {r : Recovery} (h : Completes r) (s : State) : ∃ t, Touches (.images :: endParts) s t ∧
    s.runRecovery r = t.endRecovery r.domain := by
  obtain ⟨d, c, b, n, m, w⟩ := r
  rcases h with ⟨k, hd, hc⟩ | hc | ⟨k, hd, hc⟩
  · subst hd hc
    exact ⟨_, recoverRegion_touches s k w, rfl⟩
  · subst hc
    exact ⟨_, recoverStacks_touches s [stackOf b] 0x4007, by cases d <;> rfl⟩
  · subst hd hc
    exact ⟨_, recoverHalf_touches s k 0x4008, rfl⟩

theorem runRecovery_block {r : Recovery} (h : deviceLevel r = false) (s : State) : s.runRecovery r = s := by
  simp only [deviceLevel, Bool.or_eq_false_iff, decide_eq_false_iff_not] at h
  obtain ⟨⟨h1, h2⟩, h3⟩ := h
  unfold State.runRecovery
  split
  case h_1 hc _ => exact absurd hc h1
  case h_2 hc => exact absurd hc h2
  case h_3 hc _ => exact absurd hc h3
  case h_4 => rfl

theorem runRecovery_ends {s : State} {r : Recovery} (hs : s.recovering = some r) (h : Completes r) :
    (s.runRecovery r).recovering = none ∧ (s.runRecovery r).recoveryQueue = s.recoveryQueue := by
  obtain ⟨t, ht, e⟩ := runRecovery_completes h s
  rw [e]
  refine ⟨endRecovery_recovering ?_, (endRecovery_touches _ _ .recoveryQueue (by decide)).trans (ht .recoveryQueue (by decide))⟩
  rw [mayRecover_congr (ht .recovering (by decide))]
  simp [mayRecover, hs]

end Sys2Proof.Machine

namespace Sys2Proof

open Sys2Proof.Machine

/-- Settles O50: the fences of a region, a stack and a half, and the recoveries that queue behind them, one command each. -/
theorem regionsStacksAndHalvesAreFenced : Obligations.RegionsStacksAndHalvesAreFenced := by
  refine ⟨?_, ?_, ?_, ?_⟩
  · intro s region failed words time u b d hv hl fences
    have hexec := regionFence_next (s := s) hv hl words time
    refine ⟨fun hf => hexec.trans (congrArg _ (if_neg (ne_true_of_eq_false hf))), fun hf => ?_⟩
    have ha := aftermath_regionFence region.val failed.toNat words u
    obtain ⟨hfenced, r, hr⟩ := fencedRegion_island region.val failed.toNat words u
    exact ⟨_, hexec.trans (congrArg _ (if_pos hf)), (ha.islands.fenced b).trans hfenced, ⟨r, (ha.islands.faults b).trans hr.1, hr.2⟩,
      fun k hk => itemsOn_regionFence _ _ _ u hk,
      fun hm hc => ⟨regionFence_recovers _ _ _ u hm hc, accountsFollow_regionFence _ _ _ u⟩,
      fun hw => regionFence_queues _ _ _ u hw⟩
  · intro s stack time u b at_once
    have hexec := hbmFenced_next stack time s
    refine ⟨fun hf => hexec.trans (congrArg _ (if_neg (ne_true_of_eq_false hf))), fun hf => ?_⟩
    obtain ⟨ha, hst⟩ := aftermath_hbmFence stack.val u
    obtain ⟨h1, h2, h3⟩ := lostStack_stack stack.val u
    obtain ⟨hfenced, r, hr⟩ := lostStack_island stack.val u
    have hs : (hbmFence stack.val u).stack = (lostStack stack.val u).stack := by
      funext k
      rw [State.stack, hst]
      rfl
    refine ⟨_, hexec.trans (congrArg _ (if_pos hf)), ?_, ?_, ?_, (ha.islands.fenced b).trans hfenced, ⟨r, (ha.islands.faults b).trans hr.1, hr.2⟩,
      fun ho => ⟨fun id hid x hx hc => hbmFence_end_clear (s := u) ho hid hx hc, fun hl n v hn => ?_⟩, fun ho => hbmFence_queues (s := u) ho⟩
    · rw [hs]; exact h1
    · rw [hs]; exact h2
    · exact fun j hj => (congrFun hs j).trans (h3 j hj)
    · obtain ⟨w, hw, e, hp, -⟩ := hbmFence_lostTo (s := u) ho hl hn
      exact ⟨w, hw, e, hp⟩
  · intro s time u
    have hexec := exec_bridgeLost time s
    refine ⟨fun hf => hexec.trans (congrArg _ (if_neg ?_)), fun hp hb => ?_⟩
    · rcases hf with hf | hf <;> simp [hf]
    · exact ⟨_, hexec.trans (congrArg _ (if_pos (by simp [hp, hb]))), loseBridge_bridgeUp u,
        fun h => ⟨loseBridge_halfOut u h, fun ho hc => loseBridge_fault ho hc⟩⟩
  · intro s time u
    refine ⟨fun h => queuedRecoveryStart_idle h time, fun r rest hr hq => ?_⟩
    have hexec := queuedRecoveryStart_next hr hq time
    refine ⟨fun hd hc => ?_, fun hc hk => ?_, fun hd => ?_⟩
    · exact hexec.trans (congrArg _ (if_pos (by simp [hd, hc])))
    · exact ⟨_, hexec.trans (congrArg _ (if_neg (by simp [hc]))), runRecovery_ends (s := u.beginRecovery r rest) rfl hk⟩
    · rw [if_neg (by simp [hd]), runRecovery_block hd] at hexec
      exact ⟨_, hexec, beginRecovery_touches u r rest, rfl, rfl⟩

end Sys2Proof

/-! ### What an item's work leaves in the journal (R77, R113, R268) -/

namespace Sys2Proof.Machine

open Sys2Proof

theorem live_of_runs {s : State} {id : Nat} {x : Item} (h : ItemRuns s id x) : x.live = true := by simp [Item.live, h.2]

theorem atStage_setItem (s : State) (id : Nat) (x : Item) : AtStage id x.stage (s.setItem id x) := ⟨_, s.setItem_same id x, rfl⟩

theorem otherItems_setItem {s u : State} (h : u.items = s.items) (id : Nat) (x : Item) : OtherItems id s (u.setItem id x) := fun _ hi =>
  (u.setItem_other x hi).trans (by rw [h])

theorem atStage_finishItem (s : State) (id : Nat) (x : Item) : AtStage id 3 (s.finishItem id x) := atStage_setItem s id { x with stage := 3 }

theorem otherItems_finishItem {s u : State} (h : u.items = s.items) (id : Nat) (x : Item) : OtherItems id s (u.finishItem id x) :=
  otherItems_setItem h id _

theorem otherTensors_setTensor {s u : State} {h : Nat} (hu : OtherTensors h s u) (v : Tensor) : OtherTensors h s (u.setTensor h v) := fun _ hk =>
  (u.setTensor_other v hk).trans (hu _ hk)

theorem touches_counted {ps : List Part} (h : Part.free ∈ ps) (s : State) (n : Nat) : Touches ps s { s with free := s.free + n } :=
  (by simp : Touches [.free] s { s with free := s.free + n }).mono (by simpa using h)

theorem endItem_endedAs {s : State} {id : Nat} {x : Item} (hx : find s.items id = some x) (hl : x.live = true) (status fault : Nat) :
    EndedAs id status (s.endItem id status fault) := by
  obtain ⟨y, hy, hstage, hstatus, -⟩ := endItem_ends hx hl status fault
  exact ⟨y, hy, hstage, hstatus⟩

/-- A critical value that fails its check ends the item with COMPLEMENT_MISMATCH (R268). -/
theorem mismatch_ends {s : State} {id : Nat} {x : Item} (hr : ItemRuns s id x) :
    ∃ y, find (s.mismatch id x).items id = some y ∧ y.stage = 6 ∧ y.status = stFinal ∧ y.fault = 0x2201 := by
  have hrecorded : Touches [.free, .islands, .dumpDue] s (({ s with free := s.free + 1 } : State).complementFault (someMover s) 3 x.account id 7) := by simp
  have hx := (congrArg (find · id) (hrecorded .items (by decide))).trans hr.1
  obtain ⟨y, hy, hstage, hstatus, hfault, -⟩ := endItem_ends hx (live_of_runs hr) stFinal 0x2201
  exact ⟨y, hy, hstage, hstatus, hfault⟩

/-! The outcome of a conversion (R113). -/

theorem convertOutcome_fits {s : State} {id : Nat} {x : Item} (hr : ItemRuns s id x) {c : Conversion} (h : c.cap ≤ 15) (l : List Val) (sExp : Int) :
    (convertOutcome (x.saw l) c sExp).stage ≠ 6 := by
  simp [convertOutcome, h, Item.saw, Item.flagIf, hr.2]

theorem convertOutcome_overflows {c : Conversion} (h : 15 < c.cap) (x : Item) (sExp : Int) :
    (convertOutcome x c sExp).stage = 6 ∧ (convertOutcome x c sExp).status = if sExp = 96 then stFinal else stRetryable := by
  simp [convertOutcome, Nat.not_le.mpr h]

theorem afterConversion_goes {s : State} {id : Nat} {y : Item} (h : y.stage ≠ 6) (go : State) : s.afterConversion id y go = go := if_neg h

theorem afterConversion_ends {s : State} {id : Nat} {y : Item} (h : y.stage = 6) (go : State) : EndedAs id y.status (s.afterConversion id y go) := by
  rw [State.afterConversion, if_pos h]
  exact endItem_endedAs (s.setItem_same id { y with stage := 2, status := 0 }) rfl y.status 0

end Sys2Proof.Machine

/-! ### COPY (R106, R107, R273) -/

namespace Sys2Proof.Machine

open Sys2Proof

/-- The tensor scale that a COPY writes at. -/
def copyTarget (a : Tensor) : Int := if a.fmt.scaled then a.scaleNow else 0

/-- The conversion that a COPY makes of its source's contents. -/
def copyConversion (s : State) (x : Item) (a b : Tensor) : Conversion :=
  convert a.fmt a.rows a.cols (copyTarget a) (paramsOf s x.account).orvane (Config.undefinedCode s.free) (s.sourceVal b)

section
variable {s : State} {id : Nat} {x : Item} {a b : Tensor}

theorem copy_next (hr : ItemReads s id x) (hk : isOp famMove 0 x.slip = true) : exec (.copy id) s = .next (copyEffect s id x) :=
  running_reads hr hk _

section
variable (ha : find s.tensors (slipA x.slip) = some a) (hb : find s.tensors (slipB x.slip) = some b)
include ha hb

theorem copyEffect_poisoned (hp : b.poison ≠ 0) : copyEffect s id x = s.endItem id stFinal b.poison := by
  simp [copyEffect, ha, hb, hp]

theorem copyEffect_sameFormat (hp : b.poison = 0) (hf : a.fmt = b.fmt) (hc : b.cls ≠ 1) :
    copyEffect s id x = (s.setTensor (slipA x.slip) (a.copyFrom b)).finishItem id (x.saw (nonFinite b)) := by
  simp [copyEffect, ha, hb, hp, hf, hc]

theorem copyEffect_converts (hp : b.poison = 0) (h : a.fmt ≠ b.fmt ∨ b.cls = 1) : copyEffect s id x = copyConverted s id x a b := by
  have hn : ¬(a.fmt = b.fmt ∧ b.cls ≠ 1) := fun ⟨hf, hc⟩ => h.elim (· hf) hc
  simp only [copyEffect, ha, hb, hp, ne_eq, not_true_eq_false, if_false, if_neg hn]

end

theorem copyConverted_fits (hr : ItemRuns s id x) (h : (copyConversion s x a b).cap ≤ 15) : copyConverted s id x a b =
    ((({ s with free := s.free + 1 } : State).setTensor (slipA x.slip) (a.learn (commitsOf s x.account) (copyConversion s x a b))).setTensor (slipA x.slip)
      ((a.learn (commitsOf s x.account) (copyConversion s x a b)).replace (copyTarget a) (copyConversion s x a b))).finishItem id
      (convertOutcome (x.saw (nonFinite b)) (copyConversion s x a b) (copyTarget a)) :=
  afterConversion_goes (convertOutcome_fits hr h _ _) _

theorem copyConverted_overflows (h : 15 < (copyConversion s x a b).cap) :
    EndedAs id (if copyTarget a = 96 then stFinal else stRetryable) (copyConverted s id x a b) := by
  obtain ⟨hstage, hstatus⟩ := convertOutcome_overflows h (x.saw (nonFinite b)) (copyTarget a)
  exact hstatus ▸ afterConversion_ends hstage _

end

end Sys2Proof.Machine

/-! ### LOAD (R101 to R103, R273) -/

namespace Sys2Proof.Machine

open Sys2Proof

/-- The entry that an element of a list has in its table: 0 has none. -/
def tableEntry (p : Nat × Nat) : Option (Nat × Nat) := if p.1 = 0 then none else some (p.2, p.1)

theorem find_zipIdx_below (l : List Nat) {i k : Nat} (h : i < k) : find ((l.zipIdx k).filterMap tableEntry) i = none := by
  induction l generalizing k with
  | nil => rfl
  | cons a rest ih =>
    have hrest := ih (Nat.lt_succ_of_lt h)
    by_cases ha : a = 0
    · simpa [tableEntry, ha] using hrest
    · simpa [tableEntry, ha, find, Nat.ne_of_gt h] using hrest

theorem lookup_zipIdx (l : List Nat) (k i : Nat) : lookup 0 ((l.zipIdx k).filterMap tableEntry) (k + i) = l.getD i 0 := by
  induction l generalizing k i with
  | nil => rfl
  | cons a rest ih =>
    cases i with
    | zero =>
      by_cases ha : a = 0
      · simp [tableEntry, ha, lookup, find_zipIdx_below rest (Nat.lt_succ_self k)]
      · simp [tableEntry, ha, lookup, find]
    | succ i =>
      have hrest := ih (k + 1) i
      rw [Nat.add_assoc, Nat.add_comm 1 i] at hrest
      by_cases ha : a = 0
      · simpa [tableEntry, ha, lookup] using hrest
      · simpa [tableEntry, ha, lookup, find] using hrest

/-- A list's table holds its elements. -/
theorem lookup_tableOf (l : List Nat) (i : Nat) : lookup 0 (tableOf l) i = l.getD i 0 := by
  have h := lookup_zipIdx l 0 i
  rwa [Nat.zero_add] at h

/-- Where no contents are undefined, an element that is not listed is 0. -/
theorem code_of_defined {t : Tensor} (h : t.fill = none) (i : Nat) : t.code i = lookup 0 t.codes i := by
  unfold Tensor.code lookup
  cases find t.codes i <;> simp [h]

theorem observe_kept (t : Tensor) (commits : Nat) (m : Dy) :
    t.observe commits m = { t with observed := (t.observe commits m).observed, flips := (t.observe commits m).flips } := by
  unfold Tensor.observe
  split <;> rfl

theorem loadedTensor_code (m : Memory) (addr : Nat) {a : Tensor} (k : Int) {r c : Nat} (hr : r < a.rows) (hc : c < a.cols) :
    (loadedTensor m addr a k).code (r * a.cols + c) = imageCode m addr a.fmt a.cols r c := by
  have hlt : r * a.cols + c < a.rows * a.cols := by
    calc r * a.cols + c < r * a.cols + a.cols := Nat.add_lt_add_left hc _
      _ = (r + 1) * a.cols := (Nat.succ_mul r a.cols).symm
      _ ≤ a.rows * a.cols := Nat.mul_le_mul_right _ hr
  have hrow : (r * a.cols + c) / a.cols = r := by rw [Nat.mul_comm, Nat.mul_add_div (by omega), Nat.div_eq_of_lt hc, Nat.add_zero]
  have hcol : (r * a.cols + c) % a.cols = c := by rw [Nat.mul_comm, Nat.mul_add_mod, Nat.mod_eq_of_lt hc]
  rw [code_of_defined rfl]
  show lookup 0 (tableOf _) _ = _
  rw [lookup_tableOf]
  simp [List.getD, hlt, hrow, hcol]

section
variable {s : State} {id : Nat} {x : Item} {a : Tensor} (ha : find s.tensors (slipA x.slip) = some a)

theorem moveLoad_next (hr : ItemRuns s id x) (hk : isOp famMove 1 x.slip = true) (cw : List CWrite) :
    exec (.moveLoad id cw) s = .next (loadTensorEffect (s.companion cw) id x) :=
  working_runs (s := s.companion cw) hr hk _

/-- The tensor that a LOAD leaves: the image's contents, their largest magnitude observed (R103). -/
def observedLoad (s : State) (x : Item) (a : Tensor) (k : Int) : Tensor :=
  (loadedTensor s.cmem (slipParam0 x.slip) a k).observe (commitsOf s x.account) (amaxOf (loadedTensor s.cmem (slipParam0 x.slip) a k).vals)

theorem observedLoad_contents (s : State) (x : Item) (a : Tensor) (k : Int) :
    (observedLoad s x a k).sExp = k ∧ (observedLoad s x a k).rows = a.rows ∧ (observedLoad s x a k).cols = a.cols ∧
    ∀ r c, r < a.rows → c < a.cols → (observedLoad s x a k).code (r * a.cols + c) = imageCode s.cmem (slipParam0 x.slip) a.fmt a.cols r c := by
  rw [observedLoad, observe_kept]
  exact ⟨rfl, rfl, rfl, fun r c hr hc => loadedTensor_code _ _ k hr hc⟩

include ha

theorem loadTensorEffect_sound {k : Int} (h : imageScale s.cmem (slipParam0 x.slip) a = some (some k)) : ∃ v : List Val, loadTensorEffect s id x =
    (s.setTensor (slipA x.slip) (observedLoad s x a k)).finishItem id (x.saw v) := by
  simp only [loadTensorEffect, ha, h]
  exact ⟨_, rfl⟩

theorem loadTensorEffect_noScale (h : imageScale s.cmem (slipParam0 x.slip) a = some none) : loadTensorEffect s id x = s.endItem id stFinal 0 := by
  simp only [loadTensorEffect, ha, h]

theorem loadTensorEffect_unsound (h : imageScale s.cmem (slipParam0 x.slip) a = none) : loadTensorEffect s id x = s.mismatch id x := by
  simp only [loadTensorEffect, ha, h]

end

end Sys2Proof.Machine

/-! ### STORE (R94, R101, R197, R273) -/

namespace Sys2Proof.Machine

open Sys2Proof

/-- No tensor scale holds the struck values of a weight in the image's format (R197). -/
def TooLarge (s : State) (b : Tensor) (f : Fmt) : Prop := b.cls = 1 ∧ f.scaled = true ∧ Dy.lt ⟨f.maxFmt, 96⟩ (weightMax s b) = true

/-- The conversion that a STORE makes of its source's contents. -/
def storeConversion (s : State) (x : Item) (b : Tensor) (f : Fmt) : Conversion :=
  convert f b.rows b.cols (storeScale s b f) (if b.cls = 1 then false else (paramsOf s x.account).orvane) (Config.undefinedCode s.free) (s.sourceVal b)

section
variable {s : State} {id : Nat} {x : Item} {b : Tensor} {f : Fmt}

theorem store_next (hr : ItemReads s id x) (hk : isOp famMove 2 x.slip = true) : exec (.store id) s = .next (storeEffect s id x) :=
  running_reads hr hk _

section
variable (hb : find s.tensors (slipB x.slip) = some b)
include hb

theorem storeEffect_poisoned (hp : b.poison ≠ 0) : storeEffect s id x = s.endItem id stFinal b.poison := by
  simp [storeEffect, hb, hp]

theorem storeEffect_sameFormat (hp : b.poison = 0) (hf : storeFmt x.slip b = b.fmt) (hc : b.cls ≠ 1) : storeEffect s id x =
    (s.poke (slipParam0 x.slip) (imageOf b.fmt b.rows b.cols b.code b.ebyte b.sExp)).finishItem id (x.saw (nonFinite b)) := by
  simp [storeEffect, hb, hp, hf, hc]

theorem storeEffect_converts (hp : b.poison = 0) (h : storeFmt x.slip b ≠ b.fmt ∨ b.cls = 1) :
    storeEffect s id x = storeConverted s id x b (storeFmt x.slip b) := by
  have hn : ¬(storeFmt x.slip b = b.fmt ∧ b.cls ≠ 1) := fun ⟨hf, hc⟩ => h.elim (· hf) hc
  simp only [storeEffect, hb, hp, ne_eq, not_true_eq_false, if_false, if_neg hn]

end

theorem storeConverted_tooLarge (h : TooLarge s b f) : storeConverted s id x b f = s.endItem id stFinal 0 := if_pos h

/-- The image of a STORE that converts. -/
def convertedImage (s : State) (x : Item) (b : Tensor) (f : Fmt) : List Byte :=
  imageOf f b.rows b.cols (fun i => (storeConversion s x b f).codes.getD i 0) (fun g => (storeConversion s x b f).ebytes.getD g 0) (storeScale s b f)

theorem storeConverted_fits (hr : ItemRuns s id x) (hn : ¬TooLarge s b f) (h : (storeConversion s x b f).cap ≤ 15) : storeConverted s id x b f =
    (({ s with free := s.free + 1 } : State).poke (slipParam0 x.slip) (convertedImage s x b f)).finishItem id
      (convertOutcome (x.saw (nonFinite b)) (storeConversion s x b f) (storeScale s b f)) :=
  (if_neg hn).trans (afterConversion_goes (convertOutcome_fits hr h _ _) _)

theorem storeConverted_overflows (hn : ¬TooLarge s b f) (h : 15 < (storeConversion s x b f).cap) :
    EndedAs id (if storeScale s b f = 96 then stFinal else stRetryable) (storeConverted s id x b f) := by
  obtain ⟨hstage, hstatus⟩ := convertOutcome_overflows h (x.saw (nonFinite b)) (storeScale s b f)
  have he : storeConverted s id x b f = State.afterConversion _ id _ _ := if_neg hn
  exact he ▸ hstatus ▸ afterConversion_ends hstage _

end

end Sys2Proof.Machine

namespace Sys2Proof

open Sys2Proof.Machine

/-- Settles O24: each move's effect by the state of its source, its format, its image's scale word and its conversion's cap. -/
theorem movesTransferContents : Obligations.MovesTransferContents := by
  refine ⟨?_, ?_, ?_⟩
  · intro s id x a b hr w hk ha hb sExp c
    have hrun := hr.1
    have hexec := copy_next hr hk
    refine ⟨fun hp => ?_, fun hp hf hc => ?_, fun hp h hcap => ?_, fun hp h hcap => ?_⟩
    · rw [copyEffect_poisoned ha hb hp] at hexec
      exact ⟨_, hexec, endItem_endedAs hrun.1 (live_of_runs hrun) _ _⟩
    · rw [copyEffect_sameFormat ha hb hp hf hc] at hexec
      exact ⟨_, hexec, by simp, otherItems_finishItem rfl _ _, otherTensors_setTensor (beside_rfl _ _ _) _, atStage_finishItem _ _ _,
        State.setTensor_same _ _ _⟩
    · rw [copyEffect_converts ha hb hp h, copyConverted_fits hrun hcap] at hexec
      have hcounted : Touches [.items, .tensors, .free] s { s with free := s.free + 1 } := touches_counted (by decide) s 1
      exact ⟨_, hexec,
        touches_State_finishItem (touches_State_setTensor (touches_State_setTensor hcounted (by decide) _ _) (by decide) _ _) (by decide) _ _,
        otherItems_finishItem rfl _ _, otherTensors_setTensor (otherTensors_setTensor (fun _ _ => rfl) _) _, atStage_finishItem _ _ _,
        State.setTensor_same _ _ _⟩
    · rw [copyEffect_converts ha hb hp h] at hexec
      exact ⟨_, hexec, copyConverted_overflows hcap⟩
  · intro s id x a cw hr w hk ha m addr
    have hexec := moveLoad_next hr hk cw
    refine ⟨fun k hs => ?_, fun hs => ?_, fun hs => ?_⟩
    · obtain ⟨v, he⟩ := loadTensorEffect_sound (s := s.companion cw) (id := id) ha hs
      rw [he] at hexec
      exact ⟨_, hexec, touches_State_finishItem (touches_State_setTensor .rfl (by decide) _ _) (by decide) _ _, otherItems_finishItem rfl _ _,
        otherTensors_setTensor (fun _ _ => rfl) _, atStage_finishItem _ _ _, _, State.setTensor_same _ _ _, observedLoad_contents _ _ _ _⟩
    · rw [loadTensorEffect_noScale (s := s.companion cw) ha hs] at hexec
      exact ⟨_, hexec, endItem_endedAs (s := s.companion cw) hr.1 (live_of_runs hr) _ _⟩
    · rw [loadTensorEffect_unsound (s := s.companion cw) ha hs] at hexec
      exact ⟨_, hexec, mismatch_ends hr⟩
  · intro s id x b hr w hk hb f sExp tooLarge c
    have hrun := hr.1
    have hexec := store_next hr hk
    refine ⟨fun hp => ?_, fun hp hf hc => ?_, fun hp h hl => ?_, fun hp h hl hcap => ?_, fun hp h hl hcap => ?_⟩
    · rw [storeEffect_poisoned hb hp] at hexec
      exact ⟨_, hexec, endItem_endedAs hrun.1 (live_of_runs hrun) _ _⟩
    · rw [storeEffect_sameFormat hb hp hf hc] at hexec
      exact ⟨_, hexec, by simp, otherItems_finishItem rfl _ _, atStage_finishItem _ _ _, stored_poke _ _ _⟩
    · rw [storeEffect_converts hb hp h, storeConverted_tooLarge hl] at hexec
      exact ⟨_, hexec, endItem_endedAs hrun.1 (live_of_runs hrun) _ _⟩
    · rw [storeEffect_converts hb hp h, storeConverted_fits hrun hl hcap] at hexec
      exact ⟨_, hexec, touches_State_finishItem (touches_State_poke (touches_counted (by decide) s 1) (by decide) (by decide) _ _) (by decide) _ _,
        otherItems_finishItem rfl _ _, atStage_finishItem _ _ _, stored_poke _ _ _⟩
    · rw [storeEffect_converts hb hp h] at hexec
      exact ⟨_, hexec, storeConverted_overflows hl hcap⟩

end Sys2Proof

/-! ### LOAD_IMAGE (R254 to R256) -/

namespace Sys2Proof.Machine

open Sys2Proof

/-- The end of an item leaves the images. -/
theorem endItem_images (s : State) (id status fault : Nat) : (s.endItem id status fault).images = s.images :=
  (touches_State_endItem (ps := endParts) .rfl (by decide) (by decide) (by decide) (by decide) (by decide) (by decide) (by decide) (by decide) (by decide)
    (by decide) (by decide) (by decide) (by decide) (by decide) (by decide) (by decide) (by decide) id status fault : Touches _ s _) .images (by decide)

/-- The bytes that a LOAD_IMAGE reads. -/
def imageBytesRead (s : State) (x : Item) : List Byte := readBytes s.cmem (slipParam0 x.slip) (slipParam1 x.slip)

/-- They pass the checks of Table 8.3 and R256. -/
def imageReadOk (s : State) (x : Item) : Bool := imageOk (ofLE ((imageBytesRead s x).take 64)) (slipParam1 x.slip) (imageBytesRead s x)

section
variable {s : State} {id : Nat} {x : Item}

theorem loadImage_next (hr : ItemRuns s id x) (hk : isOp famKernel 1 x.slip = true) (cw : List CWrite) :
    exec (.loadImage id cw) s = .next (loadImageEffect (s.companion cw) id x) :=
  working_runs (s := s.companion cw) hr hk _

theorem loadImageEffect_fails (h : find s.images (slipD x.slip) ≠ none ∨ imageReadOk s x = false) :
    loadImageEffect s id x = s.endItem id stFinal 0 :=
  if_pos (by simpa [Option.isSome_iff_ne_none, imageReadOk, imageBytesRead] using h)

section
variable (hn : find s.images (slipD x.slip) = none) (ho : imageReadOk s x = true)
include hn ho

theorem loadImageEffect_passes : loadImageEffect s id x =
    if unmetCharge s ≠ 0 then s.endItem id stRetryable (unmetCharge s)
    else (({ s with free := s.free + 2 } : State).setImage (slipD x.slip)
      (newImage s x.account (ofLE ((imageBytesRead s x).take 64)) (imageBytesRead s x))).finishItem id x :=
  if_neg (by simpa [hn, imageReadOk, imageBytesRead] using ho)

theorem loadImageEffect_uncharged (hu : unmetCharge s ≠ 0) : loadImageEffect s id x = s.endItem id stRetryable (unmetCharge s) :=
  (loadImageEffect_passes hn ho).trans (if_pos hu)

theorem loadImageEffect_loads (hu : unmetCharge s = 0) : loadImageEffect s id x =
    (({ s with free := s.free + 2 } : State).setImage (slipD x.slip)
      (newImage s x.account (ofLE ((imageBytesRead s x).take 64)) (imageBytesRead s x))).finishItem id x :=
  (loadImageEffect_passes hn ho).trans (if_neg (not_not_intro hu))

end

end

end Sys2Proof.Machine

/-! ### RUN (R241 to R249, R254, R257) -/

namespace Sys2Proof.Machine

open Sys2Proof

/-- The tensors that a RUN's image reads. -/
def runInputs (w : Nat) (g : Image) : List Nat := (List.range 3).filterMap fun k => if bit g.inputs k then some (slipHandle w k) else none

/-- A RUN once what it reads has been seen (R119). -/
def runSaw (s : State) (x : Item) (g : Image) : Item :=
  x.saw (runReads s x.slip (runDigest s x) g ++ (if Config.kernelSeen (runDigest s x) 0 then [Val.nan] else []) ++
    (if Config.kernelSeen (runDigest s x) 1 then [Val.inf false] else []))

/-- The outputs of a RUN. -/
def runOutputs (s : State) (x : Item) (g : Image) : State × Item :=
  s.kernelOutputs (runSaw s x g) (outputDigest (runDigest s x) (runUnits x.slip) g) g

theorem kernelOutputs_touches (s : State) (x : Item) (digest : Nat) (g : Image) : Touches [.free, .tensors] s (s.kernelOutputs x digest g).1 :=
  touches_State_kernelOutputs .rfl (by decide) (by decide) x digest g

section
variable {s : State} {id : Nat} {x : Item} {g : Image}

theorem kernelRun_next (hr : ItemReads s id x) (hk : isRun x.slip = true) : exec (.kernelRun id) s = .next (runEffect s id x) :=
  running_reads hr hk _

section
variable (hg : find s.images (slipD x.slip) = some g)
include hg

theorem runEffect_waits (hw : runWaits s id x.slip g = true) : runEffect s id x = s := by
  simp only [runEffect, hg, hw, if_true]

theorem runEffect_fails (hw : runWaits s id x.slip g = false)
    (h : poisonOf s (slipD x.slip :: runInputs x.slip g) ≠ 0 ∨ runOutOfShape (runDigest s x) (runUnits x.slip) = true) :
    ∃ fault, runEffect s id x = s.endItem id stFinal fault := by
  simp only [runEffect, hg, hw, Bool.false_eq_true, if_false]
  by_cases hp : poisonOf s (slipD x.slip :: runInputs x.slip g) = 0
  · exact ⟨0, (if_neg (not_not_intro hp)).trans (if_pos (h.resolve_left (not_not_intro hp)))⟩
  · exact ⟨_, if_pos hp⟩

section
variable (hw : runWaits s id x.slip g = false) (hp : poisonOf s (slipD x.slip :: runInputs x.slip g) = 0)
  (hs : runOutOfShape (runDigest s x) (runUnits x.slip) = false)
include hw hp hs

theorem runEffect_writes : runEffect s id x =
    if isUpdate s x.slip then updateEffect s id (runSaw s x g) (runDigest s x) g else plainRunEffect s id (runSaw s x g) (runDigest s x) g := by
  simp only [runEffect, hg, hw, Bool.false_eq_true, if_false]
  exact (if_neg (not_not_intro hp)).trans (if_neg (by simp [hs]))

/-- An update and any other RUN alike follow R113 at their outputs' conversions. -/
theorem runEffect_update (hu : isUpdate s x.slip = true) : runEffect s id x = s.afterConversion id (runOutputs s x g).2
    (s.finishItem id { (runOutputs s x g).2 with work := { (runOutputs s x g).2.work with staged := true, wCodes := [runDigest s x] } }) :=
  (runEffect_writes hg hw hp hs).trans (if_pos hu)

theorem runEffect_plain (hu : isUpdate s x.slip = false) : runEffect s id x =
    (runOutputs s x g).1.afterConversion id (runOutputs s x g).2 ((runOutputs s x g).1.finishItem id (runOutputs s x g).2) :=
  (runEffect_writes hg hw hp hs).trans (if_neg (by simp [hu]))

theorem runEffect_ends (h : (runOutputs s x g).2.stage = 6) : EndedAs id (runOutputs s x g).2.status (runEffect s id x) := by
  cases hu : isUpdate s x.slip with
  | true => exact runEffect_update hg hw hp hs hu ▸ afterConversion_ends h _
  | false => exact runEffect_plain hg hw hp hs hu ▸ afterConversion_ends h _

end

end

end

end Sys2Proof.Machine

namespace Sys2Proof

open Sys2Proof.Machine

/-- Settles O26: LOAD_IMAGE by its checks and its charge, RUN by its operands and by how its outputs' conversions end. -/
theorem kernelItemsRun : Obligations.KernelItemsRun := by
  refine ⟨?_, ?_⟩
  · intro s id x cw hr hk w m bytes ok
    have hexec := loadImage_next hr hk cw
    have hends (status fault : Nat) : EndedAs id status ((s.companion cw).endItem id status fault) ∧
        ((s.companion cw).endItem id status fault).images = s.images :=
      ⟨endItem_endedAs (s := s.companion cw) hr.1 (live_of_runs hr) _ _, endItem_images _ _ _ _⟩
    refine ⟨fun hn ho hu => ?_, fun hn ho hu => ?_, fun h => ?_⟩
    · rw [loadImageEffect_loads (s := s.companion cw) hn ho hu] at hexec
      have hcounted := touches_counted (ps := [.items, .images, .free]) (by decide) (s.companion cw) 2
      exact ⟨_, hexec, touches_State_finishItem (touches_State_setImage hcounted (by decide) _ _) (by decide) _ _, otherItems_finishItem rfl _ _,
        atStage_finishItem _ _ _, fun _ hi => State.setImage_other _ _ hi, _, State.setImage_same _ _ _, rfl, length_readBytes _ _ _⟩
    · rw [loadImageEffect_uncharged (s := s.companion cw) hn ho hu] at hexec
      exact ⟨_, hexec, hends _ _⟩
    · rw [loadImageEffect_fails (s := s.companion cw) h] at hexec
      exact ⟨_, hexec, hends _ _⟩
  · intro s id x g hr hk hg w inputs y0 q outside
    have hexec := kernelRun_next hr hk
    have ht : Touches [.free, .tensors] s q.1 := kernelOutputs_touches _ _ _ _
    refine ⟨fun hw => ?_, fun hw h => ?_, fun hw hp hs => ?_⟩
    · rw [hexec, runEffect_waits hg hw]
    · obtain ⟨fault, he⟩ := runEffect_fails (id := id) hg hw h
      exact ⟨_, hexec.trans (congrArg _ he), endItem_endedAs hr.1.1 (live_of_runs hr.1) _ _⟩
    · refine ⟨fun h6 => ⟨_, hexec, runEffect_ends hg hw hp hs h6⟩, fun h6 hu => ?_, fun h6 hu => ?_⟩
      · have he := (runEffect_update (id := id) hg hw hp hs hu).trans (afterConversion_goes h6 _)
        exact ⟨_, hexec.trans (congrArg _ he), touches_State_finishItem .rfl (by decide) _ _, otherItems_finishItem rfl _ _, _, State.setItem_same _ _ _,
          rfl, rfl⟩
      · have he := (runEffect_plain (id := id) hg hw hp hs hu).trans (afterConversion_goes h6 _)
        exact ⟨_, hexec.trans (congrArg _ he), touches_State_finishItem (ht.mono (by decide)) (by decide) _ _,
          otherItems_finishItem (ht .items (by decide)) _ _, atStage_finishItem _ _ _⟩

end Sys2Proof

/-! ### The ring's turn (R75) -/

namespace Sys2Proof.Machine

open Sys2Proof

theorem serveRing_touches (s : State) (x : Item) : Touches [.accounts] s (s.serveRing x) := touches_State_serveRing .rfl (by decide) x

theorem ringServed_serveRing (s : State) (x : Item) : RingServed x s (s.serveRing x) := by
  unfold State.serveRing
  split
  · next a ha => exact ⟨fun _ h => State.setAccount_other s _ h, by rw [ha]; exact State.setAccount_same s _ _⟩
  · next ha => exact ⟨beside_rfl _ _ _, by rw [ha]; rfl⟩

/-- What starts after the ring's turn leaves the accounts alone. -/
theorem ringServed_of_touches {ps : List Part} {s t : State} {x : Item} (h : Touches ps (s.serveRing x) t) (ha : Part.accounts ∉ ps) :
    RingServed x s t := by
  obtain ⟨hother, hown⟩ := ringServed_serveRing s x
  have he (n : Nat) : t.account? n = (s.serveRing x).account? n := by rw [State.account?, State.account?, h .accounts ha]
  exact ⟨fun n hn => (he n).trans (hother n hn), (he _).trans hown⟩

theorem served_touches {ps qs : List Part} {s t : State} {x : Item} (h : Touches ps (s.serveRing x) t) (hs : (.accounts :: ps) ⊆ qs) : Touches qs s t :=
  ((serveRing_touches s x).mono fun _ hp => hs (List.mem_cons.mpr (.inl (List.mem_singleton.mp hp)))).trans (h.mono fun _ hp => hs (List.mem_cons_of_mem _ hp))

theorem stepNumber_congr {s t : State} (h : t.accounts = s.accounts) (a : Nat) : stepNumber t a = stepNumber s a := by
  simp only [stepNumber, State.account?, h]

end Sys2Proof.Machine

/-! ### The versions that a start begins (R106) -/

namespace Sys2Proof.Machine

open Sys2Proof

theorem beginVersions_touches (s : State) (id : Nat) (x : Item) : Touches [.tensors] s (s.beginVersions id x) :=
  touches_State_beginVersions .rfl (by decide) id x

/-- An item that is no GEMM, RUN or CLEAR writes into no version that another may have begun. -/
theorem writesInto_none {x : Item} (hg : isGemm x.slip = false) (hr : isRun x.slip = false) (hc : isClear x.slip = false) (s : State) :
    writesInto s x = [] := by
  simp [writesInto, hg, hr, hc]

/-- The listed tensors changed, each in one way. -/
def State.adjustTensors (s : State) (l : List Nat) (f : Tensor → Tensor) : State :=
  l.foldl (fun (t : State) h => { t with tensors := adjust t.tensors h f }) s

/-- The tensors that an item replaces whole, their versions begun. -/
def State.replaceVersions (s : State) (id : Nat) (x : Item) : State :=
  s.adjustTensors (if isOp famRecall 0 x.slip then [] else replaces x) fun t => t.newVersion (stepNumber s x.account) id (copyScale s x)

/-- A tensor that an item writes into, its version begun where that is due. -/
def writtenVersion (s : State) (id : Nat) (x : Item) (t : Tensor) : Tensor :=
  let u := t.begin (stepNumber s x.account) (commitsOf s x.account) (paramsOf s x.account).headroomLog2 id
  if isGemm x.slip && t.beginsVersion (stepNumber s x.account) then u.rewritten else u

theorem beginVersions_eq (s : State) (id : Nat) (x : Item) : s.beginVersions id x =
    (s.replaceVersions id x).adjustTensors (writesInto (s.replaceVersions id x) x) (writtenVersion s id x) := rfl

theorem adjustTensors_other {f : Tensor → Tensor} {l : List Nat} {h : Nat} (hn : h ∉ l) (s : State) :
    find (s.adjustTensors l f).tensors h = find s.tensors h := by
  induction l generalizing s with
  | nil => rfl
  | cons k rest ih =>
    obtain ⟨hk, hrest⟩ := List.ne_and_not_mem_of_not_mem_cons hn
    exact (ih hrest _).trans (find_adjust_other _ _ hk)

/-- Such an item begins versions of the tensors that it replaces whole, and of no other. -/
theorem beginVersions_other {s : State} {x : Item} (hw : ∀ u, writesInto u x = []) {h : Nat} (hn : h ∉ replaces x) (id : Nat) :
    find (s.beginVersions id x).tensors h = find s.tensors h := by
  have hl : h ∉ (if isOp famRecall 0 x.slip then [] else replaces x) := by split <;> simp [hn]
  rw [beginVersions_eq, hw]
  exact adjustTensors_other hl s

/-- Every tensor keeps its pin, and none comes or goes. -/
def PinsKept (s t : State) : Prop := ∀ h, (find t.tensors h).map Tensor.pinned = (find s.tensors h).map Tensor.pinned

theorem PinsKept.trans {s t u : State} (h : PinsKept s t) (k : PinsKept t u) : PinsKept s u := fun n => (k n).trans (h n)

theorem pinsKept_adjust (s : State) (h : Nat) {f : Tensor → Tensor} (hf : ∀ t, (f t).pinned = t.pinned) :
    PinsKept s { s with tensors := adjust s.tensors h f } := fun k => by
  by_cases hk : k = h
  · subst hk
    simp only [find_adjust_same, Option.map_map]
    exact Option.map_congr fun t _ => hf t
  · simp only [find_adjust_other _ _ hk]

theorem pinsKept_adjustTensors {f : Tensor → Tensor} (hf : ∀ t, (f t).pinned = t.pinned) (l : List Nat) (s : State) : PinsKept s (s.adjustTensors l f) :=
  foldl_keeps (fun _ _ => rfl) .trans l _ (fun t h => pinsKept_adjust t h hf) s

theorem writtenVersion_pinned (s : State) (id : Nat) (x : Item) (t : Tensor) : (writtenVersion s id x t).pinned = t.pinned := by
  have hbegin (step commits headroom item : Nat) : (t.begin step commits headroom item).pinned = t.pinned := by
    unfold Tensor.begin
    split <;> rfl
  unfold writtenVersion
  dsimp only
  split
  · exact hbegin _ _ _ _
  · exact hbegin _ _ _ _

theorem pinsKept_beginVersions (s : State) (id : Nat) (x : Item) : PinsKept s (s.beginVersions id x) :=
  PinsKept.trans (pinsKept_adjustTensors (f := fun t => t.newVersion (stepNumber s x.account) id (copyScale s x)) (fun _ => rfl) _ s)
    (pinsKept_adjustTensors (writtenVersion_pinned s id x) _ _)

end Sys2Proof.Machine

/-! ### Decks that an analogue forward holds (R152, R173) -/

namespace Sys2Proof.Machine

open Sys2Proof

/-- A slot for a working copy changes no hold. -/
theorem takeSlot_holds (s : State) (n d : Nat) : ((s.takeSlot n).deck d).holds = (s.deck d).holds := by
  unfold State.takeSlot
  split
  · split
    · by_cases h : d = n
      · rw [h, State.setDeck_same]
      · rw [State.setDeck_other _ _ h]
    · rfl
  · rfl

/-- One deck held. -/
def State.takeHold (s : State) (id d : Nat) : State := (s.takeSlot d).setDeck d { (s.takeSlot d).deck d with holds := insertNat (s.deck d).holds id }

theorem mem_holds_takeHold (s : State) (id d : Nat) : id ∈ ((s.takeHold id d).deck d).holds := by
  rw [State.takeHold, State.setDeck_same]
  exact mem_insertNat _ _

theorem holds_takeHold_kept {s : State} {id d : Nat} (h : id ∈ (s.deck d).holds) (n : Nat) : id ∈ ((s.takeHold id n).deck d).holds := by
  by_cases hn : d = n
  · exact hn ▸ mem_holds_takeHold s id d
  · rw [State.takeHold, State.setDeck_other _ _ hn, takeSlot_holds]
    exact h

theorem holds_takeHolds_kept (l : List Nat) {s : State} {id d : Nat} (h : id ∈ (s.deck d).holds) : id ∈ ((s.takeHolds id l).deck d).holds := by
  induction l generalizing s with
  | nil => exact h
  | cons n rest ih => exact ih (holds_takeHold_kept h n)

theorem mem_holds_takeHolds {l : List Nat} {d : Nat} (hd : d ∈ l) (s : State) (id : Nat) : id ∈ ((s.takeHolds id l).deck d).holds := by
  induction l generalizing s with
  | nil => exact absurd hd List.not_mem_nil
  | cons n rest ih =>
    rcases List.mem_cons.mp hd with rfl | hd
    · exact holds_takeHolds_kept rest (mem_holds_takeHold s id d)
    · exact ih hd _

theorem takeHolds_touches (s : State) (id : Nat) (l : List Nat) : Touches [.decks] s (s.takeHolds id l) := touches_State_takeHolds .rfl (by decide) id l

theorem pin_touches (s : State) (x : Item) : Touches [.tensors] s (s.pin x) := touches_State_pin .rfl (by decide) x

end Sys2Proof.Machine

/-! ### The start of an item by its kind (R152, R173, R197, R230 to R235, R243, R247, R248) -/

namespace Sys2Proof.Machine

open Sys2Proof

section
variable {s : State} {id : Nat} {x : Item}

/-- An item that may start has its ring served, then starts by its kind. -/
theorem itemStart_next (h : MayStart s id x) : exec (.itemStart id) s = .next (
    let u := s.serveRing x
    if isGemm x.slip then startGemm u id x
    else if isRun x.slip && isUpdate u x.slip then startUpdate u id x
    else if isOp famSettle 0 x.slip then startSettle u id x
    else if isClear x.slip then startClear u id x
    else if isOp famStash 0 x.slip then startStash u id x
    else (u.beginVersions id x).run id x) := by
  obtain ⟨hx, hstage, hstarts, hprevious, hconditions, hturn, hcheck, hsize, hversion⟩ := h
  have hnot : ¬2 ≤ x.stage := by omega
  have hstart : startEffect s id x = startItem (s.serveRing x) id x := by
    simp [startEffect, hnot, hstarts, hprevious, hconditions, hturn, hcheck]
  have hexec : exec (.itemStart id) s = .next (startItem (s.serveRing x) id x) := by
    rw [← hstart]
    show execItemStart id s = _
    rw [execItemStart, hx]
  rw [hexec, startItem]
  simp only [hsize, hversion, Bool.false_eq_true, if_false]

theorem itemStart_gemm (h : MayStart s id x) (hg : isGemm x.slip = true) : exec (.itemStart id) s = .next (startGemm (s.serveRing x) id x) :=
  (itemStart_next h).trans (congrArg _ (if_pos hg))

theorem itemStart_update (h : MayStart s id x) (hr : isRun x.slip = true) (hu : isUpdate (s.serveRing x) x.slip = true) :
    exec (.itemStart id) s = .next (startUpdate (s.serveRing x) id x) := by
  obtain ⟨hf, -⟩ : slipFamily x.slip = famKernel ∧ slipOpcode x.slip = 0 := by simpa [isRun] using hr
  simp [itemStart_next h, isGemm, hf, famGemm, famKernel, hr, hu]

theorem itemStart_settle (h : MayStart s id x) (hs : isOp famSettle 0 x.slip = true) :
    exec (.itemStart id) s = .next (startSettle (s.serveRing x) id x) := by
  obtain ⟨hf, ho⟩ : slipFamily x.slip = famSettle ∧ slipOpcode x.slip = 0 := by simpa [isOp] using hs
  simp [itemStart_next h, isGemm, isRun, isOp, hf, ho, famGemm, famKernel, famSettle]

theorem itemStart_stash (h : MayStart s id x) (hs : isOp famStash 0 x.slip = true) : exec (.itemStart id) s = .next (startStash (s.serveRing x) id x) := by
  obtain ⟨hf, ho⟩ : slipFamily x.slip = famStash ∧ slipOpcode x.slip = 0 := by simpa [isOp] using hs
  simp [itemStart_next h, isGemm, isRun, isClear, isOp, hf, ho, famGemm, famKernel, famSettle, famClear, famStash]

/-- A RUN that is no update starts as any plain item does. -/
theorem itemStart_run (h : MayStart s id x) (hr : isRun x.slip = true) (hu : isUpdate (s.serveRing x) x.slip = false) :
    exec (.itemStart id) s = .next (((s.serveRing x).beginVersions id x).run id x) := by
  obtain ⟨hf, -⟩ : slipFamily x.slip = famKernel ∧ slipOpcode x.slip = 0 := by simpa [isRun] using hr
  simp [itemStart_next h, isGemm, isClear, isOp, hf, famGemm, famKernel, famSettle, famClear, famStash, hu]

theorem itemStart_plain (h : MayStart s id x) (hg : isGemm x.slip = false) (hr : isRun x.slip = false) (hs : isOp famSettle 0 x.slip = false)
    (hc : isClear x.slip = false) (ht : isOp famStash 0 x.slip = false) :
    exec (.itemStart id) s = .next (((s.serveRing x).beginVersions id x).run id x) := by
  simp [itemStart_next h, hg, hr, hs, hc, ht]

end

/-! What a running item's start leaves. -/

theorem atStage_run (s : State) (id : Nat) (x : Item) : AtStage id 2 (s.run id x) := ⟨_, State.setItem_same _ _ _, rfl⟩

theorem run_touches (s : State) (id : Nat) (x : Item) : Touches [.items] s (s.run id x) := touches_State_run .rfl (by decide) id x

theorem otherItems_run {s u : State} (h : u.items = s.items) (id : Nat) (x : Item) : OtherItems id s (u.run id x) := otherItems_setItem h id _

/-- The versions begun and the item running: what every start but a SETTLE's and a STASH's comes to. -/
def State.begun (s : State) (id : Nat) (x : Item) : State := (s.beginVersions id x).run id x

theorem begun_touches (s : State) (id : Nat) (x : Item) : Touches [.items, .tensors] s (s.begun id x) :=
  ((beginVersions_touches s id x).mono (by decide)).trans ((run_touches _ id x).mono (by decide))

theorem atStage_begun (s : State) (id : Nat) (x : Item) : AtStage id 2 (s.begun id x) := atStage_run _ _ _

theorem otherItems_begun (s : State) (id : Nat) (x y : Item) : OtherItems id s ((s.serveRing x).begun id y) :=
  otherItems_run ((beginVersions_touches _ _ _ .items (by decide)).trans (serveRing_touches s x .items (by decide))) _ _

/-- The item's entry is as it was while other parts change. -/
theorem atStage_of_touches {ps : List Part} {s t : State} {id n : Nat} (h : AtStage id n s) (ht : Touches ps s t) (hi : Part.items ∉ ps) :
    AtStage id n t := by
  obtain ⟨y, hy, hn⟩ := h
  exact ⟨y, (congrArg (find · id) (ht .items hi)).trans hy, hn⟩

theorem otherItems_of_touches {ps : List Part} {s t u : State} {id : Nat} (h : OtherItems id s t) (ht : Touches ps t u) (hi : Part.items ∉ ps) :
    OtherItems id s u := fun n hn => (congrArg (find · n) (ht .items hi)).trans (h n hn)

/-! Matrix products. -/

/-- An item with its class-weight operand converted is the same item but for that operand (R197). -/
theorem snapshotWeight_kept {s : State} {x y : Item} (h : snapshotWeight s x = some y) : y = { x with work := y.work, struckVersion := y.struckVersion } := by
  unfold snapshotWeight at h
  split at h
  · split at h
    · exact Option.some.inj h ▸ rfl
    · split at h
      · exact absurd h (by simp)
      · exact Option.some.inj h ▸ rfl
  · exact Option.some.inj h ▸ rfl

theorem withOperand_kept {s : State} {x y : Item} (h : withOperand s x = some y) : y = { x with work := y.work, struckVersion := y.struckVersion } := by
  obtain ⟨z, hz, rfl⟩ := Option.map_eq_some_iff.mp h
  rw [snapshotWeight_kept hz]

/-- The item of an analogue forward as it starts: columns without a home are computed from a converted operand (R351). -/
def analogueItem (s : State) (x : Item) (c : Tensor) : Item := if anyHomeless s c then (withOperand s x).getD x else x

theorem analogueItem_kept (s : State) (x : Item) (c : Tensor) : (analogueItem s x c).slip = x.slip ∧ (analogueItem s x c).account = x.account := by
  unfold analogueItem
  split
  · cases h : withOperand s x with
    | none => exact ⟨rfl, rfl⟩
    | some y =>
      have hy : y = _ := withOperand_kept h
      rw [Option.getD_some, hy]
      exact ⟨rfl, rfl⟩
  · exact ⟨rfl, rfl⟩

section
variable {s : State} {id : Nat} {x : Item} {c : Tensor} (hc : find s.tensors (slipC x.slip) = some c)
include hc

theorem startGemm_analogue (ha : isAnalogue s x.slip = true) (hs : settleWaiting s (slipC x.slip) = false) (hh : holdsFree s c = true) :
    startGemm s id x = ((s.begun id (analogueItem s x c)).pin (analogueItem s x c)).takeHolds id (heldDecks s c) := by
  simp only [startGemm, hc, ha, hs, hh, Bool.not_true, Bool.or_false, Bool.false_eq_true, if_true, if_false]
  rfl

/-- A GEMM on DTBs runs; what its operand's conversion and its pin leave is in the tensors. -/
theorem startGemm_digital (ha : isAnalogue s x.slip = false) (hs : slipOpcode x.slip = 1 → settleWaiting s (slipC x.slip) = false) {y : Item}
    (hy : withOperand s x = some y) : Touches [.tensors] (s.begun id y) (startGemm s id x) := by
  have hwait : (decide (slipOpcode x.slip = 1) && settleWaiting s (slipC x.slip)) = false := by
    by_cases h : slipOpcode x.slip = 1
    · simp [hs h]
    · simp [h]
  simp only [startGemm, hc, ha, hwait, hy, Bool.false_eq_true, if_false]
  have hheld := touches_State_holdFallback (ps := [.tensors]) (Touches.rfl (s := s.begun id y)) (by decide) (slipC x.slip) (fallbackFormat s x.slip)
  split
  · exact touches_State_pin hheld (by decide) y
  · exact hheld

end

theorem begun_pinned {s : State} {h : Nat} {c : Tensor} (hc : find s.tensors h = some c) (id : Nat) (x : Item) :
    ∃ c', find (s.begun id x).tensors h = some c' ∧ c'.pinned = c.pinned := by
  have hk : (find (s.beginVersions id x).tensors h).map Tensor.pinned = some c.pinned := by rw [pinsKept_beginVersions s id x h, hc]; rfl
  exact Option.map_eq_some_iff.mp hk

/-- The pin is under the step number in force, or a higher one that stood before (R231). -/
theorem pin_pinned {s : State} {x : Item} {c : Tensor} (hc : find s.tensors (slipC x.slip) = some c) :
    ∃ c', find (s.pin x).tensors (slipC x.slip) = some c' ∧ c'.pinned = some (max (c.pinned.getD 0) (stepNumber s x.account)) := by
  refine ⟨_, (find_adjust_same _ _ _).trans (by rw [hc]; rfl), rfl⟩

/-! Updates and SETTLEs. -/

section
variable {s : State} {id : Nat} {x : Item} {a : Account} {m : Tensor} {words : List Nat} (ha : (s.readRecord x.account).account? x.account = some a)
  (hm : find (s.readRecord x.account).tensors (slipA x.slip) = some m) (hw : a.record = some words)
include ha hm hw

theorem startUpdate_waits (h : words.headD 0 ≤ m.stamp ∨ otherWriter (s.readRecord x.account) id (slipA x.slip) = true) :
    startUpdate s id x = s.readRecord x.account := by
  simp only [startUpdate, ha, hm, hw]
  exact if_pos (by simpa using h)

theorem startUpdate_runs (hs : m.stamp < words.headD 0) (ho : otherWriter (s.readRecord x.account) id (slipA x.slip) = false) :
    startUpdate s id x = ((s.readRecord x.account).beginVersions id x).run id { x with snapshot := words } := by
  simp only [startUpdate, ha, hm, hw]
  exact if_neg (by simpa [ho] using hs)

end

section
variable {s : State} {x : Item}

theorem startSettle_waits (h : pinnedNow s (slipA x.slip) = true) (id : Nat) :
    startSettle s id x = s.setItem id { x with stampSince := some (x.stampSince.getD s.now) } := by
  simp [startSettle, h]

theorem startSettle_runs {id : Nat} (hp : pinnedNow s (slipA x.slip) = false) (hr : settleRuns s (slipA x.slip) = false)
    (hearlier : ∀ p ∈ s.items, p.2.stage ≤ 1 → isOp famSettle 0 p.2.slip = true → p.2.stampSince.isSome = true → id ≤ p.1) :
    startSettle s id x = s.run id { x with stampSince := none } := by
  unfold startSettle
  dsimp only
  refine if_neg ?_
  rw [hp, hr, Bool.false_or, Bool.false_or, Bool.not_eq_true, List.any_eq_false]
  intro p hp h
  simp only [Bool.and_eq_true, decide_eq_true_eq] at h
  obtain ⟨⟨⟨⟨hlt, hstage⟩, hop⟩, -⟩, hsince⟩ := h
  exact absurd (hearlier p hp hstage hop hsince) (Nat.not_le.mpr hlt)

end

theorem startStash_runs {s : State} {x : Item} {v : Tensor} (hv : find s.tensors (slipA x.slip) = some v) (hd : x.decision ≠ .none) (id : Nat) :
    startStash s id x = s.run id x := by
  simp only [startStash, hv, hd, ne_eq, not_false_eq_true, if_true]

end Sys2Proof.Machine

namespace Sys2Proof

open Sys2Proof.Machine

/-- Settles O15: after its ring's turn an item starts by its kind, and each kind's start is a version begun, an entry at stage 2, and what
the kind adds. -/
theorem itemStartRuns : Obligations.ItemStartRuns := by
  intro s id x hmay w u
  have hserved : Touches [.accounts] s u := serveRing_touches s x
  have htensors (h : Nat) : find u.tensors h = find s.tensors h := congrArg (find · h) (hserved .tensors (by decide))
  have hbegun := begun_touches u id x
  refine ⟨fun hg hr hs hc ht => ?_, fun hr hu => ?_, fun c hg hc ha hs hh => ?_, fun hg ⟨c, hc⟩ ha hs ⟨y, hy⟩ => ?_,
    fun a m words hr hu ha hm hw => ⟨fun h => ?_, fun hstamp ho => ?_⟩, fun hs => ⟨fun hp => ?_, fun hp hn hearlier => ?_⟩,
    fun hs ⟨v, hv⟩ hd => ?_⟩
  · exact ⟨_, itemStart_plain hmay hg hr hs hc ht, served_touches hbegun (by decide), ringServed_of_touches hbegun (by decide), otherItems_begun _ _ _ _,
      atStage_begun _ _ _, fun h hn => (beginVersions_other (writesInto_none hg hr hc) hn id).trans (htensors h)⟩
  · exact ⟨_, itemStart_run hmay hr hu, served_touches hbegun (by decide), ringServed_of_touches hbegun (by decide), otherItems_begun _ _ _ _,
      atStage_begun _ _ _⟩
  · have hcu := (htensors _).trans hc
    have hexec := (itemStart_gemm hmay hg).trans (congrArg _ (startGemm_analogue hcu ha hs hh))
    obtain ⟨hslip, haccount⟩ := analogueItem_kept u x c
    generalize analogueItem u x c = y at hexec hslip haccount
    have hb := begun_touches u id y
    have hafter : Touches [.tensors, .decks] (u.begun id y) (((u.begun id y).pin y).takeHolds id (heldDecks u c)) :=
      ((pin_touches _ y).mono (by decide)).trans ((takeHolds_touches _ id _).mono (by decide))
    have hall : Touches [.items, .tensors, .decks] u (((u.begun id y).pin y).takeHolds id (heldDecks u c)) :=
      (hb.mono (by decide)).trans (hafter.mono (by decide))
    obtain ⟨c1, hc1, hpin1⟩ := begun_pinned hcu id y
    obtain ⟨c2, hc2, hpin2⟩ := pin_pinned (s := u.begun id y) (x := y) (c := c1) (by rw [hslip]; exact hc1)
    rw [hslip] at hc2
    rw [hpin1, haccount, stepNumber_congr (hb .accounts (by decide))] at hpin2
    exact ⟨_, hexec, served_touches hall (by decide), ringServed_of_touches hall (by decide),
      otherItems_of_touches (otherItems_begun s id x y) hafter (by decide), atStage_of_touches (atStage_begun _ _ _) hafter (by decide),
      ⟨c2, (congrArg (find · _) (takeHolds_touches _ id _ .tensors (by decide))).trans hc2, hpin2⟩, fun d hd => mem_holds_takeHolds hd _ _⟩
  · have hafter := startGemm_digital (id := id) ((htensors _).trans hc) ha hs hy
    exact ⟨_, itemStart_gemm hmay hg, otherItems_of_touches (otherItems_begun s id x y) hafter (by decide),
      atStage_of_touches (atStage_begun _ _ _) hafter (by decide)⟩
  · exact (itemStart_update hmay hr hu).trans (congrArg _ (startUpdate_waits ha hm hw h))
  · exact ⟨_, (itemStart_update hmay hr hu).trans (congrArg _ (startUpdate_runs ha hm hw hstamp ho)), _, State.setItem_same _ _ _, rfl, rfl⟩
  · exact ⟨_, (itemStart_settle hmay hs).trans (congrArg _ (startSettle_waits hp id)),
      served_touches (touches_State_setItem (ps := [.items]) .rfl (by decide) _ _) (by decide), otherItems_setItem (hserved .items (by decide)) _ _,
      _, State.setItem_same _ _ _, rfl, rfl⟩
  · have hitems : u.items = s.items := hserved .items (by decide)
    exact ⟨_, (itemStart_settle hmay hs).trans (congrArg _ (startSettle_runs hp hn (hitems ▸ hearlier))), served_touches (run_touches _ _ _) (by decide),
      otherItems_run hitems _ _, atStage_run _ _ _⟩
  · exact ⟨_, (itemStart_stash hmay hs).trans (congrArg _ (startStash_runs ((htensors _).trans hv) hd id)), served_touches (run_touches _ _ _) (by decide),
      otherItems_run (hserved .items (by decide)) _ _, atStage_run _ _ _⟩

end Sys2Proof

/-! ### RESIDENT ranges on a block's cells (R196, R201, R206, R207) -/

namespace Sys2Proof.Machine

open Sys2Proof

/-- A key that only one value stands under is read as that value. -/
theorem lookup_of_mem {α : Type} (d : α) {t : Table α} {i : Nat} {a : α} (hmem : (i, a) ∈ t) (hone : ∀ b, (i, b) ∈ t → b = a) :
    lookup d t i = a := by
  induction t with
  | nil => cases hmem
  | cons q rest ih =>
    obtain ⟨k, v⟩ := q
    by_cases hk : k = i
    · subst hk
      simpa [lookup, find] using hone v List.mem_cons_self
    · have hrest : (i, a) ∈ rest := (List.mem_cons.mp hmem).resolve_left fun he => hk (congrArg Prod.fst he).symm
      simpa [lookup, find, hk] using ih hrest fun b hb => hone b (List.mem_cons_of_mem _ hb)

section
variable {α : Type} [DecidableEq α] (d : α) (f : Nat → α → α) {cells : List Nat} {c : Nat}

theorem lookup_foldl_modify_other (hc : c ∉ cells) (t : Table α) : lookup d (cells.foldl (fun m c => modify d m c (f c)) t) c = lookup d t c := by
  induction cells generalizing t with
  | nil => rfl
  | cons b rest ih =>
    rw [List.foldl_cons, ih (List.not_mem_of_not_mem_cons hc), modify, lookup_put_other _ _ _ (List.ne_of_not_mem_cons hc)]

/-- Cells changed one by one, none twice: each reads as its own change of what it held. -/
theorem lookup_foldl_modify (hn : cells.Nodup) (hc : c ∈ cells) (t : Table α) :
    lookup d (cells.foldl (fun m c => modify d m c (f c)) t) c = f c (lookup d t c) := by
  induction cells generalizing t with
  | nil => cases hc
  | cons b rest ih =>
    obtain ⟨hb, hrest⟩ := List.nodup_cons.mp hn
    rw [List.foldl_cons]
    rcases List.mem_cons.mp hc with rfl | hc
    · rw [lookup_foldl_modify_other d f hb, modify_same]
    · rw [ih hrest hc, modify, lookup_put_other _ _ _ (ne_of_mem_of_not_mem hc hb)]

end

/-- A block's cells are its valid rows and columns, at most 128 columns wide. -/
theorem mem_blockCells {p : Product} {row col cell : Nat} :
    cell ∈ blockCells p row col ↔ cell / 128 < blockRows p row ∧ cell % 128 < blockCols p col := by
  have hcols : blockCols p col ≤ 128 := Nat.min_le_left _ _
  simp only [blockCells, List.mem_flatMap, List.mem_map, List.mem_range]
  constructor
  · rintro ⟨r, hr, c, hc, rfl⟩
    omega
  · rintro ⟨hr, hc⟩
    exact ⟨_, hr, _, hc, Nat.div_add_mod cell 128⟩

theorem blockCells_nodup (p : Product) (row col : Nat) : (blockCells p row col).Nodup := by
  have hcols : blockCols p col ≤ 128 := Nat.min_le_left _ _
  refine List.pairwise_flatMap.mpr ⟨fun r _ => List.pairwise_map.mpr (List.nodup_range.imp fun hne h => hne (by omega)), ?_⟩
  refine List.nodup_range.imp fun hne x hx y hy => ?_
  obtain ⟨c, hc, rfl⟩ := List.mem_map.mp hx
  obtain ⟨c', hc', rfl⟩ := List.mem_map.mp hy
  rw [List.mem_range] at hc hc'
  omega

/-! The operand space of a filled K-range (R196). -/

section
variable {p : Product} {row col start n k : Nat} (d : Dtb) (hk : k < n)
include hk

theorem lookup_fill_left (hn : n ≤ 8192) {r : Nat} (hr : r < blockRows p row) :
    lookup Val.zero (d.fill p row col start n).left (8192 * r + k) = p.a (256 * row + r) (start + k) := by
  have hmem (v : Val) : (8192 * r + k, v) ∈ (d.fill p row col start n).left ↔
      ∃ r' < blockRows p row, ∃ k' < n, 8192 * r' + k' = 8192 * r + k ∧ p.a (256 * row + r') (start + k') = v := by
    simp [Dtb.fill]
  refine lookup_of_mem _ ((hmem _).mpr ⟨r, hr, k, hk, rfl, rfl⟩) fun v hv => ?_
  obtain ⟨r', -, k', hk', he, rfl⟩ := (hmem v).mp hv
  obtain ⟨rfl, rfl⟩ : r' = r ∧ k' = k := by omega
  rfl

theorem lookup_fill_right {c : Nat} (hc : c < blockCols p col) :
    lookup Val.zero (d.fill p row col start n).right (128 * k + c) = p.b (start + k) (128 * col + c) := by
  have hcols : blockCols p col ≤ 128 := Nat.min_le_left _ _
  have hmem (v : Val) : (128 * k + c, v) ∈ (d.fill p row col start n).right ↔
      ∃ k' < n, ∃ c' < blockCols p col, 128 * k' + c' = 128 * k + c ∧ p.b (start + k') (128 * col + c') = v := by
    simp [Dtb.fill]
  refine lookup_of_mem _ ((hmem _).mpr ⟨k, hk, c, hc, rfl, rfl⟩) fun v hv => ?_
  obtain ⟨k', -, c', hc', he, rfl⟩ := (hmem v).mp hv
  obtain ⟨rfl, rfl⟩ : k' = k ∧ c' = c := by omega
  rfl

end

/-- The operand pairs of a cell's element over the K-steps from `start`, in K order. -/
def elementPairs (p : Product) (row col cell start n : Nat) : List (Val × Val) :=
  (List.range' start n).map fun k => (p.a (256 * row + cell / 128) k, p.b k (128 * col + cell % 128))

theorem elementPairs_add (p : Product) (row col cell start m n : Nat) :
    elementPairs p row col cell start (m + n) = elementPairs p row col cell start m ++ elementPairs p row col cell (start + m) n := by
  simp [elementPairs, ← List.range'_append_1]

/-- The pairs over the whole reduction are those of the item's element. -/
theorem elementPairs_whole (p : Product) (row col cell : Nat) :
    elementPairs p row col cell 0 p.length = pairsOf p.length (p.a (256 * row + cell / 128)) fun k => p.b k (128 * col + cell % 128) := by
  rw [elementPairs, pairsOf, List.range_eq_range']

/-- The fill of a K-range gives each cell the pairs of its element. -/
theorem cellPairs_fill {p : Product} {row col cell n : Nat} (hc : cell ∈ blockCells p row col) (hn : n ≤ 8192) (start : Nat) (d : Dtb) :
    cellPairs (d.fill p row col start n) n cell = elementPairs p row col cell start n := by
  obtain ⟨hr, hc⟩ := mem_blockCells.mp hc
  rw [cellPairs, elementPairs, List.range'_eq_map_range, List.map_map]
  refine List.map_congr_left fun k hk => ?_
  have hk := List.mem_range.mp hk
  rw [lookup_fill_left d hk hn hr, lookup_fill_right d hk hc]
  rfl

/-! Flags and integers that a cell gathers (R201, R207). -/

theorem foldl_orFlags (l : List (Val × Val)) (f : Nat) : l.foldl (fun f q => orFlags f (Val.mul q.1 q.2)) f = f ||| pairFlags l := by
  induction l generalizing f with
  | nil => exact (Nat.or_zero f).symm
  | cons q rest ih => rw [pairFlags, List.foldl_cons, List.foldl_cons, ih, ih (orFlags 0 _), orFlags, orFlags, Nat.zero_or, Nat.or_assoc]

theorem pairFlags_append (l m : List (Val × Val)) : pairFlags (l ++ m) = pairFlags l ||| pairFlags m := by
  rw [pairFlags, List.foldl_append, foldl_orFlags]
  rfl

/-- What RESIDENT pairs add to a cell's integer; nothing where the item has no anchor. -/
def residentAdd (anchor : Option Int) (pairs : List (Val × Val)) (acc : Int) : Int :=
  match anchor with
  | none => acc
  | some l => pairs.foldl (fun a q => residentStep l a q.1 q.2) acc

@[simp] theorem residentAdd_nil (anchor : Option Int) (acc : Int) : residentAdd anchor [] acc = acc := by cases anchor <;> rfl

theorem residentAdd_append (anchor : Option Int) (l m : List (Val × Val)) (acc : Int) :
    residentAdd anchor (l ++ m) acc = residentAdd anchor m (residentAdd anchor l acc) := by
  cases anchor with
  | none => rfl
  | some => exact List.foldl_append

section
variable {p : Product} {row col cell : Nat} (hres : p.resident = true) (hc : cell ∈ blockCells p row col) (orvane : Bool) (anchor : Option Int)
include hres hc

/-- A RESIDENT instruction joins the exception flags of its K-range's products to a cell's (R201). -/
theorem lookup_flags_runRange {n : Nat} (hn : n ≤ 8192) (start : Nat) (d : Dtb) :
    lookup 0 (runRange orvane p anchor row col start n d).flags cell =
      lookup 0 d.flags cell ||| pairFlags (elementPairs p row col cell start n) := by
  have hflags : (runRange orvane p anchor row col start n d).flags = (blockCells p row col).foldl
      (fun m c => modify 0 m c (· ||| pairFlags (cellPairs (d.fill p row col start n) n c))) d.flags := by
    simp only [runRange, hres, if_true]
    cases anchor <;> rfl
  rw [hflags, lookup_foldl_modify 0 (fun c f => f ||| pairFlags (cellPairs (d.fill p row col start n) n c)) (blockCells_nodup p row col) hc,
    cellPairs_fill hc hn]

/-- A RESIDENT instruction adds its K-range's products to a cell's integer (R207). -/
theorem lookup_residentAcc_runRange {n : Nat} (hn : n ≤ 8192) (start : Nat) (d : Dtb) :
    lookup 0 (runRange orvane p anchor row col start n d).residentAcc cell =
      residentAdd anchor (elementPairs p row col cell start n) (lookup 0 d.residentAcc cell) := by
  cases anchor with
  | none => simp only [runRange, hres, if_true]; rfl
  | some l =>
    have hacc : (runRange orvane p (some l) row col start n d).residentAcc = (blockCells p row col).foldl
        (fun m c => modify 0 m c (residentAdd (some l) (cellPairs (d.fill p row col start n) n c))) d.residentAcc := by
      simp only [runRange, hres, if_true]
      rfl
    rw [hacc, lookup_foldl_modify 0 (fun c => residentAdd (some l) (cellPairs (d.fill p row col start n) n c)) (blockCells_nodup p row col) hc,
      cellPairs_fill hc hn]

/-- Consecutive RESIDENT ranges leave in a cell what one range over all their K-steps would. -/
theorem lookup_runRanges {lengths : List Nat} (hl : ∀ n ∈ lengths, n ≤ 8192) (start : Nat) (d : Dtb) :
    lookup 0 (runRanges orvane p anchor row col start lengths d).flags cell =
      lookup 0 d.flags cell ||| pairFlags (elementPairs p row col cell start lengths.sum) ∧
    lookup 0 (runRanges orvane p anchor row col start lengths d).residentAcc cell =
      residentAdd anchor (elementPairs p row col cell start lengths.sum) (lookup 0 d.residentAcc cell) := by
  induction lengths generalizing start d with
  | nil => simp [runRanges, elementPairs, pairFlags]
  | cons n rest ih =>
    obtain ⟨hn, hrest⟩ := List.forall_mem_cons.mp hl
    obtain ⟨hflags, hacc⟩ := ih hrest (start + n) (runRange orvane p anchor row col start n d)
    rw [List.sum_cons, elementPairs_add, pairFlags_append, residentAdd_append, runRanges, hflags, hacc,
      lookup_flags_runRange hres hc orvane anchor hn, lookup_residentAcc_runRange hres hc orvane anchor hn, Nat.or_assoc]
    exact ⟨rfl, rfl⟩

end

/-- A finished cell of a fresh block whose flags and integer are those of a list of pairs holds the total of those pairs (R207). -/
theorem cellTotal_resident {p : Product} (hres : p.resident = true) (anchor : Option Int) {n : Partial} {cell : Nat} {pairs : List (Val × Val)}
    (h : lookup 0 n.ints cell = residentAdd anchor pairs 0) : cellTotal p anchor n cell = residentTotal anchor pairs := by
  unfold cellTotal
  rw [if_pos hres]
  cases anchor with
  | none => rfl
  | some l => rw [h]; rfl

end Sys2Proof.Machine

namespace Sys2Proof

open Sys2Proof.Machine

/-- Settles O23: flags and integers of a cell gather over consecutive ranges as over one, by induction on the ranges. -/
theorem residentRangesGiveTheItemsValue : Obligations.ResidentRangesGiveTheItemsValue := by
  intro orvane p anchor row col lengths d cell hres hsum hl hacc0 hflags0 hc
  obtain ⟨hflags, hacc⟩ := lookup_runRanges hres hc orvane anchor hl 0 d
  rw [hsum, elementPairs_whole] at hflags hacc
  rw [hflags0, show lookup 0 ([] : Table Nat) cell = 0 from rfl, Nat.zero_or] at hflags
  rw [hacc0] at hacc
  rw [cellValue, Product.value, Product.total, if_pos hres, cellTotal_resident hres anchor hacc]
  exact congrArg (fun f => F32.ofVal (totalWith f _)) hflags

end Sys2Proof

/-! ### What the end of an item that has staged nothing leaves of accounts (R77, R237) -/

namespace Sys2Proof.Machine

open Sys2Proof

/-- An item that has staged no work takes no entry out of a vault: only a STASH that made its entry does. -/
theorem dropOutputs_accounts (s : State) {x : Item} (h : x.work.staged = false) (status : Nat) :
    (s.dropOutputs x status).accounts = s.accounts := by
  have hd (u : State) : (u.undefineOutputs x.slip).accounts = u.accounts :=
    (touches_State_undefineOutputs (ps := [.free, .tensors]) .rfl (by decide) (by decide) x.slip : Touches _ u _) .accounts (by decide)
  unfold State.dropOutputs
  simp only [h, Bool.and_false, Bool.false_eq_true, if_false]
  generalize hu : (if (isMove x.slip 2 && decide (x.stage = 2)) = true then _ else s) = u
  have hk : u.accounts = s.accounts := by
    subst hu
    split
    · split <;> rfl
    · rfl
  split
  · split <;> exact hk
  · split
    · exact hk
    · split
      · exact hk
      · exact (hd u).trans hk

theorem endItem_accounts {s : State} {id : Nat} {x : Item} (hx : find s.items id = some x) (h : x.work.staged = false) (status fault : Nat) :
    (s.endItem id status fault).accounts = s.accounts := by
  cases hl : x.live with
  | false => rw [endItem_dead hx hl]
  | true =>
    have hw : (timedFor s x).2.work.staged = false := by rw [timedFor_item]; exact h
    obtain ⟨u, hu, hleave⟩ := leaveItem_cases (timedFor s x).1 id status fault (timedFor s x).2
    have hk : u.accounts = s.accounts := (hu .accounts (by decide)).trans (timedFor_touches s x .accounts (by decide))
    rw [endItem_live hx hl, markEnded_touches _ _ _ _ _ .accounts (by decide)]
    rcases hleave with e | e <;> rw [e]
    · exact hk
    · exact (dropOutputs_accounts u hw status).trans hk

/-- A critical value that fails its check is recorded, then the item ends (R268). -/
theorem mismatch_eq (s : State) (id : Nat) (x : Item) :
    ∃ u : State, Touches [.free, .islands, .dumpDue] s u ∧ s.mismatch id x = u.endItem id stFinal 0x2201 := ⟨_, by simp, rfl⟩

/-- The item has ended FAILED_FINAL and every account is as before. -/
def FailsAlone (id : Nat) (s t : State) : Prop := EndedAs id stFinal t ∧ t.accounts = s.accounts

section
variable {s : State} {id : Nat} {x : Item} (hr : ItemRuns s id x) (hw : x.work.staged = false)
include hr hw

theorem endItem_failsAlone (fault : Nat) : FailsAlone id s (s.endItem id stFinal fault) :=
  ⟨endItem_endedAs hr.1 (live_of_runs hr) _ _, endItem_accounts hr.1 hw _ _⟩

theorem mismatch_failsAlone : FailsAlone id s (s.mismatch id x) := by
  obtain ⟨u, hu, he⟩ := mismatch_eq s id x
  have hruns : ItemRuns u id x := ⟨(congrArg (find · id) (hu .items (by decide))).trans hr.1, hr.2⟩
  obtain ⟨hend, haccounts⟩ := endItem_failsAlone hruns hw 0x2201
  rw [he]
  exact ⟨hend, haccounts.trans (hu .accounts (by decide))⟩

end

theorem beside_setAccount {s u : State} (h : u.accounts = s.accounts) (n : Nat) (a : Account) : Beside State.account? n s (u.setAccount n a) :=
  fun _ hm => (u.setAccount_other a hm).trans (congrArg (find · _) h)

theorem touches_accountFinished {ps : List Part} {s u : State} (h : Touches ps s u) (ha : Part.accounts ∈ ps) (hi : Part.items ∈ ps) (n : Nat)
    (a : Account) (id : Nat) (y : Item) : Touches ps s ((u.setAccount n a).finishItem id y) :=
  touches_State_finishItem (touches_State_setAccount h ha _ _) hi _ _

theorem bit_setFlag (flags i : Nat) : bit (setFlag flags i) i = true := by
  rw [bit, setFlag, ← Nat.testBit_eq_decide_div_mod_eq, Nat.testBit_or, Nat.testBit_two_pow_self, Bool.or_true]

end Sys2Proof.Machine

/-! ### STASH (R233, R237, R238, R268) -/

namespace Sys2Proof.Machine

open Sys2Proof

/-- The account with an entry or a mark under a layer. -/
def Account.withEntry (a : Account) (layer : Nat) (e : VaultEntry) : Account := { a with vault := ins a.vault layer e }

/-- The account with nothing under a layer. -/
def Account.withoutEntry (a : Account) (layer : Nat) : Account := { a with vault := del a.vault layer }

/-- The mark that a STASH leaves. -/
def vaultMark (id : Nat) : VaultEntry := { mark := true, sequence := id }

/-- A STASH whose entry or mark stands: with its work staged. -/
def Item.stashed (x : Item) : Item := { x with work := { x.work with staged := true } }

/-- An entry holds its tensor's contents, scales and ceiling, in the part of the reservation that was decided (R237, R238). -/
theorem newEntry_contents (s : State) (id : Nat) (x : Item) (a : Account) (u : Tensor) :
    let e := newEntry s id x a u
    e.mark = false ∧ e.bytes = x.decisionBytes ∧ (e.reserve = true ↔ x.decision = .reserve) ∧ e.fmt = u.fmt ∧ e.rows = u.rows ∧
    e.cols = u.cols ∧ e.codes = u.codes ∧ e.ebytes = u.ebytes ∧ e.sExp = u.sExp ∧ e.ceil = u.ceil :=
  ⟨rfl, rfl, decide_eq_true_iff, rfl, rfl, rfl, rfl, rfl, rfl, rfl⟩

section
variable {s : State} {id : Nat} {x : Item} {a : Account} {u : Tensor}

theorem stash_next (hr : ItemReads s id x) (hk : isOp famStash 0 x.slip = true) : exec (.stash id) s = .next (stashEffect s id x) :=
  running_reads hr hk _

variable (ha : s.account? x.account = some a) (hu : find s.tensors (slipA x.slip) = some u)
include ha hu

theorem stashEffect_occupied (h : find a.vault (slipLayer x.slip) ≠ none) : stashEffect s id x = s.endItem id stFinal 0 := by
  simp only [stashEffect, ha, hu]
  exact if_pos (Option.isSome_iff_ne_none.mpr h)

section
variable (hv : find a.vault (slipLayer x.slip) = none)
include hv

theorem stashEffect_marks (hd : x.decision = .marked) : stashEffect s id x =
    (s.setAccount x.account (a.withEntry (slipLayer x.slip) (vaultMark id))).finishItem id (x.stashed.flag flRecomputeMarked) := by
  simp [stashEffect, ha, hu, hv, hd, Account.withEntry, vaultMark, Item.stashed]

variable (hd : x.decision ≠ .marked)
include hd

theorem stashEffect_poisoned (hp : u.poison ≠ 0) : stashEffect s id x = s.endItem id stFinal u.poison := by
  simp [stashEffect, ha, hu, hv, hd, hp]

theorem stashEffect_keeps (hp : u.poison = 0) : ∃ y : Item, stashEffect s id x =
    (({ s with free := s.free + 1 } : State).setAccount x.account (a.withEntry (slipLayer x.slip) (newEntry s id x a u))).finishItem id y := by
  simp only [stashEffect, ha, hu, hv, hd, hp, Option.isSome_none, Bool.false_eq_true, ne_eq, not_true_eq_false, if_false]
  exact ⟨_, rfl⟩

end

end

end Sys2Proof.Machine

/-! ### RECALL (R239, R268) -/

namespace Sys2Proof.Machine

open Sys2Proof

/-- An entry can be recalled into a tensor: of its format and shape, sound and not poisoned. -/
def VaultEntry.Fits (e : VaultEntry) (u : Tensor) : Prop := e.fmt = u.fmt ∧ e.rows = u.rows ∧ e.cols = u.cols ∧ e.flips = [] ∧ e.poison = 0

/-- The tensor that a RECALL leaves: the entry's contents as a new version, their largest magnitude observed (R103). -/
def recalled (a : Account) (id : Nat) (u : Tensor) (e : VaultEntry) : Tensor :=
  let v := (u.newVersion a.stepNumber id none).recall e
  v.observe a.commits (amaxOf v.vals)

theorem recalled_contents (a : Account) (id : Nat) (u : Tensor) (e : VaultEntry) :
    (recalled a id u e).codes = e.codes ∧ (recalled a id u e).ebytes = e.ebytes ∧ (recalled a id u e).sExp = e.sExp ∧
    (recalled a id u e).ceil = e.ceil ∧ (recalled a id u e).fmt = u.fmt ∧ (recalled a id u e).rows = u.rows ∧
    (recalled a id u e).cols = u.cols := by
  rw [recalled, observe_kept]
  exact ⟨rfl, rfl, rfl, rfl, rfl, rfl, rfl⟩

section
variable {s : State} {id : Nat} {x : Item} {a : Account} {u : Tensor} {e : VaultEntry}

theorem recallItem_next (hr : ItemReads s id x) (hk : isOp famRecall 0 x.slip = true) : exec (.recallItem id) s = .next (recallEffect s id x) :=
  running_reads hr hk _

theorem recallEffect_waits (h : stashAhead s id x = true) : recallEffect s id x = s := if_pos h

variable (hs : stashAhead s id x = false) (ha : s.account? x.account = some a) (hu : find s.tensors (slipA x.slip) = some u)
include hs ha hu

theorem recallEffect_empty (hv : find a.vault (slipLayer x.slip) = none) : recallEffect s id x = s.endItem id stFinal 0 := by
  simp [recallEffect, hs, ha, hu, hv]

variable (hv : find a.vault (slipLayer x.slip) = some e)
include hv

theorem recallEffect_marked (hm : e.mark = true) : recallEffect s id x =
    (s.setAccount x.account (a.withoutEntry (slipLayer x.slip))).finishItem id (x.flag flRecomputeMarked) := by
  simp [recallEffect, hs, ha, hu, hv, hm, Account.withoutEntry]

variable (hm : e.mark = false)
include hm

/-- An entry that does not fit fails the RECALL: by its format or shape, by a critical value, or by its poison. -/
theorem recallEffect_unfit (hf : ¬e.Fits u) :
    (∃ fault, recallEffect s id x = s.endItem id stFinal fault) ∨ recallEffect s id x = s.mismatch id x := by
  simp only [recallEffect, hs, ha, hu, hv, hm, Bool.false_eq_true, if_false]
  split
  · exact .inl ⟨_, rfl⟩
  · next hshape =>
    split
    · exact .inr rfl
    · next hflips =>
      split
      · exact .inl ⟨_, rfl⟩
      · next hpoison =>
        simp only [not_or, ne_eq, Decidable.not_not] at hshape hflips hpoison
        obtain ⟨hfmt, hrows, hcols⟩ := hshape
        exact absurd ⟨hfmt, hrows, hcols, hflips, hpoison⟩ hf

theorem recallEffect_fits (hf : e.Fits u) : ∃ y : Item, recallEffect s id x =
    ((s.setAccount x.account (a.withoutEntry (slipLayer x.slip))).setTensor (slipA x.slip) (recalled a id u e)).finishItem id y := by
  obtain ⟨hfmt, hrows, hcols, hflips, hpoison⟩ := hf
  simp only [recallEffect, hs, ha, hu, hv, hm, hfmt, hrows, hcols, hflips, hpoison, Bool.false_eq_true, ne_eq, not_true_eq_false, or_self, if_false]
  exact ⟨_, rfl⟩

end

end Sys2Proof.Machine

/-! ### VAULT_EVICT (R274, R275) -/

namespace Sys2Proof.Machine

open Sys2Proof

/-- An entry, no mark, that does not yet lie where entries are moved to. -/
def movable (toSram : Bool) (p : Nat × VaultEntry) : Bool := !(p.2.mark || p.2.place.sram.isSome == toSram)

theorem movable_iff {toSram : Bool} {p : Nat × VaultEntry} : movable toSram p = true ↔ p.2.mark = false ∧ p.2.place.sram.isSome ≠ toSram := by
  simp [movable]

/-- An entry of order `m` moves no later than one of order `n`: latest-consumed first into SRAM, earliest-consumed first out of it (R275). -/
def NoLater (toSram : Bool) (m n : Nat) : Prop := if toSram = true then n ≤ m else m ≤ n

theorem NoLater.refl (toSram : Bool) (n : Nat) : NoLater toSram n n := by cases toSram <;> exact Nat.le_refl n

theorem NoLater.trans {toSram : Bool} {m n k : Nat} (h : NoLater toSram m n) (h' : NoLater toSram n k) : NoLater toSram m k := by
  cases toSram
  · exact Nat.le_trans (m := n) h h'
  · exact Nat.le_trans (m := n) h' h

/-- An entry of order `n` takes the candidate's place from one of order `m`. -/
def overtakes (toSram : Bool) (n m : Nat) : Bool := if toSram then decide (m < n) else decide (n < m)

theorem noLater_of_overtakes {toSram : Bool} {n m : Nat} (h : overtakes toSram n m = true) : NoLater toSram n m := by
  cases toSram <;> exact Nat.le_of_lt (of_decide_eq_true h)

theorem noLater_of_not_overtakes {toSram : Bool} {n m : Nat} (h : ¬overtakes toSram n m = true) : NoLater toSram m n := by
  cases toSram <;> exact Nat.le_of_not_lt fun hlt => h (decide_eq_true hlt)

/-- What a candidate keeps of its entry: the layer and the order of consumption. -/
def placed (p : Nat × VaultEntry) : Nat × Nat := (p.1, p.2.sequence)

/-- One entry is looked at for the candidate (R275). -/
def candidateStep (toSram : Bool) (best : Option (Nat × Nat)) (p : Nat × VaultEntry) : Option (Nat × Nat) :=
  if p.2.mark || p.2.place.sram.isSome == toSram then best
  else match best with
    | none => some (placed p)
    | some b => if overtakes toSram p.2.sequence b.2 then some (placed p) else best

theorem vaultCandidate_fold (a : Account) (toSram : Bool) :
    vaultCandidate a toSram = (a.vault.foldl (candidateStep toSram) none).map Prod.fst := rfl

/-- The candidate `c` is the best so far, or an entry of the list that may move. -/
def ComesFrom (toSram : Bool) (best : Option (Nat × Nat)) (l : List (Nat × VaultEntry)) (c : Nat × Nat) : Prop :=
  best = some c ∨ ∃ p ∈ l, movable toSram p = true ∧ placed p = c

/-- The candidate `c` moves no later than the best so far and than every entry of the list that may move. -/
def LeadsAll (toSram : Bool) (best : Option (Nat × Nat)) (l : List (Nat × VaultEntry)) (c : Nat × Nat) : Prop :=
  (∀ b, best = some b → NoLater toSram c.2 b.2) ∧ ∀ q ∈ l, movable toSram q = true → NoLater toSram c.2 q.2.sequence

section
variable {toSram : Bool} {best : Option (Nat × Nat)} {p : Nat × VaultEntry}

theorem candidateStep_stays (h : ¬movable toSram p = true) : candidateStep toSram best p = best :=
  if_pos (by simpa only [movable, Bool.not_eq_true', Bool.not_eq_false] using h)

theorem candidateStep_moves (h : movable toSram p = true) :
    ∃ c, candidateStep toSram best p = some c ∧ (best = some c ∨ placed p = c) ∧ NoLater toSram c.2 p.2.sequence ∧
      ∀ b, best = some b → NoLater toSram c.2 b.2 := by
  have hstep : ¬(p.2.mark || p.2.place.sram.isSome == toSram) = true := by
    simpa only [movable, Bool.not_eq_true', Bool.not_eq_true] using h
  cases best with
  | none => exact ⟨placed p, if_neg hstep, .inr rfl, .refl _ _, fun _ hb => nomatch hb⟩
  | some b =>
    have he : candidateStep toSram (some b) p = if overtakes toSram p.2.sequence b.2 then some (placed p) else some b := if_neg hstep
    by_cases ho : overtakes toSram p.2.sequence b.2 = true
    · refine ⟨placed p, he.trans (if_pos ho), .inr rfl, .refl _ _, fun d hd => ?_⟩
      cases hd
      exact noLater_of_overtakes ho
    · refine ⟨b, he.trans (if_neg ho), .inl rfl, noLater_of_not_overtakes ho, fun d hd => ?_⟩
      cases hd
      exact .refl _ _

end

theorem foldl_candidateStep {toSram : Bool} {l : List (Nat × VaultEntry)} {best : Option (Nat × Nat)} {c : Nat × Nat}
    (h : l.foldl (candidateStep toSram) best = some c) : ComesFrom toSram best l c ∧ LeadsAll toSram best l c := by
  induction l generalizing best with
  | nil =>
    refine ⟨.inl h, fun b hb => ?_, fun q hq => absurd hq List.not_mem_nil⟩
    cases h.symm.trans hb
    exact .refl _ _
  | cons p rest ih =>
    obtain ⟨hfrom, hbest, hrest⟩ := ih h
    by_cases hp : movable toSram p = true
    · obtain ⟨d, hd, hdfrom, hdp, hdbest⟩ := candidateStep_moves (best := best) hp
      have hcd := hbest d hd
      refine ⟨?_, fun b hb => hcd.trans (hdbest b hb), List.forall_mem_cons.mpr ⟨fun _ => hcd.trans hdp, hrest⟩⟩
      rcases hfrom with hc | ⟨q, hq, hqc⟩
      · cases hd.symm.trans hc
        exact hdfrom.imp id fun e => ⟨p, List.mem_cons_self, hp, e⟩
      · exact .inr ⟨q, List.mem_cons_of_mem _ hq, hqc⟩
    · rw [candidateStep_stays hp] at hfrom hbest
      exact ⟨hfrom.imp id fun ⟨q, hq, hqc⟩ => ⟨q, List.mem_cons_of_mem _ hq, hqc⟩, hbest,
        List.forall_mem_cons.mpr ⟨fun hm => absurd hm hp, hrest⟩⟩

/-- The candidate is an entry that may move, and none that may moves before it. -/
theorem vaultCandidate_spec {a : Account} {toSram : Bool} {layer : Nat} (h : vaultCandidate a toSram = some layer) :
    ∃ p ∈ a.vault, p.1 = layer ∧ p.2.mark = false ∧ p.2.place.sram.isSome ≠ toSram ∧
      ∀ q ∈ a.vault, q.2.mark = false → q.2.place.sram.isSome ≠ toSram → NoLater toSram p.2.sequence q.2.sequence := by
  rw [vaultCandidate_fold] at h
  obtain ⟨c, hc, hlayer⟩ := Option.map_eq_some_iff.mp h
  obtain ⟨hfrom, -, hleads⟩ := foldl_candidateStep hc
  rcases hfrom with hnone | ⟨p, hp, hmove, rfl⟩
  · exact nomatch hnone
  · obtain ⟨hmark, hplace⟩ := movable_iff.mp hmove
    exact ⟨p, hp, hlayer, hmark, hplace, fun q hq hqmark hqplace => hleads q hq (movable_iff.mpr ⟨hqmark, hqplace⟩)⟩

/-- What stands in a table under a key, `find` answers with some entry of that key. -/
theorem find_of_mem {α : Type} {t : Table α} {p : Nat × α} (h : p ∈ t) : ∃ e, find t p.1 = some e := by
  induction t with
  | nil => exact absurd h List.not_mem_nil
  | cons q rest ih =>
    obtain ⟨k, v⟩ := q
    by_cases hk : k = p.1
    · exact ⟨v, if_pos hk⟩
    · obtain rfl | hrest := List.mem_cons.mp h
      · exact absurd rfl hk
      · obtain ⟨e, he⟩ := ih hrest
        exact ⟨e, (if_neg hk).trans he⟩

theorem adjust_of_find {α : Type} {t : Table α} {i : Nat} {e : α} (h : find t i = some e) (f : α → α) : adjust t i f = ins t i (f e) := by
  rw [adjust, h]

/-- An entry where it lies now: in a region's SRAM or in none. -/
def VaultEntry.movedTo (e : VaultEntry) (sram : Option Nat) : VaultEntry := { e with place := { e.place with sram := sram } }

theorem exec_vaultEvict (account : BitVec 6) (toSram : Bool) (s : State) :
    exec (.vaultEvict account toSram) s = execVaultEvict account toSram s := rfl

section
variable {s : State} {account : BitVec 6} {toSram : Bool} {a : Account} (ha : s.account? account.toNat = some a)
include ha

theorem vaultEvict_idle (h : vaultCandidate a toSram = none) : exec (.vaultEvict account toSram) s = .next s := by
  rw [exec_vaultEvict]
  simp only [execVaultEvict, ha, h]

variable {layer : Nat} (hc : vaultCandidate a toSram = some layer)
include hc

theorem vaultEvict_candidate : exec (.vaultEvict account toSram) s =
    .next (if (toSram && !sramRoom s account.toNat (entryBytes a layer)) = true then s
      else ({ s with free := s.free + 1 } : State).setAccount account.toNat
        { a with vault := adjust a.vault layer (·.movedTo (if toSram then someRegion s else none)) }) := by
  rw [exec_vaultEvict]
  simp only [execVaultEvict, ha, hc]
  rfl

theorem vaultEvict_noRoom (ht : toSram = true) (h : sramRoom s account.toNat (entryBytes a layer) = false) :
    exec (.vaultEvict account toSram) s = .next s := by
  rw [vaultEvict_candidate ha hc, if_pos (by simp [ht, h])]

theorem vaultEvict_moves (h : toSram = false ∨ sramRoom s account.toNat (entryBytes a layer) = true) {e : VaultEntry}
    (he : find a.vault layer = some e) : exec (.vaultEvict account toSram) s = .next (({ s with free := s.free + 1 } : State).setAccount account.toNat
      (a.withEntry layer (e.movedTo (if toSram then someRegion s else none)))) := by
  have hroom : ¬(toSram && !sramRoom s account.toNat (entryBytes a layer)) = true := by rcases h with h | h <;> simp [h]
  rw [vaultEvict_candidate ha hc, if_neg hroom, adjust_of_find he, Account.withEntry]

end

end Sys2Proof.Machine

namespace Sys2Proof

open Sys2Proof.Machine

/-- Settles O28: STASH and RECALL by what the layer holds, by the decision and by how the entry fits; VAULT_EVICT by its candidate and the room
for it. -/
theorem vaultKeepsAndReturnsContents : Obligations.VaultKeepsAndReturnsContents := by
  refine ⟨?_, ?_⟩
  · intro s id x a u hr ha hu hw layer
    have hrun := hr.1
    refine ⟨fun hk => ?stashes, fun hk => ?recalls⟩
    case stashes =>
      have hexec := stash_next hr hk
      refine ⟨fun hv => ?_, fun hv hd => ?_, fun hv hd hp => ?_, fun hv hd hp => ?_⟩
      · rw [stashEffect_occupied ha hu hv] at hexec
        exact ⟨_, hexec, endItem_failsAlone hrun hw _⟩
      · rw [stashEffect_marks ha hu hv hd] at hexec
        exact ⟨_, hexec, touches_accountFinished .rfl (by decide) (by decide) _ _ _ _, otherItems_finishItem rfl _ _, beside_setAccount rfl _ _,
          ⟨_, State.setAccount_same s _ _, rfl⟩, _, State.setItem_same _ _ _, rfl, bit_setFlag _ _⟩
      · obtain ⟨y, he⟩ := stashEffect_keeps (id := id) ha hu hv hd hp
        rw [he] at hexec
        exact ⟨_, hexec, touches_accountFinished (touches_counted (by decide) s 1) (by decide) (by decide) _ _ _ _, otherItems_finishItem rfl _ _,
          atStage_finishItem _ _ _, beside_setAccount rfl _ _, _, State.setAccount_same _ _ _, newEntry_contents s id x a u⟩
      · rw [stashEffect_poisoned ha hu hv hd hp] at hexec
        exact ⟨_, hexec, endItem_failsAlone hrun hw _⟩
    case recalls =>
      have hexec := recallItem_next hr hk
      refine ⟨fun hs => ?_, fun hs hv => ?_, fun e hs hv => ?_⟩
      · rwa [recallEffect_waits hs] at hexec
      · rw [recallEffect_empty hs ha hu hv] at hexec
        exact ⟨_, hexec, endItem_failsAlone hrun hw _⟩
      · intro fits
        refine ⟨fun hm => ?_, fun hm hf => ?_, fun hm hf => ?_⟩
        · rw [recallEffect_marked hs ha hu hv hm] at hexec
          exact ⟨_, hexec, touches_accountFinished .rfl (by decide) (by decide) _ _ _ _, otherItems_finishItem rfl _ _,
            State.setAccount_same s _ _, _, State.setItem_same _ _ _, rfl, bit_setFlag _ _⟩
        · refine ⟨_, hexec, ?_⟩
          rcases recallEffect_unfit hs ha hu hv hm hf with ⟨fault, he⟩ | he <;> rw [he]
          · exact endItem_failsAlone hrun hw fault
          · exact mismatch_failsAlone hrun hw
        · obtain ⟨y, he⟩ := recallEffect_fits (id := id) hs ha hu hv hm hf
          rw [he] at hexec
          exact ⟨_, hexec,
            touches_State_finishItem (touches_State_setTensor (touches_State_setAccount .rfl (by decide) _ _) (by decide) _ _) (by decide) _ _,
            otherItems_finishItem rfl _ _, atStage_finishItem _ _ _, otherTensors_setTensor (fun _ _ => rfl) _, State.setAccount_same s _ _,
            _, State.setTensor_same _ _ _, recalled_contents a id u e⟩
  · intro s account toSram a ha
    refine ⟨fun hc => vaultEvict_idle ha hc, fun layer hc => ⟨fun ht hroom => vaultEvict_noRoom ha hc ht hroom, fun h => ?_⟩⟩
    obtain ⟨p, hp, rfl, hbest⟩ := vaultCandidate_spec hc
    obtain ⟨e, he⟩ := find_of_mem hp
    exact ⟨_, vaultEvict_moves ha hc h he, touches_State_setAccount (touches_counted (by decide) s 1) (by decide) _ _, beside_setAccount rfl _ _,
      ⟨e, _, he, fun ht => by simp [ht], State.setAccount_same _ _ _⟩, p, hp, rfl, hbest⟩

end Sys2Proof
